-- ==== Sys2Proof/Word.lean ====
section
/-! DEFINITION. The word types of the device (02 R30, 05 R102): 64-bit registers, 32-bit instruction words, bytes,
5-bit register codes. -/

namespace Sys2Proof

/-- A register operand: every register is 64 bits wide (R102). -/
abbrev Word := BitVec 64

/-- One byte of memory (R3). -/
abbrev Byte := BitVec 8

/-- An instruction word (R3, R30). -/
abbrev IWord := BitVec 32

/-- A 5-bit register operand code (R33). -/
abbrev Reg := BitVec 5

end Sys2Proof
end

