-- ==== Sys2Proof/Machine/Numbers.lean ====
section
/-! DEFINITION. Element formats, exact values, the one rounding rule and the stochastic generator (04 R75 to R88).
Values are exact: a magnitude is a rational number or the square root of one, so that every operation is computed
without error and rounded once at the end (R83). -/

namespace Sys2Proof.Machine

/-- An exact magnitude: n / d, or the square root of n / d. d is not 0. -/
inductive Mag where
  | rat (n d : Nat)
  | root (n d : Nat)
  deriving DecidableEq, Repr

/-- An exact value: the NaN (R78 has only one), an infinity, or a sign and a magnitude. -/
inductive Val where
  | nan
  | inf (neg : Bool)
  | fin (neg : Bool) (m : Mag)
  deriving DecidableEq, Repr

/-- The float formats of R75. -/
inductive Fmt where
  | fp4 | e4m3 | e5m2 | bf16 | fp32 | fp64
  deriving DecidableEq, Repr

/-- Mantissa width M (R75). -/
def Fmt.mant : Fmt → Nat
  | .fp4 => 1 | .e4m3 => 3 | .e5m2 => 2 | .bf16 => 7 | .fp32 => 23 | .fp64 => 52

/-- Exponent bias (R75). -/
def Fmt.bias : Fmt → Nat
  | .fp4 => 1 | .e4m3 => 7 | .e5m2 => 15 | .bf16 => 127 | .fp32 => 127 | .fp64 => 1023

/-- Width of the exponent field (R75). -/
def Fmt.expBits : Fmt → Nat
  | .fp4 => 2 | .e4m3 => 4 | .e5m2 => 5 | .bf16 => 8 | .fp32 => 8 | .fp64 => 11

/-- Whether the format has infinities, subnormals and signed zeros as IEEE 754 gives them. -/
def Fmt.ieee : Fmt → Bool
  | .bf16 => true | .fp32 => true | .fp64 => true | _ => false

/-- The position of the sign bit. -/
def Fmt.signBit (f : Fmt) : Nat := f.mant + f.expBits

/-- The five flags of R86, in its numbering. -/
def flagNV : BitVec 5 := 16#5
def flagDZ : BitVec 5 := 8#5
def flagOF : BitVec 5 := 4#5
def flagUF : BitVec 5 := 2#5
def flagNX : BitVec 5 := 1#5

/-- 2 to an integer power as a quotient of naturals. -/
def pow2 (e : Int) : Nat × Nat := if 0 ≤ e then (2 ^ e.toNat, 1) else (1, 2 ^ (-e).toNat)

/-- k × 2^e. -/
def scaled (k : Nat) (e : Int) : Mag := .rat (k * (pow2 e).1) (pow2 e).2

/-- Integer square root, by bits from the top. -/
def sqrtBits : Nat → Nat → Nat → Nat
  | 0, _, acc => acc
  | i + 1, n, acc => if (acc + 2 ^ i) * (acc + 2 ^ i) ≤ n then sqrtBits i n (acc + 2 ^ i) else sqrtBits i n acc

def isqrt (n : Nat) : Nat := sqrtBits (n.log2 / 2 + 1) n 0

/-- floor of log2 of n / d, for n and d not 0. -/
def ratLog (n d : Nat) : Int :=
  let e : Int := (n.log2 : Int) - (d.log2 : Int)
  if n * (pow2 e).2 < d * (pow2 e).1 then e - 1 else e

/-- floor of log2 of a magnitude that is not 0. -/
def Mag.log : Mag → Int
  | .rat n d => ratLog n d
  | .root n d => (ratLog n d) / 2

def Mag.isZero : Mag → Bool
  | .rat n _ => n == 0
  | .root n _ => n == 0

/-- a / b is below the magnitude. -/
def Mag.above (a b : Nat) : Mag → Bool
  | .rat n d => decide (a * d < n * b)
  | .root n d => decide (a * a * d < n * (b * b))

/-- The magnitude equals a / b. -/
def Mag.is (a b : Nat) : Mag → Bool
  | .rat n d => a * d == n * b
  | .root n d => a * a * d == n * (b * b)

/-- floor of the magnitude in units of 2^q. -/
def Mag.floorAt (q : Int) : Mag → Nat
  | .rat n d => n * (pow2 q).2 / (d * (pow2 q).1)
  | .root n d => isqrt (n * (pow2 (2 * q)).2 / (d * (pow2 (2 * q)).1))

/-- A rounding: a mode of R42, with the draw of the stochastic mode. -/
structure Rounding where
  mode : BitVec 3
  u : BitVec 32
  deriving DecidableEq, Repr

/-- Nearest, ties to even. -/
def nearest : Rounding := ⟨0#3, 0#32⟩

/-- R84 for a magnitude strictly between lo = l / g and hi = h / g: whether hi is taken. even says that lo has an even
mantissa, and that lo wins a tie. -/
def takeHigh (r : Rounding) (neg : Bool) (l h g : Nat) (even : Bool) (x : Mag) : Bool :=
  match r.mode.toNat with
  | 0 => x.above (l + h) (2 * g) || (x.is (l + h) (2 * g) && !even)
  | 1 => false
  | 2 => neg
  | 3 => !neg
  | _ =>
    -- (x - a) / (b - a) × 2^32 against u, with a the lower value: for a negative x the lower value is -hi
    if neg then x.above (h * 2 ^ 32 - r.u.toNat * (h - l)) (g * 2 ^ 32)
      || x.is (h * 2 ^ 32 - r.u.toNat * (h - l)) (g * 2 ^ 32)
    else x.above (l * 2 ^ 32 + r.u.toNat * (h - l)) (g * 2 ^ 32)

/-- A magnitude rounded to a multiple of 2^q: the multiple, and whether it is exact. -/
def roundAt (r : Rounding) (neg : Bool) (q : Int) (x : Mag) : Nat × Bool :=
  let k := x.floorAt q
  let g := pow2 q
  if x.is (k * g.1) g.2 then (k, true)
  else (if takeHigh r neg (k * g.1) ((k + 1) * g.1) g.2 (k % 2 == 0) x then k + 1 else k, false)

/-- The smallest nonzero magnitude of FP4 and FP8 on one side of zero, as a mantissa over 2^M at exponent -bias (R76,
R77): the pattern with all fields 0 is 0, or on the negative side -0.5 for FP4 and NaN for FP8. -/
def Fmt.leastUnits (f : Fmt) (neg : Bool) : Nat :=
  if f == .fp4 && neg then 2 ^ f.mant else 2 ^ f.mant + 1

/-- The exponent of the largest binade (R75): IEEE formats lose one to infinities and NaNs. -/
def Fmt.maxExp (f : Fmt) : Int :=
  (2 ^ f.expBits : Nat) - 1 - (if f.ieee then 1 else 0) - (f.bias : Int)

/-- The code of k × 2^q, for a value the format holds (k below 2^(M + 1)); k = 0 is the zero of the sign where the
format has one. -/
def Fmt.code (f : Fmt) (neg : Bool) (k : Nat) (q : Int) : Nat :=
  let s := if neg then 2 ^ f.signBit else 0
  if k = 0 then (if f.ieee then s else 0)
  else
    let e : Int := (k.log2 : Int) + q
    let least : Int := (if f.ieee then 1 else 0) - (f.bias : Int)
    if f.ieee && decide (e < least) then
      -- subnormal: units of 2^(least - M)
      s + k * (pow2 (q - (least - (f.mant : Int)))).1 / (pow2 (q - (least - (f.mant : Int)))).2
    else
      let sh : Int := (f.mant : Int) - (k.log2 : Int)
      let m := k * (pow2 sh).1 / (pow2 sh).2
      s + (e + (f.bias : Int)).toNat * 2 ^ f.mant + (m - 2 ^ f.mant)

/-- The largest finite magnitude's code. -/
def Fmt.largest (f : Fmt) (neg : Bool) : Nat :=
  f.code neg (2 ^ (f.mant + 1) - 1) (f.maxExp - (f.mant : Int))

/-- The canonical NaN (R78), and the NaN code of FP8 (R75). FP4 has none: its block is marked (R82). -/
def Fmt.nanCode : Fmt → Nat
  | .fp4 => 0 | .e4m3 => 0x80 | .e5m2 => 0x80
  | .bf16 => 0x7FC0 | .fp32 => 0x7FC00000 | .fp64 => 0x7FF8000000000000

/-- The code of an infinity. -/
def Fmt.infCode (f : Fmt) (neg : Bool) : Nat :=
  (if neg then 2 ^ f.signBit else 0) + (2 ^ f.expBits - 1) * 2 ^ f.mant

/-- Whether an IEEE overflow of the mode gives the infinity (R85): nearest and stochastic do, a directed mode does on
its own side. -/
def overflowsToInf (r : Rounding) (neg : Bool) : Bool :=
  match r.mode.toNat with
  | 1 => false
  | 2 => neg
  | 3 => !neg
  | _ => true

/-- Rounding of a nonzero magnitude to a float format: R84, R85 and R86. -/
def roundFin (f : Fmt) (r : Rounding) (neg : Bool) (x : Mag) : Nat × BitVec 5 :=
  let e := x.log
  let q := e - (f.mant : Int)
  -- r of R85: the destination's precision, every exponent
  let (k, exact) := roundAt r neg q x
  let top : Int := f.maxExp - (f.mant : Int)
  let biggest := (2 ^ (f.mant + 1) - 1) * (pow2 top).1
  let tooBig := decide (biggest * (pow2 q).2 < k * (pow2 q).1 * (pow2 top).2)
  if tooBig then
    if f.ieee then
      (if overflowsToInf r neg then f.infCode neg else f.largest neg, flagOF ||| flagNX)
    else (f.largest neg, flagOF ||| flagNX)
  else if f.ieee then
    let least : Int := 1 - (f.bias : Int)
    if e < least then
      let q' := least - (f.mant : Int)
      let (k', exact') := roundAt r neg q' x
      -- tiny after rounding: r below the smallest normal magnitude
      let tiny := decide (k * (pow2 q).1 * (pow2 least).2 < (pow2 q).2 * (pow2 least).1)
      (f.code neg k' q', if exact' then 0#5 else if tiny then flagUF ||| flagNX else flagNX)
    else (f.code neg k q, if exact then 0#5 else flagNX)
  else
    -- FP4 and FP8: nothing lies between 0 and the smallest nonzero magnitude
    let g : Int := -(f.bias : Int) - (f.mant : Int)
    let lu := f.leastUnits neg
    let below := !(x.above (lu * (pow2 g).1) (pow2 g).2) && !(x.is (lu * (pow2 g).1) (pow2 g).2)
    if below then
      let hi := takeHigh r neg 0 (lu * (pow2 g).1) (pow2 g).2 true x
      let rtiny := decide (k * (pow2 q).1 * (pow2 g).2 < lu * (pow2 g).1 * (pow2 q).2)
      if hi then (f.code neg lu g, if rtiny then flagUF ||| flagNX else flagNX)
      else (0, flagUF ||| flagNX)
    else (f.code neg k q, if exact then 0#5 else flagNX)

/-- R83 to R86: the code and the flags of an exact value in a float format. An FP4 NaN has no code: the block is
marked by R82. -/
def roundTo (f : Fmt) (r : Rounding) : Val → Nat × BitVec 5
  | .nan => (f.nanCode, if f == .fp4 then flagNV else 0#5)
  | .inf neg => if f.ieee then (f.infCode neg, 0#5) else (f.largest neg, flagOF)
  | .fin neg m =>
    if m.isZero then (f.code neg 0 0, 0#5) else roundFin f r neg m

/-- R84 and R85 for an integer destination from lo to hi (the limits of a two's complement or unsigned type): the
integer and the flags. -/
def roundInt (lo hi : Int) (r : Rounding) : Val → Int × BitVec 5
  | .nan => (0, flagNV)
  | .inf neg => (if neg then lo else hi, flagNV)
  | .fin neg m =>
    if m.isZero then (0, 0#5)
    else
      let (k, exact) := roundAt r neg 0 m
      let v : Int := if neg then -(k : Int) else (k : Int)
      if v < lo then (lo, flagNV)
      else if hi < v then (hi, flagNV)
      else (v, if exact then 0#5 else flagNX)

/-- The value of a code (R75 to R78). -/
def Fmt.value (f : Fmt) (c : Nat) : Val :=
  let neg := c / 2 ^ f.signBit % 2 == 1
  let e := c / 2 ^ f.mant % 2 ^ f.expBits
  let m := c % 2 ^ f.mant
  let b : Int := f.bias
  if f.ieee then
    if e == 2 ^ f.expBits - 1 then (if m == 0 then .inf neg else .nan)
    else if e == 0 then .fin neg (scaled m (1 - b - (f.mant : Int)))
    else .fin neg (scaled (2 ^ f.mant + m) ((e : Int) - b - (f.mant : Int)))
  else if e == 0 && m == 0 then
    if neg then (if f == .fp4 then .fin true (scaled 1 (-1)) else .nan)
    else .fin false (.rat 0 1)
  else .fin neg (scaled (2 ^ f.mant + m) ((e : Int) - b - (f.mant : Int)))

/-- The value of a two's complement or unsigned integer. -/
def intVal (v : Int) : Val := .fin (decide (v < 0)) (.rat v.natAbs 1)

/-- The value of an E5M7 block scale (R77): 0x000 is zero, 0xFFF marks an invalid block. -/
def scaleVal (k : Nat) : Val :=
  if k == 0 then .fin false (.rat 0 1)
  else if k == 0xFFF then .nan
  else .fin false (scaled (128 + k % 128) ((k / 128 : Nat) - 15 - 7))

/-- The numerator and denominator of a rational magnitude. Roots are only ever rounded. -/
def Mag.frac : Mag → Nat × Nat
  | .rat n d => (n, d)
  | .root n d => (n, d)

/-- The sign of an exact zero sum under IEEE 754: minus only when rounding down (R117; stochastic as nearest). -/
def zeroSumNeg (r : Rounding) : Bool := r.mode == 2#3

/-- Exact sum, and NV for ∞ − ∞. -/
def addVal (r : Rounding) : Val → Val → Val × BitVec 5
  | .nan, _ => (.nan, 0#5)
  | _, .nan => (.nan, 0#5)
  | .inf s, .inf t => if s == t then (.inf s, 0#5) else (.nan, flagNV)
  | .inf s, _ => (.inf s, 0#5)
  | _, .inf t => (.inf t, 0#5)
  | .fin s a, .fin t b =>
    if a.isZero && b.isZero then (.fin (if s == t then s else zeroSumNeg r) (.rat 0 1), 0#5)
    else
      let (n, d) := a.frac
      let (n', d') := b.frac
      let x : Int := (if s then -(n : Int) else n) * d' + (if t then -(n' : Int) else n') * d
      if x == 0 then (.fin (zeroSumNeg r) (.rat 0 1), 0#5)
      else (.fin (decide (x < 0)) (.rat x.natAbs (d * d')), 0#5)

def negVal : Val → Val
  | .nan => .nan
  | .inf s => .inf (!s)
  | .fin s m => .fin (!s) m

def absVal : Val → Val
  | .nan => .nan
  | .inf _ => .inf false
  | .fin _ m => .fin false m

/-- Exact product, and NV for 0 × ∞. -/
def mulVal : Val → Val → Val × BitVec 5
  | .nan, _ => (.nan, 0#5)
  | _, .nan => (.nan, 0#5)
  | .inf s, .inf t => (.inf (s != t), 0#5)
  | .inf s, .fin t b => if b.isZero then (.nan, flagNV) else (.inf (s != t), 0#5)
  | .fin s a, .inf t => if a.isZero then (.nan, flagNV) else (.inf (s != t), 0#5)
  | .fin s a, .fin t b => (.fin (s != t) (.rat (a.frac.1 * b.frac.1) (a.frac.2 * b.frac.2)), 0#5)

/-- Exact quotient, with NV for 0/0 and ∞/∞ and DZ for x/0. -/
def divVal : Val → Val → Val × BitVec 5
  | .nan, _ => (.nan, 0#5)
  | _, .nan => (.nan, 0#5)
  | .inf _, .inf _ => (.nan, flagNV)
  | .inf s, .fin t _ => (.inf (s != t), 0#5)
  | .fin s _, .inf t => (.fin (s != t) (.rat 0 1), 0#5)
  | .fin s a, .fin t b =>
    if b.isZero then (if a.isZero then (.nan, flagNV) else (.inf (s != t), flagDZ))
    else (.fin (s != t) (.rat (a.frac.1 * b.frac.2) (a.frac.2 * b.frac.1)), 0#5)

/-- Exact square root; NV below −0; sqrt(−0) is −0. -/
def sqrtVal : Val → Val × BitVec 5
  | .nan => (.nan, 0#5)
  | .inf s => if s then (.nan, flagNV) else (.inf false, 0#5)
  | .fin s m =>
    if m.isZero then (.fin s (.rat 0 1), 0#5)
    else if s then (.nan, flagNV)
    else (.fin false (.root m.frac.1 m.frac.2), 0#5)

def Val.isNan : Val → Bool
  | .nan => true
  | _ => false

/-- a × b + c, exact (R117): 0 × ∞ gives NaN whatever c is, with NV unless an operand is NaN (R78). -/
def fmaVal (r : Rounding) (a b c : Val) : Val × BitVec 5 :=
  let (p, f) := mulVal a b
  if a.isNan || b.isNan || c.isNan then (.nan, 0#5)
  else if f == flagNV then (.nan, flagNV)
  else let (v, g) := addVal r p c; (v, f ||| g)

/-- a < b, with neither NaN (R118): −0 equals +0. -/
def ltVal : Val → Val → Bool
  | .nan, _ => false
  | _, .nan => false
  | .inf s, .inf t => s && !t
  | .inf s, .fin _ _ => s
  | .fin _ _, .inf t => !t
  | .fin s a, .fin t b =>
    let x : Int := (if s then -(a.frac.1 : Int) else a.frac.1) * b.frac.2
    let y : Int := (if t then -(b.frac.1 : Int) else b.frac.1) * a.frac.2
    decide (x < y)

def eqVal (a b : Val) : Bool :=
  match a, b with
  | .nan, _ => false
  | _, .nan => false
  | _, _ => !ltVal a b && !ltVal b a

/-- Whether a value is negative, −0 included. -/
def Val.neg : Val → Bool
  | .nan => false
  | .inf s => s
  | .fin s _ => s

def Val.isZero : Val → Bool
  | .fin _ m => m.isZero
  | _ => false

/-- fmin (R116): NaN if either is NaN; −0 below +0. -/
def minVal (a b : Val) : Val :=
  if a.isNan || b.isNan then .nan
  else if ltVal a b then a
  else if ltVal b a then b
  else if a.neg then a else b

def maxVal (a b : Val) : Val :=
  if a.isNan || b.isNan then .nan
  else if ltVal a b then b
  else if ltVal b a then a
  else if a.neg then b else a

/-- rotl32 of R87. -/
def rotl32 (v : BitVec 32) (n : Nat) : BitVec 32 := v.rotateLeft n

/-- One round of R87 on (a, b, c, d). -/
def drawRound (k : Nat) (x : BitVec 32 × BitVec 32 × BitVec 32 × BitVec 32) :
    BitVec 32 × BitVec 32 × BitVec 32 × BitVec 32 :=
  let (a, b, c, d) := x
  let a := a + b + BitVec.ofNat 32 ((k + 1) * 0x9E3779B9)
  let d := rotl32 (d ^^^ a) 11
  let c := c + d
  let b := rotl32 (b ^^^ c) 19
  (a, b, c, d)

/-- The draw u of R87 for one element: the context's seed, the group-relative thread number, the counter, the
element index. -/
def draw (seed : Word) (thread : BitVec 16) (ctr : BitVec 32) (elem : Nat) : BitVec 32 :=
  let x := drawRound 3 (drawRound 2 (drawRound 1 (drawRound 0
    (seed.extractLsb' 0 32 ^^^ BitVec.ofNat 32 elem, seed.extractLsb' 32 32, thread.setWidth 32, ctr))))
  x.1 ^^^ x.2.2.1

end Sys2Proof.Machine
end

