-- ==== Sys2Proof/Syntax.lean ====
section
/-! DEFINITION. The instructions and device steps of spec/opcode_table.json, one constructor of Instr per row.
The first 227 constructors are the rows that have an instruction word; their arguments are the word's fields as
02 R30 names them (d, a, b register codes; lk lookahead count; rm rounding code; cc condition; sc scope; sr system
register; eng engine; imm, disp immediates; mode, rx, off of the M format; len of rep). The other 108 are the
steps the device takes of its own accord or at the outside world's hand: their arguments are what the step is
about (a core, a slot, a packet in flight). -/

namespace Sys2Proof

/-- What a memory access does at its home (R145, R146, R153, R154, R156, R157). -/
inductive MemOp where
  | load (signed : Bool)
  | store
  | amoAdd | amoMin | amoMax | amoXchg | amoCas | amoMinu | amoMaxu
  | rupAdd | rupMin | rupMax | rupOr | rupAnd | rupXor
  | lrw
  | sc
  | take (token : Bool)
  deriving DecidableEq, Repr

/-- An access on its way to its home core (R143): who issued it, where it goes, what it does there. -/
structure Request where
  /-- the issuing thread: core × 8 + slot -/
  key : Nat
  /-- the outstanding-access number (State.nonce at issue) -/
  aid : Nat
  /-- the window that waits for the value, if any -/
  wid : Option Nat
  op : MemOp
  /-- the memory cell's key (Machine/Memory.lean) -/
  cell : Nat
  /-- bytes of the access -/
  size : Nat
  /-- the home core -/
  home : Nat
  /-- true: the access goes through the core's port or the mesh; false: the here path (R142) -/
  port : Bool
  ea : BitVec 64
  mode : BitVec 2
  data : BitVec 64
  /-- the compare value of cas -/
  cmp : BitVec 64
  asid : BitVec 16
  group : BitVec 16
  tnum : BitVec 16
  /-- the entry of the issuing core's posted-store journal (R158) -/
  jent : Option Nat
  deriving DecidableEq, Repr

/-- What a home answers (R147, R159). -/
inductive Reply where
  | value (v : BitVec 64)
  | ack
  | refused (cause : BitVec 4)
  deriving DecidableEq, Repr

/-- An answer on its way back to the issuing core (R147). -/
structure Response where
  key : Nat
  aid : Nat
  wid : Option Nat
  jent : Option Nat
  reply : Reply
  home : Nat
  deriving DecidableEq, Repr

/-- A message entry in flight (R326): 64 bytes, with the ASID it was sent under and the sending core. -/
structure Msg where
  src : Nat
  asid : BitVec 16
  w0 : BitVec 64
  w1 : BitVec 64
  payload : List (BitVec 64)
  /-- the order of its arrival in an inbox -/
  seq : Nat
  deriving DecidableEq, Repr

/-- Why a thread migrates (R299): an access under R144, `migrate` with its result register, levelling. -/
inductive MigCause where
  | access
  | instr (d : BitVec 5)
  | level
  deriving DecidableEq, Repr

/-- The migration packet (R300), with its source slot and destination core. -/
structure MigPacket where
  src : Nat
  dst : Nat
  cause : MigCause
  pc : BitVec 64
  asid : BitVec 16
  tnum : BitVec 16
  group : BitVec 16
  gen : BitVec 8
  seq : BitVec 32
  ie : BitVec 3
  ip : BitVec 3
  uvec : BitVec 64
  p : List (BitVec 64)
  q : BitVec 64
  deriving DecidableEq, Repr

/-- A ctxsave or ctxload request to a core (R293, R294): issuer, result register, save area, mode. -/
structure CtxReq where
  key : Nat
  d : BitVec 5
  core : Nat
  area : BitVec 64
  mode : BitVec 2
  deriving DecidableEq, Repr

/-- A give request (R424): issuer, result register, page, leaf address, cluster, value. -/
structure GiveReq where
  key : Nat
  d : BitVec 5
  asid : BitVec 16
  base : BitVec 64
  /-- page size code (R400) -/
  size : Nat
  /-- the flag word's memory cell -/
  flag : Nat
  /-- the leaf's memory cell -/
  leaf : Nat
  home : Nat
  token : Bool
  value : BitVec 48
  deriving DecidableEq, Repr

/-- A Meadow instruction on its way to the die's controller (R266). -/
inductive MeadowOp where
  | cfg | coef | scale | run | hold | reset
  | stat (d : BitVec 5)
  | settle (wid : Nat)
  | sample (wid : Nat)
  deriving DecidableEq, Repr

/-- One plot instruction in flight: issuer and its ASID, plot, operands, the MPLOT writes that the plot and its joined
partner had had at issue, and whether no thread waits for it: a repetition sequence reissued it (R221), or its thread has
ended (R279). -/
structure MeadowReq where
  key : Nat
  asid : BitVec 16
  die : Nat
  plot : Nat
  op : MeadowOp
  a : BitVec 64
  b : BitVec 64
  writes : Nat × Nat
  alone : Bool
  deriving DecidableEq, Repr

/-- A reduction partial in flight (R448). -/
structure Partial where
  /-- the sending core -/
  src : Nat
  core : Nat
  asid : BitVec 16
  ctx : Nat
  child : Nat
  epoch : BitVec 16
  v : List (BitVec 64)
  deriving DecidableEq, Repr

/-- The instructions and steps of the device. -/
inductive Instr where
  /-- R106: Writes d := (a + b) mod 2^64. -/
  | add (d a b : Reg)
  /-- R106: Writes d := (a - b) mod 2^64. -/
  | sub (d a b : Reg)
  /-- R106: Writes the bitwise AND of a and b to d. -/
  | and (d a b : Reg)
  /-- R106: Writes the bitwise OR of a and b to d. -/
  | or (d a b : Reg)
  /-- R106: Writes the bitwise XOR of a and b to d. -/
  | xor (d a b : Reg)
  /-- R106: Shifts a left by b[5:0] into d. -/
  | sll (d a b : Reg)
  /-- R106: Shifts a right logically by b[5:0] into d. -/
  | srl (d a b : Reg)
  /-- R106: Shifts a right arithmetically by b[5:0] into d. -/
  | sra (d a b : Reg)
  /-- R106: Writes the signed smaller of a and b to d. -/
  | min (d a b : Reg)
  /-- R106: Writes the signed larger of a and b to d. -/
  | max (d a b : Reg)
  /-- R106: Writes the unsigned smaller of a and b to d. -/
  | minu (d a b : Reg)
  /-- R106: Writes the unsigned larger of a and b to d. -/
  | maxu (d a b : Reg)
  /-- R106: Merges a and b bit by bit under the predicate word q. -/
  | sel (d a b : Reg)
  /-- R107: Long-latency low 64 bits of a times b. -/
  | mul (d a b : Reg) (lk : BitVec 4)
  /-- R107: Long-latency high 64 bits of the signed product. -/
  | mulh (d a b : Reg) (lk : BitVec 4)
  /-- R107: Long-latency high 64 bits of the unsigned product. -/
  | mulhu (d a b : Reg) (lk : BitVec 4)
  /-- R108: Long-latency signed division truncated towards zero, never trapping. -/
  | div (d a b : Reg) (lk : BitVec 4)
  /-- R108: Long-latency unsigned division, never trapping. -/
  | divu (d a b : Reg) (lk : BitVec 4)
  /-- R108: Long-latency signed remainder with the sign of a. -/
  | rem (d a b : Reg) (lk : BitVec 4)
  /-- R108: Long-latency unsigned remainder. -/
  | remu (d a b : Reg) (lk : BitVec 4)
  /-- R109: Counts the zero bits above the highest 1 of a. -/
  | clz (d a : Reg)
  /-- R109: Counts the zero bits below the lowest 1 of a. -/
  | ctz (d a : Reg)
  /-- R109: Counts the 1 bits of a. -/
  | pop (d a : Reg)
  /-- R110: Packs the bits of a selected by b into the low end of d. -/
  | bext (d a b : Reg)
  /-- R110: Spreads the low bits of a over the 1 positions of b. -/
  | bdep (d a b : Reg)
  /-- R113: Adds a signed byte offset to a fat pointer's address, keeping the tag. -/
  | padd (d a b : Reg)
  /-- R114: Adds an element index scaled by the pointer's format code. -/
  | pidx (d a b : Reg)
  /-- R115: Returns the 12-bit tag of a fat pointer. -/
  | ptag (d a : Reg)
  /-- R115: Replaces a pointer's tag with a checked tag from b. -/
  | ptagset (d a b : Reg)
  /-- R111: Adds a sign-extended immediate to a. -/
  | addi (d a : Reg) (imm : BitVec 15)
  /-- R111: ANDs a with a sign-extended immediate. -/
  | andi (d a : Reg) (imm : BitVec 15)
  /-- R111: ORs a with a sign-extended immediate. -/
  | ori (d a : Reg) (imm : BitVec 15)
  /-- R111: XORs a with a sign-extended immediate. -/
  | xori (d a : Reg) (imm : BitVec 15)
  /-- R111: Shifts a left by an immediate amount. -/
  | slli (d a : Reg) (imm : BitVec 6)
  /-- R111: Shifts a right logically by an immediate amount. -/
  | srli (d a : Reg) (imm : BitVec 6)
  /-- R111: Shifts a right arithmetically by an immediate amount. -/
  | srai (d a : Reg) (imm : BitVec 6)
  /-- R111: Adds a sign-extended immediate to a fat pointer as padd does. -/
  | paddi (d a : Reg) (imm : BitVec 15)
  /-- R112: Writes sext(imm20) times 2^15 to d. -/
  | lui (d : Reg) (imm : BitVec 20)
  /-- R116: FP32 addition rounded once in the given mode. -/
  | faddS (d a b : Reg) (rm : BitVec 3) (lk : BitVec 4)
  /-- R116: FP32 subtraction rounded once. -/
  | fsubS (d a b : Reg) (rm : BitVec 3) (lk : BitVec 4)
  /-- R116: FP32 multiplication rounded once. -/
  | fmulS (d a b : Reg) (rm : BitVec 3) (lk : BitVec 4)
  /-- R116: FP32 division rounded once. -/
  | fdivS (d a b : Reg) (rm : BitVec 3) (lk : BitVec 4)
  /-- R116: FP32 square root rounded once. -/
  | fsqrtS (d a : Reg) (rm : BitVec 3) (lk : BitVec 4)
  /-- R116: FP32 minimum, -0 below +0, NaN canonical. -/
  | fminS (d a b : Reg) (lk : BitVec 4)
  /-- R116: FP32 maximum, -0 below +0, NaN canonical. -/
  | fmaxS (d a b : Reg) (lk : BitVec 4)
  /-- R116: FP64 addition rounded once. -/
  | faddD (d a b : Reg) (rm : BitVec 3) (lk : BitVec 4)
  /-- R116: FP64 subtraction rounded once. -/
  | fsubD (d a b : Reg) (rm : BitVec 3) (lk : BitVec 4)
  /-- R116: FP64 multiplication rounded once. -/
  | fmulD (d a b : Reg) (rm : BitVec 3) (lk : BitVec 4)
  /-- R116: FP64 division rounded once. -/
  | fdivD (d a b : Reg) (rm : BitVec 3) (lk : BitVec 4)
  /-- R116: FP64 square root rounded once. -/
  | fsqrtD (d a : Reg) (rm : BitVec 3) (lk : BitVec 4)
  /-- R116: FP64 minimum. -/
  | fminD (d a b : Reg) (lk : BitVec 4)
  /-- R116: FP64 maximum. -/
  | fmaxD (d a b : Reg) (lk : BitVec 4)
  /-- R117: FP32 a*b + c with d as addend, rounded once. -/
  | fmaS (d a b : Reg) (rm : BitVec 3) (lk : BitVec 4)
  /-- R117: FP32 a*b - c rounded once. -/
  | fmsS (d a b : Reg) (rm : BitVec 3) (lk : BitVec 4)
  /-- R117: FP32 -(a*b) - c rounded once. -/
  | fnmaS (d a b : Reg) (rm : BitVec 3) (lk : BitVec 4)
  /-- R117: FP32 -(a*b) + c rounded once. -/
  | fnmsS (d a b : Reg) (rm : BitVec 3) (lk : BitVec 4)
  /-- R117: FP64 a*b + c rounded once. -/
  | fmaD (d a b : Reg) (rm : BitVec 3) (lk : BitVec 4)
  /-- R117: FP64 a*b - c rounded once. -/
  | fmsD (d a b : Reg) (rm : BitVec 3) (lk : BitVec 4)
  /-- R117: FP64 -(a*b) - c rounded once. -/
  | fnmaD (d a b : Reg) (rm : BitVec 3) (lk : BitVec 4)
  /-- R117: FP64 -(a*b) + c rounded once. -/
  | fnmsD (d a b : Reg) (rm : BitVec 3) (lk : BitVec 4)
  /-- R118: Compares two FP32 values under a condition, writing all ones or 0. -/
  | fcmpS (d a b : Reg) (cc : BitVec 3) (lk : BitVec 4)
  /-- R118: Compares two FP64 values under a condition. -/
  | fcmpD (d a b : Reg) (cc : BitVec 3) (lk : BitVec 4)
  /-- R119: Converts FP64 to FP32. -/
  | fcvtSD (d a : Reg) (rm : BitVec 3) (lk : BitVec 4)
  /-- R119: Converts FP32 to FP64 exactly. -/
  | fcvtDS (d a : Reg) (rm : BitVec 3) (lk : BitVec 4)
  /-- R119: Converts a signed integer to FP32. -/
  | fcvtSL (d a : Reg) (rm : BitVec 3) (lk : BitVec 4)
  /-- R119: Converts a signed integer to FP64. -/
  | fcvtDL (d a : Reg) (rm : BitVec 3) (lk : BitVec 4)
  /-- R119: Converts FP32 to a saturated signed integer. -/
  | fcvtLS (d a : Reg) (rm : BitVec 3) (lk : BitVec 4)
  /-- R119: Converts FP64 to a saturated signed integer. -/
  | fcvtLD (d a : Reg) (rm : BitVec 3) (lk : BitVec 4)
  /-- R119: Converts an unsigned integer to FP64. -/
  | fcvtDLu (d a : Reg) (rm : BitVec 3) (lk : BitVec 4)
  /-- R119: Converts FP64 to a saturated unsigned integer. -/
  | fcvtLuD (d a : Reg) (rm : BitVec 3) (lk : BitVec 4)
  /-- R121: Branches when a equals b. -/
  | beq (a b : Reg) (disp : BitVec 15)
  /-- R121: Branches when a differs from b. -/
  | bne (a b : Reg) (disp : BitVec 15)
  /-- R121: Branches when a is signed less than b. -/
  | blt (a b : Reg) (disp : BitVec 15)
  /-- R121: Branches when a is signed at least b. -/
  | bge (a b : Reg) (disp : BitVec 15)
  /-- R121: Branches when a is unsigned less than b. -/
  | bltu (a b : Reg) (disp : BitVec 15)
  /-- R121: Branches when a is unsigned at least b. -/
  | bgeu (a b : Reg) (disp : BitVec 15)
  /-- R122: Branches when bit b[5:0] of a is 1. -/
  | bbs (a b : Reg) (disp : BitVec 15)
  /-- R122: Branches when bit b[5:0] of a is 0. -/
  | bbc (a b : Reg) (disp : BitVec 15)
  /-- R123: Writes the return address to p9 and jumps to a PC-relative target. -/
  | jal (disp : BitVec 25)
  /-- R124: Jumps through a register plus immediate, writing the return address to d. -/
  | jalr (d a : Reg) (imm : BitVec 15)
  /-- R127: Sleeps until a selected event of the latch or the time is hit, then returns and clears the hit bits. -/
  | wait (d a : Reg) (imm : BitVec 5)
  /-- R145: Loads a sign-extended byte. -/
  | ldB (d a : Reg) (mode : BitVec 2) (rx : BitVec 1) (off : BitVec 8) (lk : BitVec 4)
  /-- R145: Loads a sign-extended half. -/
  | ldH (d a : Reg) (mode : BitVec 2) (rx : BitVec 1) (off : BitVec 8) (lk : BitVec 4)
  /-- R145: Loads a sign-extended word. -/
  | ldW (d a : Reg) (mode : BitVec 2) (rx : BitVec 1) (off : BitVec 8) (lk : BitVec 4)
  /-- R145: Loads a doubleword. -/
  | ldD (d a : Reg) (mode : BitVec 2) (rx : BitVec 1) (off : BitVec 8) (lk : BitVec 4)
  /-- R145: Loads a zero-extended byte. -/
  | ldBu (d a : Reg) (mode : BitVec 2) (rx : BitVec 1) (off : BitVec 8) (lk : BitVec 4)
  /-- R145: Loads a zero-extended half. -/
  | ldHu (d a : Reg) (mode : BitVec 2) (rx : BitVec 1) (off : BitVec 8) (lk : BitVec 4)
  /-- R145: Loads a zero-extended word. -/
  | ldWu (d a : Reg) (mode : BitVec 2) (rx : BitVec 1) (off : BitVec 8) (lk : BitVec 4)
  /-- R146: Stores the low byte of d. -/
  | stB (d a : Reg) (mode : BitVec 2) (rx : BitVec 1) (off : BitVec 8)
  /-- R146: Stores the low half of d. -/
  | stH (d a : Reg) (mode : BitVec 2) (rx : BitVec 1) (off : BitVec 8)
  /-- R146: Stores the low word of d. -/
  | stW (d a : Reg) (mode : BitVec 2) (rx : BitVec 1) (off : BitVec 8)
  /-- R146: Stores the doubleword d. -/
  | stD (d a : Reg) (mode : BitVec 2) (rx : BitVec 1) (off : BitVec 8)
  /-- R150: Acquire load of a doubleword that holds back later memory accesses. -/
  | ldAcq (d a : Reg) (mode : BitVec 2) (off : BitVec 8) (lk : BitVec 4)
  /-- R150: Release store that waits for every earlier access to be performed. -/
  | stRel (d a : Reg) (mode : BitVec 2) (off : BitVec 8)
  /-- R151: Waits until every earlier access of the thread is performed, promising order within the scope. -/
  | fenceScope (sc : BitVec 3)
  /-- R142: Waits until every earlier access to the core's own buffers is performed on either path. -/
  | fenceLoop
  /-- R156: Indivisible doubleword add at the home, returning the old value. -/
  | amoAddD (d a b : Reg) (sc : BitVec 3) (lk : BitVec 4)
  /-- R156: Indivisible signed doubleword minimum at the home. -/
  | amoMinD (d a b : Reg) (sc : BitVec 3) (lk : BitVec 4)
  /-- R156: Indivisible signed doubleword maximum at the home. -/
  | amoMaxD (d a b : Reg) (sc : BitVec 3) (lk : BitVec 4)
  /-- R156: Indivisible doubleword exchange at the home. -/
  | amoXchgD (d a b : Reg) (sc : BitVec 3) (lk : BitVec 4)
  /-- R156: Indivisible doubleword compare-and-swap against d. -/
  | amoCasD (d a b : Reg) (sc : BitVec 3) (lk : BitVec 4)
  /-- R156: Indivisible unsigned doubleword minimum. -/
  | amoMinuD (d a b : Reg) (sc : BitVec 3) (lk : BitVec 4)
  /-- R156: Indivisible unsigned doubleword maximum. -/
  | amoMaxuD (d a b : Reg) (sc : BitVec 3) (lk : BitVec 4)
  /-- R156: Indivisible word add at the home. -/
  | amoAddW (d a b : Reg) (sc : BitVec 3) (lk : BitVec 4)
  /-- R156: Indivisible signed word minimum. -/
  | amoMinW (d a b : Reg) (sc : BitVec 3) (lk : BitVec 4)
  /-- R156: Indivisible signed word maximum. -/
  | amoMaxW (d a b : Reg) (sc : BitVec 3) (lk : BitVec 4)
  /-- R156: Indivisible word exchange. -/
  | amoXchgW (d a b : Reg) (sc : BitVec 3) (lk : BitVec 4)
  /-- R156: Indivisible word compare-and-swap. -/
  | amoCasW (d a b : Reg) (sc : BitVec 3) (lk : BitVec 4)
  /-- R156: Indivisible unsigned word minimum. -/
  | amoMinuW (d a b : Reg) (sc : BitVec 3) (lk : BitVec 4)
  /-- R156: Indivisible unsigned word maximum. -/
  | amoMaxuW (d a b : Reg) (sc : BitVec 3) (lk : BitVec 4)
  /-- R153: Joins the reservation queue of a doubleword and sleeps until granted or woken. -/
  | lrw (d a : Reg) (mode : BitVec 2) (off : BitVec 8) (lk : BitVec 4)
  /-- R154: Writes a reserved word and passes the reservation to the next waiter, returning a status. -/
  | sc (d a b : Reg) (lk : BitVec 4)
  /-- R157: Relaxed remote wrapping add update at the home. -/
  | rupAdd (a b : Reg) (sc : BitVec 3)
  /-- R157: Relaxed remote signed minimum update. -/
  | rupMin (a b : Reg) (sc : BitVec 3)
  /-- R157: Relaxed remote signed maximum update. -/
  | rupMax (a b : Reg) (sc : BitVec 3)
  /-- R157: Relaxed remote OR update. -/
  | rupOr (a b : Reg) (sc : BitVec 3)
  /-- R157: Relaxed remote AND update. -/
  | rupAnd (a b : Reg) (sc : BitVec 3)
  /-- R157: Relaxed remote XOR update. -/
  | rupXor (a b : Reg) (sc : BitVec 3)
  /-- R355: Sets a barrier object's expected count and resets it, waking waiters with RESET. -/
  | barinit (d a b : Reg) (sc : BitVec 3)
  /-- R356: After earlier accesses are performed, counts one arrival and adds bytes, with the release test. -/
  | barjoin (d a b : Reg) (sc : BitVec 3)
  /-- R358: Waits for the end of a barrier phase or a mark and returns a status. -/
  | barwait (d a b : Reg) (sc : BitVec 3) (lk : BitVec 4)
  /-- R357: Adds pending bytes to a barrier object without arriving. -/
  | barbytes (d a b : Reg) (sc : BitVec 3)
  /-- R372: Appends a 64-byte entry to a work list if admitted. -/
  | qput (d a b : Reg)
  /-- R373: Removes the head entry of a work list without waiting. -/
  | qget (d a b : Reg) (lk : BitVec 4)
  /-- R371: Privileged request to write a queue configuration word at a named core. -/
  | qcfg (d a b : Reg)
  /-- R374: Reports a queue or the pool, optionally clearing BEREAVED. -/
  | qstat (d a : Reg)
  /-- R393: Registers a lock or handle holding for the issuer's group. -/
  | hold (d a b : Reg) (lk : BitVec 4)
  /-- R394: Removes a holding named by an entry handle. -/
  | unhold (d a : Reg) (lk : BitVec 4)
  /-- R395: Names the heir of a holding or the group's default heir. -/
  | heir (d a b : Reg) (lk : BitVec 4)
  /-- R396: Creates a promise entry and writes the word OPEN. -/
  | promise (d a : Reg) (lk : BitVec 4)
  /-- R397: After earlier accesses, writes a held promise FULFILLED and frees its entry. -/
  | fulfil (d a b : Reg)
  /-- R398: Waits at the home until a promise word leaves OPEN or is unregistered. -/
  | await (d a : Reg) (lk : BitVec 4)
  /-- R399: Reads an estate entry, sets the arrival area, or reads group estate state. -/
  | estq (d a b : Reg) (lk : BitVec 4)
  /-- R208: Queues an element-wise vector add. -/
  | vadd (a b : Reg)
  /-- R208: Queues an element-wise vector subtract. -/
  | vsub (a b : Reg)
  /-- R208: Queues an element-wise vector multiply. -/
  | vmul (a b : Reg)
  /-- R208: Queues an element-wise vector divide. -/
  | vdiv (a b : Reg)
  /-- R208: Queues an element-wise vector minimum. -/
  | vmin (a b : Reg)
  /-- R208: Queues an element-wise vector maximum. -/
  | vmax (a b : Reg)
  /-- R208: Queues an element-wise fused multiply-add into the destination. -/
  | vfma (a b : Reg)
  /-- R208: Queues an element-wise absolute value. -/
  | vabs (a b : Reg)
  /-- R208: Queues an element-wise negation. -/
  | vneg (a b : Reg)
  /-- R208: Queues an element-wise square root. -/
  | vsqrt (a b : Reg)
  /-- R208: Queues an element-wise format conversion. -/
  | vcvt (a b : Reg)
  /-- R210: Queues an element-wise integer AND. -/
  | vand (a b : Reg)
  /-- R210: Queues an element-wise integer OR. -/
  | vor (a b : Reg)
  /-- R210: Queues an element-wise integer XOR. -/
  | vxor (a b : Reg)
  /-- R210: Queues an element-wise integer shift left. -/
  | vshl (a b : Reg)
  /-- R210: Queues an element-wise arithmetic shift right. -/
  | vshr (a b : Reg)
  /-- R211: Queues a masked sum along dimension 0. -/
  | vsum (a b : Reg)
  /-- R211: Queues a masked maximum along dimension 0. -/
  | vrmax (a b : Reg)
  /-- R211: Queues a masked minimum along dimension 0. -/
  | vrmin (a b : Reg)
  /-- R211: Queues a masked sum of squares along dimension 0. -/
  | vsumsq (a b : Reg)
  /-- R95: Queues an element-wise exponential. -/
  | vexp (a b : Reg)
  /-- R96: Queues an element-wise natural logarithm. -/
  | vlog (a b : Reg)
  /-- R97: Queues an element-wise reciprocal. -/
  | vrcp (a b : Reg)
  /-- R97: Queues an element-wise reciprocal square root. -/
  | vrsqrt (a b : Reg)
  /-- R98: Queues an element-wise hyperbolic tangent. -/
  | vtanh (a b : Reg)
  /-- R98: Queues an element-wise SiLU. -/
  | vsilu (a b : Reg)
  /-- R98: Queues an element-wise tanh-form GELU. -/
  | vgelu (a b : Reg)
  /-- R217: Holds the thread until its vector busy count reaches 0. -/
  | vfence
  /-- R231: Queues a box copy from source to destination with fill and swizzle. -/
  | cpbox (a b : Reg)
  /-- R232: Queues a multicast box copy into the buffers of selected cores. -/
  | cpmc (a b : Reg)
  /-- R238: Cancels the thread's named or all incomplete copy operations. -/
  | cpcan (a b : Reg)
  /-- R233: Queues an add reduction into an FP32 destination. -/
  | cpredAddF32 (a b : Reg)
  /-- R233: Queues an add reduction into a BF16 destination. -/
  | cpredAddBf16 (a b : Reg)
  /-- R233: Queues a max reduction into an FP32 destination. -/
  | cpredMaxF32 (a b : Reg)
  /-- R233: Queues a max reduction into a BF16 destination. -/
  | cpredMaxBf16 (a b : Reg)
  /-- R233: Queues a min reduction into an FP32 destination. -/
  | cpredMinF32 (a b : Reg)
  /-- R233: Queues a min reduction into a BF16 destination. -/
  | cpredMinBf16 (a b : Reg)
  /-- R246: Queues a gather of the core's quarter of the operand latch. -/
  | mgath (a b : Reg)
  /-- R247: Queues the gang arrival that joins the quad's four slices. -/
  | mgang
  /-- R250: Queues the zeroing of an accumulator tile. -/
  | mzero (a : Reg)
  /-- R252: Queues the conversion of a tile into a narrower form, taking a counter value. -/
  | mdrain (a b : Reg)
  /-- R251: Queues the load of the drain-scale latch. -/
  | mband (a : Reg)
  /-- R249: Queues one block-scaled FP4 pass into a tile. -/
  | mmaF4 (a b : Reg)
  /-- R249: Queues one FP8 pass into a tile. -/
  | mmaF8 (a b : Reg)
  /-- R249: Queues one BF16 pass into a tile. -/
  | mmaBf16 (a b : Reg)
  /-- R249: Queues one INT8 pass into an integer tile. -/
  | mmaI8 (a b : Reg)
  /-- R268: Sets multiplier routes of a plot. -/
  | acfg (a b : Reg)
  /-- R268: Writes multiplier codes or integrator initial values of a plot. -/
  | acoef (a b : Reg)
  /-- R269: Sets a plot's time constant and gain. -/
  | ascale (a b : Reg)
  /-- R270: Releases a plot's integrators into RUNNING. -/
  | arun (a : Reg)
  /-- R270: Freezes a running plot into HELD. -/
  | ahold (a : Reg)
  /-- R270: Discharges a plot to IDLE, optionally clearing its configuration. -/
  | areset (a : Reg)
  /-- R453: Queues a lane-turn request for a die-to-die port. -/
  | lturn (a b : Reg)
  /-- R455: Configures a reduction context from the link engine registers. -/
  | rsvr (a b : Reg)
  /-- R456: Sends a class-3 reduction partial to a context. -/
  | rpart (a b : Reg)
  /-- R221: Captures the next n engine words and has the sequencer reissue them count times. -/
  | rep (a b : Reg) (len : BitVec 4)
  /-- R216: Returns the vector busy count or VSTATUS, clearing it when idle. -/
  | vbusy (d a : Reg)
  /-- R213: Compares two records element-wise into a 64-bit mask. -/
  | vcmpm (d a b : Reg) (lk : BitVec 4)
  /-- R237: Reads a copy completion object at issue. -/
  | cpstat (d a : Reg)
  /-- R237: Waits until a completion object leaves PENDING. -/
  | cpwait (d a : Reg) (lk : BitVec 4)
  /-- R255: Waits for the matrix busy count to reach 0 and returns MSTATUS. -/
  | mwait (d a : Reg) (lk : BitVec 4)
  /-- R276: Returns a selected report of a plot. -/
  | astat (d a : Reg)
  /-- R271: Waits until a plot settles, times out, saturates or is stopped. -/
  | asettle (d a b : Reg) (lk : BitVec 4)
  /-- R273: Samples an integrator and writes the value and certified bound to a pair. -/
  | asample (d a b : Reg) (lk : BitVec 4)
  /-- R454: Reports a port's direction, requests and state. -/
  | lstat (d a : Reg)
  /-- R457: Reads the status of a reduction context. -/
  | grpq (d a : Reg) (lk : BitVec 4)
  /-- R193: Reads a system register into d. -/
  | sysr (d : Reg) (sr : BitVec 12)
  /-- R193: Writes a to a system register that has no row of its own. -/
  | sysw (a : Reg) (sr : BitVec 12)
  /-- R194: Reads a slot-state register of the slot TSEL selects. -/
  | tsr (d : Reg) (sr : BitVec 12)
  /-- R195: Writes the issuing slot's bank of an engine register. -/
  | ewr (a : Reg) (eng : BitVec 3) (sr : BitVec 9)
  /-- R196: Raises SYSCALL with an unsigned code. -/
  | trap (imm : BitVec 15)
  /-- R197: Returns from a privileged handler entry. -/
  | eret
  /-- R198: Returns from a user-level interrupt handler. -/
  | uret
  /-- R293: Privileged save, evacuation or teardown of a residence at a named core. -/
  | ctxsave (d a b : Reg)
  /-- R293: Privileged load of a save area onto a named core. -/
  | ctxload (d a b : Reg)
  /-- R284: Privileged write of a slot table into a named core's SLOTPEND. -/
  | slotw (d a b : Reg)
  /-- R304: Sleeps on selected events while keeping the slot and counting as idle. -/
  | yield (d a : Reg)
  /-- R302: Asks to migrate the thread to a named or the idlest core. -/
  | migrate (d a : Reg)
  /-- R303: Returns and sets the thread's PINNED flag. -/
  | pin (d a : Reg)
  /-- R316: After earlier accesses, enters a launch record into a die's launch pool. -/
  | launch (d a b : Reg) (lk : BitVec 4)
  /-- R316: As launch, with the start time read from d. -/
  | tlaunch (d a b : Reg) (lk : BitVec 4)
  /-- R318: Waits for a kernel to reach DONE or FAULTED and frees its record. -/
  | kwait (d a : Reg) (lk : BitVec 4)
  /-- R317: Reads a kernel record's status word. -/
  | kstat (d a : Reg)
  /-- R337: Creates a new group of threads over cores of a scope unit. -/
  | spawn (d a b : Reg) (lk : BitVec 4)
  /-- R338: Ends the issuing thread. -/
  | exit
  /-- R339: Ends a group or one named thread. -/
  | kill (d a b : Reg)
  /-- R327: Sends a message entry of a class to a named thread or system core. -/
  | send (a b : Reg)
  /-- R334: Waits for an inbox entry or dead letter and writes it to a buffer. -/
  | recv (d a b : Reg) (lk : BitVec 4)
  /-- R340: Reports the thread's names or group state, optionally setting MSGIRQ. -/
  | gstat (d a : Reg)
  /-- R418: Takes the oldest queued fault of a die. -/
  | pfq (d a b : Reg) (lk : BitVec 4)
  /-- R419: After earlier accesses, releases the parked faults of a range. -/
  | presume (d a b : Reg)
  /-- R420: Drops matching translations from every TLB of the package. -/
  | pinv (d a b : Reg)
  /-- R430: After earlier accesses, requests the hand-over of a page to the other cluster. -/
  | pgive (d a b : Reg)
  /-- R431: Acquire-loads a handover page's flag word if owned by the caller's cluster. -/
  | ptake (d a : Reg) (lk : BitVec 4)
  /-- R147: A value, status or acknowledgement of an outstanding access arrives at the issuing core. -/
  | resultArrival (r : Response)
  /-- R143: A remote access reaches its home, which performs or refuses it. -/
  | remoteRequestArrival (r : Request)
  /-- R152: A request held at a full reservation table is admitted when an entry frees. -/
  | reservationAdmit (core : Nat)
  /-- R160: A recorded refusal raises the asynchronous posted-store trap at the thread's next issue. -/
  | postedStoreTrap (key : Nat)
  /-- R161: A W1C write to JREF frees journal entries and clears their JBUSY bits. -/
  | jrefClear (core : Nat) (mask : BitVec 64)
  /-- R183: Slot 7 or a system-core thread enters its handler for a trap or a NOTIFY. -/
  | handlerEntry (key : Nat)
  /-- R191: A pending enabled user-level interrupt is delivered to the thread. -/
  | userInterruptDelivery (key : Nat)
  /-- R189: A read of HEVQ returns and removes the oldest handler event. -/
  | hevqRead (key : Nat) (d : BitVec 5)
  /-- R188: A write to SSTATE resumes a trapped slot or ends its thread. -/
  | sstateWrite (key : Nat) (v : BitVec 64)
  /-- R492: A write to DIERET retires a compute die package-wide. -/
  | dieretWrite (key : Nat) (v : BitVec 64)
  /-- R138: A write to DIEMAP0 or DIEMAP1 updates every die's copy of the die map. -/
  | diemapWrite (high : Bool) (v : BitVec 64)
  /-- R402: A write to ASIDTAB updates every copy of the ASID table pointer. -/
  | asidtabWrite (v : BitVec 64)
  /-- R220: A write to ESHARE0 or ESHARE1 sets energy shares for the next refill. -/
  | eshareWrite (core : Nat) (high : Bool) (v : BitVec 64)
  /-- R259: A write to MPLOTp assigns a plot and resets it with CLR, waking waiters STOPPED. -/
  | mplotWrite (die : Nat) (p : Nat) (v : BitVec 64)
  /-- R348: A write to BOWN sets a barrier object's owner and resets it, waking waiters with RESET. -/
  | bownWrite (key : Nat) (v : BitVec 64)
  /-- R474: A write of PNODE with VALID = 1 assigns, splits, merges or reassigns a buddy node. -/
  | pnodeAssign (v : BitVec 64)
  /-- R474: A write of PNODE with VALID = 0 releases an idle assigned node. -/
  | pnodeRelease (v : BitVec 64)
  /-- R478: Setting VFCFG.PAUSED freezes the VF's guest timestamp. -/
  | vfPause (vf : Nat)
  /-- R478: Clearing VFCFG.PAUSED sets the guest offset and adds the paused time. -/
  | vfResume (vf : Nat)
  /-- R489: A read of HDB returns the doorbell bits and clears them. -/
  | hdbRead (key : Nat) (d : BitVec 5) (f : Nat)
  /-- R489: A host write to a function's BAR0 doorbell ORs the value into its HDB. -/
  | hostDoorbellWrite (f : Nat) (v : BitVec 64)
  /-- R460: Clearing a CHKSTAT.PARKED bit makes the parked slot EMPTY. -/
  | parkedClear (core : Nat) (mask : BitVec 64)
  /-- R282: At each 16-ck frame boundary SLOTTAB := SLOTPEND and pending installs take effect. -/
  | frameBoundary (core : Nat)
  /-- R219: Every 256 ck each slot's remaining energy share is reset to its configured share. -/
  | energyRefill (core : Nat)
  /-- R341: Every 4,096 ck a core samples cluster loads and updates CLUSLD. -/
  | balancingInterval (core : Nat)
  /-- R299: Once the thread's work has drained, the migration packet is sent or the migration abandoned. -/
  | migrationSend (key : Nat) (dst : Nat) (cause : MigCause)
  /-- R301: A destination accepts or refuses a migration packet. -/
  | migrationPacketArrival (p : MigPacket)
  /-- R301: A refused packet returns the thread to its source slot. -/
  | migrationRefusalReturn (p : MigPacket) (status : Nat)
  /-- R203: A queued vector operation reads and checks its shape records. -/
  | vectorOpStart (core : Nat)
  /-- R205: The vector unit starts one beat, charging the issuing slot's share. -/
  | vectorBeat (core : Nat)
  /-- R214: A vector operation completes, lowering the busy count and setting latch and interrupt bits. -/
  | vectorOpComplete (core : Nat) (id : Nat)
  /-- R207: A channel entry moves from a CHOUT queue into the peer's CHIN queue once admitted. -/
  | channelEntryMove (core : Nat) (ch : Nat)
  /-- R221: The sequencer reissues one captured word as the thread's command. -/
  | repReissue (key : Nat)
  /-- R234: A queued copy operation is checked before its first access. -/
  | copyOpStart (core : Nat)
  /-- R235: A copy operation completes: bytes retired, completion object written, latch and interrupt set. -/
  | copyOpComplete (core : Nat) (id : Nat)
  /-- R245: A matrix command reaches the head of the queue and is checked and started. -/
  | matrixCmdStart (core : Nat)
  /-- R247: The fourth arrival releases the gang and the four mmas start together. -/
  | gangRelease (die : Nat) (quad : Nat)
  /-- R253: A matrix command completes, lowering the busy count. -/
  | matrixCmdComplete (core : Nat)
  /-- R266: The die's Meadow controller applies one arriving plot instruction. -/
  | meadowApply (r : MeadowReq)
  /-- R271: A waiter's run reaches HOLD and the plot freezes SETTLED. -/
  | settleFreeze (die : Nat) (plot : Nat) (key : Nat) (wid : Nat)
  /-- R271: A waiter's TMO passes without a hold and it returns TIMEOUT. -/
  | settleTimeout (die : Nat) (plot : Nat) (key : Nat) (wid : Nat)
  /-- R277: A state or summer reaches 1.25 full scale and the plot freezes SATURATED. -/
  | plotSaturation (die : Nat) (plot : Nat) (sum : Bool) (ix : Nat)
  /-- R278: The Barn begins a 20 µs calibration block on all plots of a die. -/
  | calibrationStart (die : Nat)
  /-- R278: A calibration block ends and PCAL receives new figures. -/
  | calibrationEnd (die : Nat)
  /-- R278: No calibration has completed for 20 ms and STALE becomes 1. -/
  | calibrationStale (die : Nat)
  /-- R312: An awaited promise resolves and the kernel leaves AWAITING-PROMISE. -/
  | kernelPromiseRelease (die : Nat) (ix : Nat)
  /-- R313: At the edge TIME = START a timed kernel becomes PENDING. -/
  | kernelTimedStart (die : Nat) (ix : Nat)
  /-- R309: The pool places a pending kernel on a qualifying node and creates its group. -/
  | kernelPlacement (die : Nat) (ix : Nat)
  /-- R311: At the creation edge every thread of the placed kernel is created. -/
  | kernelThreadCreate (die : Nat) (ix : Nat)
  /-- R314: A draining kernel reaches DONE or FAULTED and releases its node. -/
  | kernelDrainEnd (die : Nat) (group : BitVec 16)
  /-- R323: A kill reaches the group's home core and the group enters DRAINING. -/
  | groupKillArrival (key : Nat) (d : BitVec 5) (asid : BitVec 16) (group : BitVec 16)
  /-- R323: A thread of a killed group ends at its first issue opportunity. -/
  | threadEnd (key : Nat)
  /-- R338: An ended thread's slot becomes EMPTY once its accesses and engine work drain. -/
  | slotVacate (key : Nat)
  /-- R328: The addressee's network interface tests and places an arriving entry. -/
  | messageArrival (m : Msg)
  /-- R332: A stale response returns a letter to the sending core, which places it as a dead letter. -/
  | staleResponse (m : Msg)
  /-- R365: An entry refused with back-pressure is resent no sooner than 64 ck later. -/
  | inboxResend (m : Msg)
  /-- R381: A drained dead group's estate conveyance begins. -/
  | conveyanceStart (group : BitVec 16)
  /-- R382: The estate unit conveys one holding to its resolved heir or orphans it. -/
  | conveyanceStep (group : BitVec 16)
  /-- R389: After the steps are performed, the arrival record is written and the heir's interrupt set. -/
  | arrivalRecordWrite (group : BitVec 16)
  /-- R295: A save or evacuate request reaches the named core and stops the residence. -/
  | ctxsaveRequest (r : CtxReq)
  /-- R295: After the residence drains, the image and header are written and the core freed. -/
  | saveImageWrite (r : CtxReq)
  /-- R296: A load request reaches the named core, checks the header and restores the residence. -/
  | ctxloadRequest (r : CtxReq)
  /-- R296: A class-0 request clears the saving core's DIVERT entry for an area. -/
  | divertClearRequest (core : Nat) (asid : BitVec 16) (area : BitVec 64)
  /-- R284: A slot-table write reaches its core and sets SLOTPEND or is refused. -/
  | slotwRequest (key : Nat) (d : BitVec 5) (core : Nat) (v : BitVec 64)
  /-- R371: A queue configuration request reaches its core and is applied or refused. -/
  | qcfgRequest (key : Nat) (d : BitVec 5) (core : Nat) (q : Nat) (v : BitVec 64)
  /-- R409: A page walk ends at a leaf or absent, installing a TLB entry or raising a fault. -/
  | walkEnd (key : Nat)
  /-- R419: A release reaches a PAGEWAIT slot and resumes it as RETRY or DEFER. -/
  | presumeRelease (name : BitVec 22) (defer : Bool)
  /-- R424: A give request reaches the page's home and begins preparation. -/
  | giveRequest (r : GiveReq)
  /-- R424: After the drop drains, the home writes the flag word and ends GIVING. -/
  | giveEvent (r : GiveReq)
  /-- R423: A give held at a full give table is admitted when an entry frees. -/
  | giveAdmit (core : Nat)
  /-- R431: A ptake reaches the home and reads the flag word after any give ends. -/
  | takeRequest (r : Request)
  /-- R438: At each 250 ns boundary a die-to-die port decides and starts a lane turn. -/
  | linkTurnBoundary (die : Nat) (port : Nat)
  /-- R437: Turning lane groups end their 6 ns silence and drive the new way. -/
  | turnSilenceEnd (die : Nat) (port : Nat)
  /-- R434: A flit arrives at a port's receiver and is checked by CRC. -/
  | flitArrival (die : Nat) (port : Nat) (cls : Nat) (bad : BitVec 8)
  /-- R434: A discarded flit is replayed from the sender's replay buffer. -/
  | flitReplay (die : Nat) (port : Nat)
  /-- R443: The receiver sends a return flit when counts changed and 32 ns have passed. -/
  | returnFlitSend (die : Nat) (port : Nat)
  /-- R443: A return flit frees permits at the sender or is dropped for a bad CRC. -/
  | returnFlitArrival (die : Nat) (port : Nat) (good : Bool) (ret : List (BitVec 16))
  /-- R444: After every 65,536 flits the sender sends an audit flit. -/
  | auditFlitSend (die : Nat) (port : Nat)
  /-- R444: An audit flit makes the receiver repair its return counts. -/
  | auditFlitArrival (die : Nat) (port : Nat) (sent : List (BitVec 16))
  /-- R445: A retired permit block's buffers free and the minima are rewritten if over-committed. -/
  | permitBlockRetire (die : Nat) (port : Nat)
  /-- R448: A reduction partial reaches its context and completes the sum when all children arrive. -/
  | partialArrival (p : Partial)
  /-- R449: A root completion writes the result and then the epoch word with release. -/
  | rootResultWrite (core : Nat) (ctx : Nat) (epoch : BitVec 16) (v : List (BitVec 64))
  /-- R450: A failed module is removed from the pod membership table and trees rebuilt. -/
  | moduleFailure (m : Nat)
  /-- R26: A time-synchronisation message adjusts the module's shared-clock rate. -/
  | clockSyncMessage (ppm : Int)
  /-- R459: The checker finds a mismatch and the instruction is reissued. -/
  | checkerMismatch (key : Nat)
  /-- R460: A second mismatch ends the thread with its state scrubbed. -/
  | machineCheck (key : Nat)
  /-- R463: A core with an uncorrectable local error stops and its work is refused and ended. -/
  | quarantine (core : Nat) (cause : BitVec 3)
  /-- R463: After the share copy, the row's coordinate map shifts to the spare core. -/
  | quarantineMapShift (core : Nat)
  /-- R467: A bond beat with failed parity is retried alone. -/
  | beatRetry (core : Nat) (lane : Nat) (off : BitVec 24) (givenUp : Bool)
  /-- R369: A retiring pool block's last entry frees and the minima are rewritten if needed. -/
  | poolBlockRetire (core : Nat) (block : Nat)
  /-- R483: Rail current above the sustained limit raises interrupt source POWER. -/
  | powerOvercurrent
  /-- R483: Current above 9,000 A for over 1 µs trips the stages into a power-on reset. -/
  | powerTrip
  /-- R486: At power-on the ROM verifies a boot slot and starts system core 0 or enters recovery. -/
  | powerOnReset
  /-- R490: A pending enabled Barn source makes its target system core enter. -/
  | barnInterruptEntry (core : Nat)
  /-- R491: A function-level reset pauses a VF, kills its groups and tears down its residences. -/
  | functionLevelReset (vf : Nat)
  /-- R488: SPDM GET_VERSION request answered by the root of trust. -/
  | getVersion
  /-- R488: SPDM GET_CAPABILITIES request. -/
  | getCapabilities
  /-- R488: SPDM NEGOTIATE_ALGORITHMS request. -/
  | negotiateAlgorithms
  /-- R488: SPDM GET_DIGESTS request. -/
  | getDigests
  /-- R488: SPDM GET_CERTIFICATE request. -/
  | getCertificate
  /-- R488: SPDM CHALLENGE request signed with the device key. -/
  | challenge (nonce : BitVec 256)
  /-- R488: SPDM GET_MEASUREMENTS request returning the four measurements. -/
  | getMeasurements
  /-- R50: A word that is not an assigned instruction, or has a reserved fn, cmd or nonzero required-zero field, raises the exact illegal-instruction trap. -/
  | illegalInstruction (w : BitVec 32)
  /-- R125: A fault met in fetching an instruction, such as sequential fetch passing 2^52 - 4 or a TLB hit without X permission, is raised exactly at that instruction. -/
  | fetchFault (pc : BitVec 64)
  /-- R495: The result of a non-access long-latency instruction (mul, div, FP, asample, launch, spawn, qget, estate and similar) arrives some open time after issue and lands at or wakes the window's close. -/
  | longLatencyResultArrival (key : Nat) (wid : Nat)
  /-- R342: A class-3 work-list entry shipped by levelling arrives at the neighbour and is appended at its tail, or returns to the sender's tail when the list is full. -/
  | levelledEntryArrival (core : Nat) (q : Nat) (src : Nat) (entry : List (BitVec 64))
  /-- R339: A kill with THREAD = 1 reaches the named thread's core, which ends the thread as a member loss or answers STALE or ALREADY. -/
  | killThreadArrival (key : Nat) (d : BitVec 5) (asid : BitVec 16) (name : BitVec 22)
  /-- R454: A pod port's physical layer trains it or loses training, changing the UP state that lstat reports and retiring pod-port lanes. -/
  | portTrainingChange (die : Nat) (port : Nat) (up : Bool)
  deriving DecidableEq, Repr

end Sys2Proof
end

