-- ==== Sys2Proof/Decode.lean ====
section
/-! DEFINITION. Instruction words (02 R30 to R50): the fields of the eight formats, the decoder from a word to an
instruction, the encoder back, and the static checks of an instruction's fields (FIELD, OPERAND and LOOKAHEAD of
R50) that the issue of an instruction makes. A word that no row of the opcode table takes decodes to none: the step
then takes the illegal-instruction trap (Machine/Issue.lean). -/

namespace Sys2Proof

/-- The fields of R30, by their bit positions. -/
def opOf (w : IWord) : BitVec 7 := w.extractLsb' 25 7
def dOf (w : IWord) : Reg := w.extractLsb' 20 5
def aOf (w : IWord) : Reg := w.extractLsb' 15 5
def bOf (w : IWord) : Reg := w.extractLsb' 10 5
def fnOf (w : IWord) : BitVec 6 := w.extractLsb' 4 6
/-- fn[5:3] -/
def highOf (w : IWord) : BitVec 3 := w.extractLsb' 7 3
/-- fn[2:0]: a rounding mode, a condition or a scope -/
def lowOf (w : IWord) : BitVec 3 := w.extractLsb' 4 3
def lkOf (w : IWord) : BitVec 4 := w.extractLsb' 0 4
def immOf (w : IWord) : BitVec 15 := w.extractLsb' 0 15
/-- imm15[5:0] and imm15[14:6] of the shift immediates (R40) -/
def shamtOf (w : IWord) : BitVec 6 := w.extractLsb' 0 6
def immTopOf (w : IWord) : BitVec 9 := w.extractLsb' 6 9
/-- imm15[4:0] and imm15[14:5] of wait (R127) -/
def waitMaskOf (w : IWord) : BitVec 5 := w.extractLsb' 0 5
def waitTopOf (w : IWord) : BitVec 10 := w.extractLsb' 5 10
def imm20Of (w : IWord) : BitVec 20 := w.extractLsb' 0 20
def disp25Of (w : IWord) : BitVec 25 := w.extractLsb' 0 25
def modeOf (w : IWord) : BitVec 2 := w.extractLsb' 13 2
def rxOf (w : IWord) : BitVec 1 := w.extractLsb' 12 1
def offOf (w : IWord) : BitVec 8 := w.extractLsb' 4 8
def engOf (w : IWord) : BitVec 3 := w.extractLsb' 12 3
def cmdOf (w : IWord) : BitVec 8 := w.extractLsb' 4 8
/-- cmd[7:4] and cmd[3:0] of rep (R47) -/
def lenOf (w : IWord) : BitVec 4 := w.extractLsb' 8 4
def lenLowOf (w : IWord) : BitVec 4 := w.extractLsb' 4 4
def sregOf (w : IWord) : BitVec 12 := w.extractLsb' 3 12
/-- sreg12[8:0], the engine register of ewr (R49) -/
def ereg9Of (w : IWord) : BitVec 9 := w.extractLsb' 3 9
def dirOf (w : IWord) : BitVec 1 := w.extractLsb' 2 1
def restOf (w : IWord) : BitVec 2 := w.extractLsb' 0 2

/-- The formats of R30, as words. -/
def wordR (op : BitVec 7) (d a b : Reg) (fn : BitVec 6) (lk : BitVec 4) : IWord := op ++ d ++ a ++ b ++ fn ++ lk
def wordI (op : BitVec 7) (d a : Reg) (imm : BitVec 15) : IWord := op ++ d ++ a ++ imm
def wordM (op : BitVec 7) (d a : Reg) (mode : BitVec 2) (rx : BitVec 1) (off : BitVec 8) (lk : BitVec 4) : IWord :=
  op ++ d ++ a ++ mode ++ rx ++ off ++ lk
def wordB (op : BitVec 7) (a b : Reg) (disp : BitVec 15) : IWord := op ++ a ++ b ++ disp
def wordJ (op : BitVec 7) (disp : BitVec 25) : IWord := op ++ disp
def wordU (op : BitVec 7) (d : Reg) (imm : BitVec 20) : IWord := op ++ d ++ imm
/-- Format C has the one major 0x60, and its lk field is zero (R47). -/
def wordC (a b : Reg) (eng : BitVec 3) (cmd : BitVec 8) : IWord := 0x60#7 ++ a ++ b ++ eng ++ cmd ++ 0#4
def wordS (op : BitVec 7) (d a : Reg) (sreg : BitVec 12) (dir : BitVec 1) : IWord :=
  op ++ d ++ a ++ sreg ++ dir ++ 0#2

/-- R41, major 0x01, by fn. -/
def decodeInteger (w : IWord) : Option Instr :=
  match (fnOf w).toNat with
  | 0x00 => if lkOf w = 0x0#4 then some (.add (dOf w) (aOf w) (bOf w)) else none
  | 0x01 => if lkOf w = 0x0#4 then some (.sub (dOf w) (aOf w) (bOf w)) else none
  | 0x02 => if lkOf w = 0x0#4 then some (.and (dOf w) (aOf w) (bOf w)) else none
  | 0x03 => if lkOf w = 0x0#4 then some (.or (dOf w) (aOf w) (bOf w)) else none
  | 0x04 => if lkOf w = 0x0#4 then some (.xor (dOf w) (aOf w) (bOf w)) else none
  | 0x05 => if lkOf w = 0x0#4 then some (.sll (dOf w) (aOf w) (bOf w)) else none
  | 0x06 => if lkOf w = 0x0#4 then some (.srl (dOf w) (aOf w) (bOf w)) else none
  | 0x07 => if lkOf w = 0x0#4 then some (.sra (dOf w) (aOf w) (bOf w)) else none
  | 0x08 => if lkOf w = 0x0#4 then some (.min (dOf w) (aOf w) (bOf w)) else none
  | 0x09 => if lkOf w = 0x0#4 then some (.max (dOf w) (aOf w) (bOf w)) else none
  | 0x0A => if lkOf w = 0x0#4 then some (.minu (dOf w) (aOf w) (bOf w)) else none
  | 0x0B => if lkOf w = 0x0#4 then some (.maxu (dOf w) (aOf w) (bOf w)) else none
  | 0x0C => if lkOf w = 0x0#4 then some (.sel (dOf w) (aOf w) (bOf w)) else none
  | 0x10 => some (.mul (dOf w) (aOf w) (bOf w) (lkOf w))
  | 0x11 => some (.mulh (dOf w) (aOf w) (bOf w) (lkOf w))
  | 0x12 => some (.mulhu (dOf w) (aOf w) (bOf w) (lkOf w))
  | 0x14 => some (.div (dOf w) (aOf w) (bOf w) (lkOf w))
  | 0x15 => some (.divu (dOf w) (aOf w) (bOf w) (lkOf w))
  | 0x16 => some (.rem (dOf w) (aOf w) (bOf w) (lkOf w))
  | 0x17 => some (.remu (dOf w) (aOf w) (bOf w) (lkOf w))
  | _ => none

/-- R41, major 0x02, by fn. -/
def decodeBit (w : IWord) : Option Instr :=
  match (fnOf w).toNat with
  | 0x00 => if bOf w = 0x0#5 ∧ lkOf w = 0x0#4 then some (.clz (dOf w) (aOf w)) else none
  | 0x01 => if bOf w = 0x0#5 ∧ lkOf w = 0x0#4 then some (.ctz (dOf w) (aOf w)) else none
  | 0x02 => if bOf w = 0x0#5 ∧ lkOf w = 0x0#4 then some (.pop (dOf w) (aOf w)) else none
  | 0x03 => if lkOf w = 0x0#4 then some (.bext (dOf w) (aOf w) (bOf w)) else none
  | 0x04 => if lkOf w = 0x0#4 then some (.bdep (dOf w) (aOf w) (bOf w)) else none
  | _ => none

/-- R41, major 0x03, by fn. -/
def decodePointer (w : IWord) : Option Instr :=
  match (fnOf w).toNat with
  | 0x00 => if lkOf w = 0x0#4 then some (.padd (dOf w) (aOf w) (bOf w)) else none
  | 0x01 => if lkOf w = 0x0#4 then some (.pidx (dOf w) (aOf w) (bOf w)) else none
  | 0x02 => if bOf w = 0x0#5 ∧ lkOf w = 0x0#4 then some (.ptag (dOf w) (aOf w)) else none
  | 0x03 => if lkOf w = 0x0#4 then some (.ptagset (dOf w) (aOf w) (bOf w)) else none
  | _ => none

/-- R42, major 0x20, by fn[5:3]. -/
def decodeFloatS (w : IWord) : Option Instr :=
  match (highOf w).toNat with
  | 0 => some (.faddS (dOf w) (aOf w) (bOf w) (lowOf w) (lkOf w))
  | 1 => some (.fsubS (dOf w) (aOf w) (bOf w) (lowOf w) (lkOf w))
  | 2 => some (.fmulS (dOf w) (aOf w) (bOf w) (lowOf w) (lkOf w))
  | 3 => some (.fdivS (dOf w) (aOf w) (bOf w) (lowOf w) (lkOf w))
  | 4 => if bOf w = 0x0#5 then some (.fsqrtS (dOf w) (aOf w) (lowOf w) (lkOf w)) else none
  | 5 => if lowOf w = 0x0#3 then some (.fminS (dOf w) (aOf w) (bOf w) (lkOf w)) else none
  | 6 => if lowOf w = 0x0#3 then some (.fmaxS (dOf w) (aOf w) (bOf w) (lkOf w)) else none
  | _ => none

/-- R42, major 0x21, by fn[5:3]. -/
def decodeFloatD (w : IWord) : Option Instr :=
  match (highOf w).toNat with
  | 0 => some (.faddD (dOf w) (aOf w) (bOf w) (lowOf w) (lkOf w))
  | 1 => some (.fsubD (dOf w) (aOf w) (bOf w) (lowOf w) (lkOf w))
  | 2 => some (.fmulD (dOf w) (aOf w) (bOf w) (lowOf w) (lkOf w))
  | 3 => some (.fdivD (dOf w) (aOf w) (bOf w) (lowOf w) (lkOf w))
  | 4 => if bOf w = 0x0#5 then some (.fsqrtD (dOf w) (aOf w) (lowOf w) (lkOf w)) else none
  | 5 => if lowOf w = 0x0#3 then some (.fminD (dOf w) (aOf w) (bOf w) (lkOf w)) else none
  | 6 => if lowOf w = 0x0#3 then some (.fmaxD (dOf w) (aOf w) (bOf w) (lkOf w)) else none
  | _ => none

/-- R42, major 0x22, by fn[5:3]. -/
def decodeFusedS (w : IWord) : Option Instr :=
  match (highOf w).toNat with
  | 0 => some (.fmaS (dOf w) (aOf w) (bOf w) (lowOf w) (lkOf w))
  | 1 => some (.fmsS (dOf w) (aOf w) (bOf w) (lowOf w) (lkOf w))
  | 2 => some (.fnmaS (dOf w) (aOf w) (bOf w) (lowOf w) (lkOf w))
  | 3 => some (.fnmsS (dOf w) (aOf w) (bOf w) (lowOf w) (lkOf w))
  | _ => none

/-- R42, major 0x23, by fn[5:3]. -/
def decodeFusedD (w : IWord) : Option Instr :=
  match (highOf w).toNat with
  | 0 => some (.fmaD (dOf w) (aOf w) (bOf w) (lowOf w) (lkOf w))
  | 1 => some (.fmsD (dOf w) (aOf w) (bOf w) (lowOf w) (lkOf w))
  | 2 => some (.fnmaD (dOf w) (aOf w) (bOf w) (lowOf w) (lkOf w))
  | 3 => some (.fnmsD (dOf w) (aOf w) (bOf w) (lowOf w) (lkOf w))
  | _ => none

/-- R42, major 0x24, by fn[5:3]. -/
def decodeCompare (w : IWord) : Option Instr :=
  match (highOf w).toNat with
  | 0 => some (.fcmpS (dOf w) (aOf w) (bOf w) (lowOf w) (lkOf w))
  | 4 => some (.fcmpD (dOf w) (aOf w) (bOf w) (lowOf w) (lkOf w))
  | _ => none

/-- R42, major 0x25, by fn[5:3]. -/
def decodeConvert (w : IWord) : Option Instr :=
  match (highOf w).toNat with
  | 0 => if bOf w = 0x0#5 then some (.fcvtSD (dOf w) (aOf w) (lowOf w) (lkOf w)) else none
  | 1 => if bOf w = 0x0#5 then some (.fcvtDS (dOf w) (aOf w) (lowOf w) (lkOf w)) else none
  | 2 => if bOf w = 0x0#5 then some (.fcvtSL (dOf w) (aOf w) (lowOf w) (lkOf w)) else none
  | 3 => if bOf w = 0x0#5 then some (.fcvtDL (dOf w) (aOf w) (lowOf w) (lkOf w)) else none
  | 4 => if bOf w = 0x0#5 then some (.fcvtLS (dOf w) (aOf w) (lowOf w) (lkOf w)) else none
  | 5 => if bOf w = 0x0#5 then some (.fcvtLD (dOf w) (aOf w) (lowOf w) (lkOf w)) else none
  | 6 => if bOf w = 0x0#5 then some (.fcvtDLu (dOf w) (aOf w) (lowOf w) (lkOf w)) else none
  | 7 => if bOf w = 0x0#5 then some (.fcvtLuD (dOf w) (aOf w) (lowOf w) (lkOf w)) else none
  | _ => none

/-- R44, major 0x4E, by fn[5:3]. -/
def decodeFence (w : IWord) : Option Instr :=
  match (highOf w).toNat with
  | 0 => if dOf w = 0x0#5 ∧ aOf w = 0x0#5 ∧ bOf w = 0x0#5 ∧ lkOf w = 0x0#4 then some (.fenceScope (lowOf w)) else none
  | 1 => if lowOf w = 0x0#3 ∧ dOf w = 0x0#5 ∧ aOf w = 0x0#5 ∧ bOf w = 0x0#5 ∧ lkOf w = 0x0#4 then some (.fenceLoop) else none
  | _ => none

/-- R45, major 0x50, by fn[5:3]. -/
def decodeAmoD (w : IWord) : Option Instr :=
  match (highOf w).toNat with
  | 0 => some (.amoAddD (dOf w) (aOf w) (bOf w) (lowOf w) (lkOf w))
  | 1 => some (.amoMinD (dOf w) (aOf w) (bOf w) (lowOf w) (lkOf w))
  | 2 => some (.amoMaxD (dOf w) (aOf w) (bOf w) (lowOf w) (lkOf w))
  | 3 => some (.amoXchgD (dOf w) (aOf w) (bOf w) (lowOf w) (lkOf w))
  | 4 => some (.amoCasD (dOf w) (aOf w) (bOf w) (lowOf w) (lkOf w))
  | 5 => some (.amoMinuD (dOf w) (aOf w) (bOf w) (lowOf w) (lkOf w))
  | 6 => some (.amoMaxuD (dOf w) (aOf w) (bOf w) (lowOf w) (lkOf w))
  | _ => none

/-- R45, major 0x51, by fn[5:3]. -/
def decodeAmoW (w : IWord) : Option Instr :=
  match (highOf w).toNat with
  | 0 => some (.amoAddW (dOf w) (aOf w) (bOf w) (lowOf w) (lkOf w))
  | 1 => some (.amoMinW (dOf w) (aOf w) (bOf w) (lowOf w) (lkOf w))
  | 2 => some (.amoMaxW (dOf w) (aOf w) (bOf w) (lowOf w) (lkOf w))
  | 3 => some (.amoXchgW (dOf w) (aOf w) (bOf w) (lowOf w) (lkOf w))
  | 4 => some (.amoCasW (dOf w) (aOf w) (bOf w) (lowOf w) (lkOf w))
  | 5 => some (.amoMinuW (dOf w) (aOf w) (bOf w) (lowOf w) (lkOf w))
  | 6 => some (.amoMaxuW (dOf w) (aOf w) (bOf w) (lowOf w) (lkOf w))
  | _ => none

/-- R45, major 0x54, by fn[5:3]. -/
def decodeRup (w : IWord) : Option Instr :=
  match (highOf w).toNat with
  | 0 => if dOf w = 0x0#5 ∧ lkOf w = 0x0#4 then some (.rupAdd (aOf w) (bOf w) (lowOf w)) else none
  | 1 => if dOf w = 0x0#5 ∧ lkOf w = 0x0#4 then some (.rupMin (aOf w) (bOf w) (lowOf w)) else none
  | 2 => if dOf w = 0x0#5 ∧ lkOf w = 0x0#4 then some (.rupMax (aOf w) (bOf w) (lowOf w)) else none
  | 3 => if dOf w = 0x0#5 ∧ lkOf w = 0x0#4 then some (.rupOr (aOf w) (bOf w) (lowOf w)) else none
  | 4 => if dOf w = 0x0#5 ∧ lkOf w = 0x0#4 then some (.rupAnd (aOf w) (bOf w) (lowOf w)) else none
  | 5 => if dOf w = 0x0#5 ∧ lkOf w = 0x0#4 then some (.rupXor (aOf w) (bOf w) (lowOf w)) else none
  | _ => none

/-- R46, major 0x58, by fn[5:3]. -/
def decodeBarrier (w : IWord) : Option Instr :=
  match (highOf w).toNat with
  | 0 => if lkOf w = 0x0#4 then some (.barinit (dOf w) (aOf w) (bOf w) (lowOf w)) else none
  | 1 => if lkOf w = 0x0#4 then some (.barjoin (dOf w) (aOf w) (bOf w) (lowOf w)) else none
  | 2 => some (.barwait (dOf w) (aOf w) (bOf w) (lowOf w) (lkOf w))
  | 3 => if lkOf w = 0x0#4 then some (.barbytes (dOf w) (aOf w) (bOf w) (lowOf w)) else none
  | _ => none

/-- R46, major 0x59, by fn. -/
def decodeQueue (w : IWord) : Option Instr :=
  match (fnOf w).toNat with
  | 0x00 => if lkOf w = 0x0#4 then some (.qput (dOf w) (aOf w) (bOf w)) else none
  | 0x01 => some (.qget (dOf w) (aOf w) (bOf w) (lkOf w))
  | 0x02 => if lkOf w = 0x0#4 then some (.qcfg (dOf w) (aOf w) (bOf w)) else none
  | 0x03 => if bOf w = 0x0#5 ∧ lkOf w = 0x0#4 then some (.qstat (dOf w) (aOf w)) else none
  | _ => none

/-- R46, major 0x5A, by fn. -/
def decodeEstate (w : IWord) : Option Instr :=
  match (fnOf w).toNat with
  | 0x00 => some (.hold (dOf w) (aOf w) (bOf w) (lkOf w))
  | 0x01 => if bOf w = 0x0#5 then some (.unhold (dOf w) (aOf w) (lkOf w)) else none
  | 0x02 => some (.heir (dOf w) (aOf w) (bOf w) (lkOf w))
  | 0x03 => if bOf w = 0x0#5 then some (.promise (dOf w) (aOf w) (lkOf w)) else none
  | 0x04 => if lkOf w = 0x0#4 then some (.fulfil (dOf w) (aOf w) (bOf w)) else none
  | 0x05 => if bOf w = 0x0#5 then some (.await (dOf w) (aOf w) (lkOf w)) else none
  | 0x06 => some (.estq (dOf w) (aOf w) (bOf w) (lkOf w))
  | _ => none

/-- R47, eng 0. -/
def decodeVectorCommand (w : IWord) : Option Instr :=
  match (cmdOf w).toNat with
  | 0x01 => if lkOf w = 0x0#4 then some (.vadd (dOf w) (aOf w)) else none
  | 0x02 => if lkOf w = 0x0#4 then some (.vsub (dOf w) (aOf w)) else none
  | 0x03 => if lkOf w = 0x0#4 then some (.vmul (dOf w) (aOf w)) else none
  | 0x04 => if lkOf w = 0x0#4 then some (.vdiv (dOf w) (aOf w)) else none
  | 0x05 => if lkOf w = 0x0#4 then some (.vmin (dOf w) (aOf w)) else none
  | 0x06 => if lkOf w = 0x0#4 then some (.vmax (dOf w) (aOf w)) else none
  | 0x07 => if lkOf w = 0x0#4 then some (.vfma (dOf w) (aOf w)) else none
  | 0x08 => if lkOf w = 0x0#4 then some (.vabs (dOf w) (aOf w)) else none
  | 0x09 => if lkOf w = 0x0#4 then some (.vneg (dOf w) (aOf w)) else none
  | 0x0A => if lkOf w = 0x0#4 then some (.vsqrt (dOf w) (aOf w)) else none
  | 0x0B => if lkOf w = 0x0#4 then some (.vcvt (dOf w) (aOf w)) else none
  | 0x10 => if lkOf w = 0x0#4 then some (.vand (dOf w) (aOf w)) else none
  | 0x11 => if lkOf w = 0x0#4 then some (.vor (dOf w) (aOf w)) else none
  | 0x12 => if lkOf w = 0x0#4 then some (.vxor (dOf w) (aOf w)) else none
  | 0x13 => if lkOf w = 0x0#4 then some (.vshl (dOf w) (aOf w)) else none
  | 0x14 => if lkOf w = 0x0#4 then some (.vshr (dOf w) (aOf w)) else none
  | 0x18 => if lkOf w = 0x0#4 then some (.vsum (dOf w) (aOf w)) else none
  | 0x19 => if lkOf w = 0x0#4 then some (.vrmax (dOf w) (aOf w)) else none
  | 0x1A => if lkOf w = 0x0#4 then some (.vrmin (dOf w) (aOf w)) else none
  | 0x1B => if lkOf w = 0x0#4 then some (.vsumsq (dOf w) (aOf w)) else none
  | 0x20 => if lkOf w = 0x0#4 then some (.vexp (dOf w) (aOf w)) else none
  | 0x21 => if lkOf w = 0x0#4 then some (.vlog (dOf w) (aOf w)) else none
  | 0x22 => if lkOf w = 0x0#4 then some (.vrcp (dOf w) (aOf w)) else none
  | 0x23 => if lkOf w = 0x0#4 then some (.vrsqrt (dOf w) (aOf w)) else none
  | 0x24 => if lkOf w = 0x0#4 then some (.vtanh (dOf w) (aOf w)) else none
  | 0x25 => if lkOf w = 0x0#4 then some (.vsilu (dOf w) (aOf w)) else none
  | 0x26 => if lkOf w = 0x0#4 then some (.vgelu (dOf w) (aOf w)) else none
  | 0xF0 => if dOf w = 0x0#5 ∧ aOf w = 0x0#5 ∧ lkOf w = 0x0#4 then some (.vfence) else none
  | _ => none

/-- R47, eng 1. -/
def decodeCopyCommand (w : IWord) : Option Instr :=
  match (cmdOf w).toNat with
  | 0x01 => if lkOf w = 0x0#4 then some (.cpbox (dOf w) (aOf w)) else none
  | 0x02 => if lkOf w = 0x0#4 then some (.cpmc (dOf w) (aOf w)) else none
  | 0x03 => if lkOf w = 0x0#4 then some (.cpcan (dOf w) (aOf w)) else none
  | 0x10 => if lkOf w = 0x0#4 then some (.cpredAddF32 (dOf w) (aOf w)) else none
  | 0x11 => if lkOf w = 0x0#4 then some (.cpredAddBf16 (dOf w) (aOf w)) else none
  | 0x12 => if lkOf w = 0x0#4 then some (.cpredMaxF32 (dOf w) (aOf w)) else none
  | 0x13 => if lkOf w = 0x0#4 then some (.cpredMaxBf16 (dOf w) (aOf w)) else none
  | 0x14 => if lkOf w = 0x0#4 then some (.cpredMinF32 (dOf w) (aOf w)) else none
  | 0x15 => if lkOf w = 0x0#4 then some (.cpredMinBf16 (dOf w) (aOf w)) else none
  | _ => none

/-- R47, eng 2. -/
def decodeMatrixCommand (w : IWord) : Option Instr :=
  match (cmdOf w).toNat with
  | 0x01 => if lkOf w = 0x0#4 then some (.mgath (dOf w) (aOf w)) else none
  | 0x02 => if dOf w = 0x0#5 ∧ aOf w = 0x0#5 ∧ lkOf w = 0x0#4 then some (.mgang) else none
  | 0x08 => if aOf w = 0x0#5 ∧ lkOf w = 0x0#4 then some (.mzero (dOf w)) else none
  | 0x09 => if lkOf w = 0x0#4 then some (.mdrain (dOf w) (aOf w)) else none
  | 0x0A => if aOf w = 0x0#5 ∧ lkOf w = 0x0#4 then some (.mband (dOf w)) else none
  | 0x10 => if lkOf w = 0x0#4 then some (.mmaF4 (dOf w) (aOf w)) else none
  | 0x11 => if lkOf w = 0x0#4 then some (.mmaF8 (dOf w) (aOf w)) else none
  | 0x12 => if lkOf w = 0x0#4 then some (.mmaBf16 (dOf w) (aOf w)) else none
  | 0x13 => if lkOf w = 0x0#4 then some (.mmaI8 (dOf w) (aOf w)) else none
  | _ => none

/-- R47, eng 3. -/
def decodeMeadowCommand (w : IWord) : Option Instr :=
  match (cmdOf w).toNat with
  | 0x01 => if lkOf w = 0x0#4 then some (.acfg (dOf w) (aOf w)) else none
  | 0x02 => if lkOf w = 0x0#4 then some (.acoef (dOf w) (aOf w)) else none
  | 0x03 => if lkOf w = 0x0#4 then some (.ascale (dOf w) (aOf w)) else none
  | 0x04 => if aOf w = 0x0#5 ∧ lkOf w = 0x0#4 then some (.arun (dOf w)) else none
  | 0x05 => if aOf w = 0x0#5 ∧ lkOf w = 0x0#4 then some (.ahold (dOf w)) else none
  | 0x06 => if aOf w = 0x0#5 ∧ lkOf w = 0x0#4 then some (.areset (dOf w)) else none
  | _ => none

/-- R47, eng 4. -/
def decodeLinkCommand (w : IWord) : Option Instr :=
  match (cmdOf w).toNat with
  | 0x01 => if lkOf w = 0x0#4 then some (.lturn (dOf w) (aOf w)) else none
  | 0x02 => if lkOf w = 0x0#4 then some (.rsvr (dOf w) (aOf w)) else none
  | 0x03 => if lkOf w = 0x0#4 then some (.rpart (dOf w) (aOf w)) else none
  | _ => none

/-- R47: the engine commands, by eng. -/
def decodeCommand (w : IWord) : Option Instr :=
  match (engOf w).toNat with
  | 0 => decodeVectorCommand w
  | 1 => decodeCopyCommand w
  | 2 => decodeMatrixCommand w
  | 3 => decodeMeadowCommand w
  | 4 => decodeLinkCommand w
  | 5 => if lenLowOf w = 0#4 ∧ lkOf w = 0x0#4 then some (.rep (dOf w) (aOf w) (lenOf w)) else none
  | _ => none

/-- R48, major 0x61, by fn. -/
def decodeResult (w : IWord) : Option Instr :=
  match (fnOf w).toNat with
  | 0x00 => if bOf w = 0x0#5 ∧ lkOf w = 0x0#4 then some (.vbusy (dOf w) (aOf w)) else none
  | 0x01 => some (.vcmpm (dOf w) (aOf w) (bOf w) (lkOf w))
  | 0x08 => if bOf w = 0x0#5 ∧ lkOf w = 0x0#4 then some (.cpstat (dOf w) (aOf w)) else none
  | 0x09 => if bOf w = 0x0#5 then some (.cpwait (dOf w) (aOf w) (lkOf w)) else none
  | 0x10 => if bOf w = 0x0#5 then some (.mwait (dOf w) (aOf w) (lkOf w)) else none
  | 0x18 => if bOf w = 0x0#5 ∧ lkOf w = 0x0#4 then some (.astat (dOf w) (aOf w)) else none
  | 0x19 => some (.asettle (dOf w) (aOf w) (bOf w) (lkOf w))
  | 0x1A => some (.asample (dOf w) (aOf w) (bOf w) (lkOf w))
  | 0x20 => if bOf w = 0x0#5 ∧ lkOf w = 0x0#4 then some (.lstat (dOf w) (aOf w)) else none
  | 0x21 => if bOf w = 0x0#5 then some (.grpq (dOf w) (aOf w) (lkOf w)) else none
  | _ => none

/-- R193: dir chooses the read and the write. -/
def decodeSysreg (w : IWord) : Option Instr :=
  if aOf w = 0x0#5 ∧ dirOf w = 0x0#1 ∧ restOf w = 0x0#2 then some (.sysr (dOf w) (sregOf w))
  else if dOf w = 0x0#5 ∧ dirOf w = 0x1#1 ∧ restOf w = 0x0#2 then some (.sysw (aOf w) (sregOf w))
  else none

/-- R49, major 0x6C, by fn. -/
def decodeReturn (w : IWord) : Option Instr :=
  match (fnOf w).toNat with
  | 0x00 => if dOf w = 0x0#5 ∧ aOf w = 0x0#5 ∧ bOf w = 0x0#5 ∧ lkOf w = 0x0#4 then some (.eret) else none
  | 0x01 => if dOf w = 0x0#5 ∧ aOf w = 0x0#5 ∧ bOf w = 0x0#5 ∧ lkOf w = 0x0#4 then some (.uret) else none
  | _ => none

/-- R49, major 0x6D, by fn. -/
def decodeContext (w : IWord) : Option Instr :=
  match (fnOf w).toNat with
  | 0x00 => if lkOf w = 0x0#4 then some (.ctxsave (dOf w) (aOf w) (bOf w)) else none
  | 0x01 => if lkOf w = 0x0#4 then some (.ctxload (dOf w) (aOf w) (bOf w)) else none
  | 0x02 => if lkOf w = 0x0#4 then some (.slotw (dOf w) (aOf w) (bOf w)) else none
  | 0x03 => if bOf w = 0x0#5 ∧ lkOf w = 0x0#4 then some (.yield (dOf w) (aOf w)) else none
  | 0x04 => if bOf w = 0x0#5 ∧ lkOf w = 0x0#4 then some (.migrate (dOf w) (aOf w)) else none
  | 0x05 => if bOf w = 0x0#5 ∧ lkOf w = 0x0#4 then some (.pin (dOf w) (aOf w)) else none
  | _ => none

/-- R49, major 0x6E, by fn. -/
def decodeKernel (w : IWord) : Option Instr :=
  match (fnOf w).toNat with
  | 0x00 => some (.launch (dOf w) (aOf w) (bOf w) (lkOf w))
  | 0x01 => some (.tlaunch (dOf w) (aOf w) (bOf w) (lkOf w))
  | 0x02 => if bOf w = 0x0#5 then some (.kwait (dOf w) (aOf w) (lkOf w)) else none
  | 0x03 => if bOf w = 0x0#5 ∧ lkOf w = 0x0#4 then some (.kstat (dOf w) (aOf w)) else none
  | 0x08 => some (.spawn (dOf w) (aOf w) (bOf w) (lkOf w))
  | 0x09 => if dOf w = 0x0#5 ∧ aOf w = 0x0#5 ∧ bOf w = 0x0#5 ∧ lkOf w = 0x0#4 then some (.exit) else none
  | 0x0A => if lkOf w = 0x0#4 then some (.kill (dOf w) (aOf w) (bOf w)) else none
  | 0x0B => if dOf w = 0x0#5 ∧ lkOf w = 0x0#4 then some (.send (aOf w) (bOf w)) else none
  | 0x0C => some (.recv (dOf w) (aOf w) (bOf w) (lkOf w))
  | 0x0D => if bOf w = 0x0#5 ∧ lkOf w = 0x0#4 then some (.gstat (dOf w) (aOf w)) else none
  | _ => none

/-- R49, major 0x6F, by fn. -/
def decodePage (w : IWord) : Option Instr :=
  match (fnOf w).toNat with
  | 0x00 => some (.pfq (dOf w) (aOf w) (bOf w) (lkOf w))
  | 0x01 => if lkOf w = 0x0#4 then some (.presume (dOf w) (aOf w) (bOf w)) else none
  | 0x02 => if lkOf w = 0x0#4 then some (.pinv (dOf w) (aOf w) (bOf w)) else none
  | 0x08 => if lkOf w = 0x0#4 then some (.pgive (dOf w) (aOf w) (bOf w)) else none
  | 0x09 => if bOf w = 0x0#5 then some (.ptake (dOf w) (aOf w) (lkOf w)) else none
  | _ => none

/-- The instruction of a word by its major opcode (R40); none for every word that is no row of the opcode table. -/
def decode (w : IWord) : Option Instr :=
  match (opOf w).toNat with
  | 0x01 => decodeInteger w
  | 0x02 => decodeBit w
  | 0x03 => decodePointer w
  | 0x08 => some (.addi (dOf w) (aOf w) (immOf w))
  | 0x09 => some (.andi (dOf w) (aOf w) (immOf w))
  | 0x0A => some (.ori (dOf w) (aOf w) (immOf w))
  | 0x0B => some (.xori (dOf w) (aOf w) (immOf w))
  | 0x0C => if immTopOf w = 0#9 then some (.slli (dOf w) (aOf w) (shamtOf w)) else none
  | 0x0D => if immTopOf w = 0#9 then some (.srli (dOf w) (aOf w) (shamtOf w)) else none
  | 0x0E => if immTopOf w = 0#9 then some (.srai (dOf w) (aOf w) (shamtOf w)) else none
  | 0x0F => some (.paddi (dOf w) (aOf w) (immOf w))
  | 0x10 => some (.lui (dOf w) (imm20Of w))
  | 0x20 => decodeFloatS w
  | 0x21 => decodeFloatD w
  | 0x22 => decodeFusedS w
  | 0x23 => decodeFusedD w
  | 0x24 => decodeCompare w
  | 0x25 => decodeConvert w
  | 0x30 => some (.beq (dOf w) (aOf w) (immOf w))
  | 0x31 => some (.bne (dOf w) (aOf w) (immOf w))
  | 0x32 => some (.blt (dOf w) (aOf w) (immOf w))
  | 0x33 => some (.bge (dOf w) (aOf w) (immOf w))
  | 0x34 => some (.bltu (dOf w) (aOf w) (immOf w))
  | 0x35 => some (.bgeu (dOf w) (aOf w) (immOf w))
  | 0x36 => some (.bbs (dOf w) (aOf w) (immOf w))
  | 0x37 => some (.bbc (dOf w) (aOf w) (immOf w))
  | 0x38 => some (.jal (disp25Of w))
  | 0x39 => some (.jalr (dOf w) (aOf w) (immOf w))
  | 0x3A => if waitTopOf w = 0#10 then some (.wait (dOf w) (aOf w) (waitMaskOf w)) else none
  | 0x40 => some (.ldB (dOf w) (aOf w) (modeOf w) (rxOf w) (offOf w) (lkOf w))
  | 0x41 => some (.ldH (dOf w) (aOf w) (modeOf w) (rxOf w) (offOf w) (lkOf w))
  | 0x42 => some (.ldW (dOf w) (aOf w) (modeOf w) (rxOf w) (offOf w) (lkOf w))
  | 0x43 => some (.ldD (dOf w) (aOf w) (modeOf w) (rxOf w) (offOf w) (lkOf w))
  | 0x44 => some (.ldBu (dOf w) (aOf w) (modeOf w) (rxOf w) (offOf w) (lkOf w))
  | 0x45 => some (.ldHu (dOf w) (aOf w) (modeOf w) (rxOf w) (offOf w) (lkOf w))
  | 0x46 => some (.ldWu (dOf w) (aOf w) (modeOf w) (rxOf w) (offOf w) (lkOf w))
  | 0x48 => if lkOf w = 0x0#4 then some (.stB (dOf w) (aOf w) (modeOf w) (rxOf w) (offOf w)) else none
  | 0x49 => if lkOf w = 0x0#4 then some (.stH (dOf w) (aOf w) (modeOf w) (rxOf w) (offOf w)) else none
  | 0x4A => if lkOf w = 0x0#4 then some (.stW (dOf w) (aOf w) (modeOf w) (rxOf w) (offOf w)) else none
  | 0x4B => if lkOf w = 0x0#4 then some (.stD (dOf w) (aOf w) (modeOf w) (rxOf w) (offOf w)) else none
  | 0x4C => if rxOf w = 0x0#1 then some (.ldAcq (dOf w) (aOf w) (modeOf w) (offOf w) (lkOf w)) else none
  | 0x4D => if rxOf w = 0x0#1 ∧ lkOf w = 0x0#4 then some (.stRel (dOf w) (aOf w) (modeOf w) (offOf w)) else none
  | 0x4E => decodeFence w
  | 0x50 => decodeAmoD w
  | 0x51 => decodeAmoW w
  | 0x52 => if rxOf w = 0x0#1 then some (.lrw (dOf w) (aOf w) (modeOf w) (offOf w) (lkOf w)) else none
  | 0x53 => if fnOf w = 0x0#6 then some (.sc (dOf w) (aOf w) (bOf w) (lkOf w)) else none
  | 0x54 => decodeRup w
  | 0x58 => decodeBarrier w
  | 0x59 => decodeQueue w
  | 0x5A => decodeEstate w
  | 0x60 => decodeCommand w
  | 0x61 => decodeResult w
  | 0x68 => decodeSysreg w
  | 0x69 => if aOf w = 0x0#5 ∧ dirOf w = 0x0#1 ∧ restOf w = 0x0#2 then some (.tsr (dOf w) (sregOf w)) else none
  | 0x6A => if dOf w = 0x0#5 ∧ dirOf w = 0x1#1 ∧ restOf w = 0x0#2 then some (.ewr (aOf w) (engOf w) (ereg9Of w)) else none
  | 0x6B => if dOf w = 0x0#5 ∧ aOf w = 0x0#5 then some (.trap (immOf w)) else none
  | 0x6C => decodeReturn w
  | 0x6D => decodeContext w
  | 0x6E => decodeKernel w
  | 0x6F => decodePage w
  | _ => none

/-- The word of an instruction, from the formats of R30 and the maps of R40 to R49. A step that has no word of its
own gives the all-zero word, which no row of the table takes (R40). -/
def encode : Instr → IWord
  | .add d a b => wordR 0x1#7 d a b 0x0#6 0x0#4
  | .sub d a b => wordR 0x1#7 d a b 0x1#6 0x0#4
  | .and d a b => wordR 0x1#7 d a b 0x2#6 0x0#4
  | .or d a b => wordR 0x1#7 d a b 0x3#6 0x0#4
  | .xor d a b => wordR 0x1#7 d a b 0x4#6 0x0#4
  | .sll d a b => wordR 0x1#7 d a b 0x5#6 0x0#4
  | .srl d a b => wordR 0x1#7 d a b 0x6#6 0x0#4
  | .sra d a b => wordR 0x1#7 d a b 0x7#6 0x0#4
  | .min d a b => wordR 0x1#7 d a b 0x8#6 0x0#4
  | .max d a b => wordR 0x1#7 d a b 0x9#6 0x0#4
  | .minu d a b => wordR 0x1#7 d a b 0xA#6 0x0#4
  | .maxu d a b => wordR 0x1#7 d a b 0xB#6 0x0#4
  | .sel d a b => wordR 0x1#7 d a b 0xC#6 0x0#4
  | .mul d a b lk => wordR 0x1#7 d a b 0x10#6 lk
  | .mulh d a b lk => wordR 0x1#7 d a b 0x11#6 lk
  | .mulhu d a b lk => wordR 0x1#7 d a b 0x12#6 lk
  | .div d a b lk => wordR 0x1#7 d a b 0x14#6 lk
  | .divu d a b lk => wordR 0x1#7 d a b 0x15#6 lk
  | .rem d a b lk => wordR 0x1#7 d a b 0x16#6 lk
  | .remu d a b lk => wordR 0x1#7 d a b 0x17#6 lk
  | .clz d a => wordR 0x2#7 d a 0x0#5 0x0#6 0x0#4
  | .ctz d a => wordR 0x2#7 d a 0x0#5 0x1#6 0x0#4
  | .pop d a => wordR 0x2#7 d a 0x0#5 0x2#6 0x0#4
  | .bext d a b => wordR 0x2#7 d a b 0x3#6 0x0#4
  | .bdep d a b => wordR 0x2#7 d a b 0x4#6 0x0#4
  | .padd d a b => wordR 0x3#7 d a b 0x0#6 0x0#4
  | .pidx d a b => wordR 0x3#7 d a b 0x1#6 0x0#4
  | .ptag d a => wordR 0x3#7 d a 0x0#5 0x2#6 0x0#4
  | .ptagset d a b => wordR 0x3#7 d a b 0x3#6 0x0#4
  | .addi d a imm => wordI 0x8#7 d a imm
  | .andi d a imm => wordI 0x9#7 d a imm
  | .ori d a imm => wordI 0xA#7 d a imm
  | .xori d a imm => wordI 0xB#7 d a imm
  | .slli d a imm => wordI 0xC#7 d a (0#9 ++ imm)
  | .srli d a imm => wordI 0xD#7 d a (0#9 ++ imm)
  | .srai d a imm => wordI 0xE#7 d a (0#9 ++ imm)
  | .paddi d a imm => wordI 0xF#7 d a imm
  | .lui d imm => wordU 0x10#7 d imm
  | .faddS d a b rm lk => wordR 0x20#7 d a b (0x0#3 ++ rm) lk
  | .fsubS d a b rm lk => wordR 0x20#7 d a b (0x1#3 ++ rm) lk
  | .fmulS d a b rm lk => wordR 0x20#7 d a b (0x2#3 ++ rm) lk
  | .fdivS d a b rm lk => wordR 0x20#7 d a b (0x3#3 ++ rm) lk
  | .fsqrtS d a rm lk => wordR 0x20#7 d a 0x0#5 (0x4#3 ++ rm) lk
  | .fminS d a b lk => wordR 0x20#7 d a b 0x28#6 lk
  | .fmaxS d a b lk => wordR 0x20#7 d a b 0x30#6 lk
  | .faddD d a b rm lk => wordR 0x21#7 d a b (0x0#3 ++ rm) lk
  | .fsubD d a b rm lk => wordR 0x21#7 d a b (0x1#3 ++ rm) lk
  | .fmulD d a b rm lk => wordR 0x21#7 d a b (0x2#3 ++ rm) lk
  | .fdivD d a b rm lk => wordR 0x21#7 d a b (0x3#3 ++ rm) lk
  | .fsqrtD d a rm lk => wordR 0x21#7 d a 0x0#5 (0x4#3 ++ rm) lk
  | .fminD d a b lk => wordR 0x21#7 d a b 0x28#6 lk
  | .fmaxD d a b lk => wordR 0x21#7 d a b 0x30#6 lk
  | .fmaS d a b rm lk => wordR 0x22#7 d a b (0x0#3 ++ rm) lk
  | .fmsS d a b rm lk => wordR 0x22#7 d a b (0x1#3 ++ rm) lk
  | .fnmaS d a b rm lk => wordR 0x22#7 d a b (0x2#3 ++ rm) lk
  | .fnmsS d a b rm lk => wordR 0x22#7 d a b (0x3#3 ++ rm) lk
  | .fmaD d a b rm lk => wordR 0x23#7 d a b (0x0#3 ++ rm) lk
  | .fmsD d a b rm lk => wordR 0x23#7 d a b (0x1#3 ++ rm) lk
  | .fnmaD d a b rm lk => wordR 0x23#7 d a b (0x2#3 ++ rm) lk
  | .fnmsD d a b rm lk => wordR 0x23#7 d a b (0x3#3 ++ rm) lk
  | .fcmpS d a b cc lk => wordR 0x24#7 d a b (0x0#3 ++ cc) lk
  | .fcmpD d a b cc lk => wordR 0x24#7 d a b (0x4#3 ++ cc) lk
  | .fcvtSD d a rm lk => wordR 0x25#7 d a 0x0#5 (0x0#3 ++ rm) lk
  | .fcvtDS d a rm lk => wordR 0x25#7 d a 0x0#5 (0x1#3 ++ rm) lk
  | .fcvtSL d a rm lk => wordR 0x25#7 d a 0x0#5 (0x2#3 ++ rm) lk
  | .fcvtDL d a rm lk => wordR 0x25#7 d a 0x0#5 (0x3#3 ++ rm) lk
  | .fcvtLS d a rm lk => wordR 0x25#7 d a 0x0#5 (0x4#3 ++ rm) lk
  | .fcvtLD d a rm lk => wordR 0x25#7 d a 0x0#5 (0x5#3 ++ rm) lk
  | .fcvtDLu d a rm lk => wordR 0x25#7 d a 0x0#5 (0x6#3 ++ rm) lk
  | .fcvtLuD d a rm lk => wordR 0x25#7 d a 0x0#5 (0x7#3 ++ rm) lk
  | .beq a b disp => wordB 0x30#7 a b disp
  | .bne a b disp => wordB 0x31#7 a b disp
  | .blt a b disp => wordB 0x32#7 a b disp
  | .bge a b disp => wordB 0x33#7 a b disp
  | .bltu a b disp => wordB 0x34#7 a b disp
  | .bgeu a b disp => wordB 0x35#7 a b disp
  | .bbs a b disp => wordB 0x36#7 a b disp
  | .bbc a b disp => wordB 0x37#7 a b disp
  | .jal disp => wordJ 0x38#7 disp
  | .jalr d a imm => wordI 0x39#7 d a imm
  | .wait d a imm => wordI 0x3A#7 d a (0#10 ++ imm)
  | .ldB d a mode rx off lk => wordM 0x40#7 d a mode rx off lk
  | .ldH d a mode rx off lk => wordM 0x41#7 d a mode rx off lk
  | .ldW d a mode rx off lk => wordM 0x42#7 d a mode rx off lk
  | .ldD d a mode rx off lk => wordM 0x43#7 d a mode rx off lk
  | .ldBu d a mode rx off lk => wordM 0x44#7 d a mode rx off lk
  | .ldHu d a mode rx off lk => wordM 0x45#7 d a mode rx off lk
  | .ldWu d a mode rx off lk => wordM 0x46#7 d a mode rx off lk
  | .stB d a mode rx off => wordM 0x48#7 d a mode rx off 0x0#4
  | .stH d a mode rx off => wordM 0x49#7 d a mode rx off 0x0#4
  | .stW d a mode rx off => wordM 0x4A#7 d a mode rx off 0x0#4
  | .stD d a mode rx off => wordM 0x4B#7 d a mode rx off 0x0#4
  | .ldAcq d a mode off lk => wordM 0x4C#7 d a mode 0x0#1 off lk
  | .stRel d a mode off => wordM 0x4D#7 d a mode 0x0#1 off 0x0#4
  | .fenceScope sc => wordR 0x4E#7 0x0#5 0x0#5 0x0#5 (0x0#3 ++ sc) 0x0#4
  | .fenceLoop => wordR 0x4E#7 0x0#5 0x0#5 0x0#5 0x8#6 0x0#4
  | .amoAddD d a b sc lk => wordR 0x50#7 d a b (0x0#3 ++ sc) lk
  | .amoMinD d a b sc lk => wordR 0x50#7 d a b (0x1#3 ++ sc) lk
  | .amoMaxD d a b sc lk => wordR 0x50#7 d a b (0x2#3 ++ sc) lk
  | .amoXchgD d a b sc lk => wordR 0x50#7 d a b (0x3#3 ++ sc) lk
  | .amoCasD d a b sc lk => wordR 0x50#7 d a b (0x4#3 ++ sc) lk
  | .amoMinuD d a b sc lk => wordR 0x50#7 d a b (0x5#3 ++ sc) lk
  | .amoMaxuD d a b sc lk => wordR 0x50#7 d a b (0x6#3 ++ sc) lk
  | .amoAddW d a b sc lk => wordR 0x51#7 d a b (0x0#3 ++ sc) lk
  | .amoMinW d a b sc lk => wordR 0x51#7 d a b (0x1#3 ++ sc) lk
  | .amoMaxW d a b sc lk => wordR 0x51#7 d a b (0x2#3 ++ sc) lk
  | .amoXchgW d a b sc lk => wordR 0x51#7 d a b (0x3#3 ++ sc) lk
  | .amoCasW d a b sc lk => wordR 0x51#7 d a b (0x4#3 ++ sc) lk
  | .amoMinuW d a b sc lk => wordR 0x51#7 d a b (0x5#3 ++ sc) lk
  | .amoMaxuW d a b sc lk => wordR 0x51#7 d a b (0x6#3 ++ sc) lk
  | .lrw d a mode off lk => wordM 0x52#7 d a mode 0x0#1 off lk
  | .sc d a b lk => wordR 0x53#7 d a b 0x0#6 lk
  | .rupAdd a b sc => wordR 0x54#7 0x0#5 a b (0x0#3 ++ sc) 0x0#4
  | .rupMin a b sc => wordR 0x54#7 0x0#5 a b (0x1#3 ++ sc) 0x0#4
  | .rupMax a b sc => wordR 0x54#7 0x0#5 a b (0x2#3 ++ sc) 0x0#4
  | .rupOr a b sc => wordR 0x54#7 0x0#5 a b (0x3#3 ++ sc) 0x0#4
  | .rupAnd a b sc => wordR 0x54#7 0x0#5 a b (0x4#3 ++ sc) 0x0#4
  | .rupXor a b sc => wordR 0x54#7 0x0#5 a b (0x5#3 ++ sc) 0x0#4
  | .barinit d a b sc => wordR 0x58#7 d a b (0x0#3 ++ sc) 0x0#4
  | .barjoin d a b sc => wordR 0x58#7 d a b (0x1#3 ++ sc) 0x0#4
  | .barwait d a b sc lk => wordR 0x58#7 d a b (0x2#3 ++ sc) lk
  | .barbytes d a b sc => wordR 0x58#7 d a b (0x3#3 ++ sc) 0x0#4
  | .qput d a b => wordR 0x59#7 d a b 0x0#6 0x0#4
  | .qget d a b lk => wordR 0x59#7 d a b 0x1#6 lk
  | .qcfg d a b => wordR 0x59#7 d a b 0x2#6 0x0#4
  | .qstat d a => wordR 0x59#7 d a 0x0#5 0x3#6 0x0#4
  | .hold d a b lk => wordR 0x5A#7 d a b 0x0#6 lk
  | .unhold d a lk => wordR 0x5A#7 d a 0x0#5 0x1#6 lk
  | .heir d a b lk => wordR 0x5A#7 d a b 0x2#6 lk
  | .promise d a lk => wordR 0x5A#7 d a 0x0#5 0x3#6 lk
  | .fulfil d a b => wordR 0x5A#7 d a b 0x4#6 0x0#4
  | .await d a lk => wordR 0x5A#7 d a 0x0#5 0x5#6 lk
  | .estq d a b lk => wordR 0x5A#7 d a b 0x6#6 lk
  | .vadd a b => wordC a b 0x0#3 0x1#8
  | .vsub a b => wordC a b 0x0#3 0x2#8
  | .vmul a b => wordC a b 0x0#3 0x3#8
  | .vdiv a b => wordC a b 0x0#3 0x4#8
  | .vmin a b => wordC a b 0x0#3 0x5#8
  | .vmax a b => wordC a b 0x0#3 0x6#8
  | .vfma a b => wordC a b 0x0#3 0x7#8
  | .vabs a b => wordC a b 0x0#3 0x8#8
  | .vneg a b => wordC a b 0x0#3 0x9#8
  | .vsqrt a b => wordC a b 0x0#3 0xA#8
  | .vcvt a b => wordC a b 0x0#3 0xB#8
  | .vand a b => wordC a b 0x0#3 0x10#8
  | .vor a b => wordC a b 0x0#3 0x11#8
  | .vxor a b => wordC a b 0x0#3 0x12#8
  | .vshl a b => wordC a b 0x0#3 0x13#8
  | .vshr a b => wordC a b 0x0#3 0x14#8
  | .vsum a b => wordC a b 0x0#3 0x18#8
  | .vrmax a b => wordC a b 0x0#3 0x19#8
  | .vrmin a b => wordC a b 0x0#3 0x1A#8
  | .vsumsq a b => wordC a b 0x0#3 0x1B#8
  | .vexp a b => wordC a b 0x0#3 0x20#8
  | .vlog a b => wordC a b 0x0#3 0x21#8
  | .vrcp a b => wordC a b 0x0#3 0x22#8
  | .vrsqrt a b => wordC a b 0x0#3 0x23#8
  | .vtanh a b => wordC a b 0x0#3 0x24#8
  | .vsilu a b => wordC a b 0x0#3 0x25#8
  | .vgelu a b => wordC a b 0x0#3 0x26#8
  | .vfence => wordC 0x0#5 0x0#5 0x0#3 0xF0#8
  | .cpbox a b => wordC a b 0x1#3 0x1#8
  | .cpmc a b => wordC a b 0x1#3 0x2#8
  | .cpcan a b => wordC a b 0x1#3 0x3#8
  | .cpredAddF32 a b => wordC a b 0x1#3 0x10#8
  | .cpredAddBf16 a b => wordC a b 0x1#3 0x11#8
  | .cpredMaxF32 a b => wordC a b 0x1#3 0x12#8
  | .cpredMaxBf16 a b => wordC a b 0x1#3 0x13#8
  | .cpredMinF32 a b => wordC a b 0x1#3 0x14#8
  | .cpredMinBf16 a b => wordC a b 0x1#3 0x15#8
  | .mgath a b => wordC a b 0x2#3 0x1#8
  | .mgang => wordC 0x0#5 0x0#5 0x2#3 0x2#8
  | .mzero a => wordC a 0x0#5 0x2#3 0x8#8
  | .mdrain a b => wordC a b 0x2#3 0x9#8
  | .mband a => wordC a 0x0#5 0x2#3 0xA#8
  | .mmaF4 a b => wordC a b 0x2#3 0x10#8
  | .mmaF8 a b => wordC a b 0x2#3 0x11#8
  | .mmaBf16 a b => wordC a b 0x2#3 0x12#8
  | .mmaI8 a b => wordC a b 0x2#3 0x13#8
  | .acfg a b => wordC a b 0x3#3 0x1#8
  | .acoef a b => wordC a b 0x3#3 0x2#8
  | .ascale a b => wordC a b 0x3#3 0x3#8
  | .arun a => wordC a 0x0#5 0x3#3 0x4#8
  | .ahold a => wordC a 0x0#5 0x3#3 0x5#8
  | .areset a => wordC a 0x0#5 0x3#3 0x6#8
  | .lturn a b => wordC a b 0x4#3 0x1#8
  | .rsvr a b => wordC a b 0x4#3 0x2#8
  | .rpart a b => wordC a b 0x4#3 0x3#8
  | .rep a b len => wordC a b 0x5#3 (len ++ 0#4)
  | .vbusy d a => wordR 0x61#7 d a 0x0#5 0x0#6 0x0#4
  | .vcmpm d a b lk => wordR 0x61#7 d a b 0x1#6 lk
  | .cpstat d a => wordR 0x61#7 d a 0x0#5 0x8#6 0x0#4
  | .cpwait d a lk => wordR 0x61#7 d a 0x0#5 0x9#6 lk
  | .mwait d a lk => wordR 0x61#7 d a 0x0#5 0x10#6 lk
  | .astat d a => wordR 0x61#7 d a 0x0#5 0x18#6 0x0#4
  | .asettle d a b lk => wordR 0x61#7 d a b 0x19#6 lk
  | .asample d a b lk => wordR 0x61#7 d a b 0x1A#6 lk
  | .lstat d a => wordR 0x61#7 d a 0x0#5 0x20#6 0x0#4
  | .grpq d a lk => wordR 0x61#7 d a 0x0#5 0x21#6 lk
  | .sysr d sr => wordS 0x68#7 d 0x0#5 sr 0x0#1
  | .sysw a sr => wordS 0x68#7 0x0#5 a sr 0x1#1
  | .tsr d sr => wordS 0x69#7 d 0x0#5 sr 0x0#1
  | .ewr a eng sr => wordS 0x6A#7 0x0#5 a (eng ++ sr) 0x1#1
  | .trap imm => wordI 0x6B#7 0x0#5 0x0#5 imm
  | .eret => wordR 0x6C#7 0x0#5 0x0#5 0x0#5 0x0#6 0x0#4
  | .uret => wordR 0x6C#7 0x0#5 0x0#5 0x0#5 0x1#6 0x0#4
  | .ctxsave d a b => wordR 0x6D#7 d a b 0x0#6 0x0#4
  | .ctxload d a b => wordR 0x6D#7 d a b 0x1#6 0x0#4
  | .slotw d a b => wordR 0x6D#7 d a b 0x2#6 0x0#4
  | .yield d a => wordR 0x6D#7 d a 0x0#5 0x3#6 0x0#4
  | .migrate d a => wordR 0x6D#7 d a 0x0#5 0x4#6 0x0#4
  | .pin d a => wordR 0x6D#7 d a 0x0#5 0x5#6 0x0#4
  | .launch d a b lk => wordR 0x6E#7 d a b 0x0#6 lk
  | .tlaunch d a b lk => wordR 0x6E#7 d a b 0x1#6 lk
  | .kwait d a lk => wordR 0x6E#7 d a 0x0#5 0x2#6 lk
  | .kstat d a => wordR 0x6E#7 d a 0x0#5 0x3#6 0x0#4
  | .spawn d a b lk => wordR 0x6E#7 d a b 0x8#6 lk
  | .exit => wordR 0x6E#7 0x0#5 0x0#5 0x0#5 0x9#6 0x0#4
  | .kill d a b => wordR 0x6E#7 d a b 0xA#6 0x0#4
  | .send a b => wordR 0x6E#7 0x0#5 a b 0xB#6 0x0#4
  | .recv d a b lk => wordR 0x6E#7 d a b 0xC#6 lk
  | .gstat d a => wordR 0x6E#7 d a 0x0#5 0xD#6 0x0#4
  | .pfq d a b lk => wordR 0x6F#7 d a b 0x0#6 lk
  | .presume d a b => wordR 0x6F#7 d a b 0x1#6 0x0#4
  | .pinv d a b => wordR 0x6F#7 d a b 0x2#6 0x0#4
  | .pgive d a b => wordR 0x6F#7 d a b 0x8#6 0x0#4
  | .ptake d a lk => wordR 0x6F#7 d a 0x0#5 0x9#6 lk
  | .resultArrival _ => 0#32
  | .remoteRequestArrival _ => 0#32
  | .reservationAdmit _ => 0#32
  | .postedStoreTrap _ => 0#32
  | .jrefClear _ _ => 0#32
  | .handlerEntry _ => 0#32
  | .userInterruptDelivery _ => 0#32
  | .hevqRead _ _ => 0#32
  | .sstateWrite _ _ => 0#32
  | .dieretWrite _ _ => 0#32
  | .diemapWrite _ _ => 0#32
  | .asidtabWrite _ => 0#32
  | .eshareWrite _ _ _ => 0#32
  | .mplotWrite _ _ _ => 0#32
  | .bownWrite _ _ => 0#32
  | .pnodeAssign _ => 0#32
  | .pnodeRelease _ => 0#32
  | .vfPause _ => 0#32
  | .vfResume _ => 0#32
  | .hdbRead _ _ _ => 0#32
  | .hostDoorbellWrite _ _ => 0#32
  | .parkedClear _ _ => 0#32
  | .frameBoundary _ => 0#32
  | .energyRefill _ => 0#32
  | .balancingInterval _ => 0#32
  | .migrationSend _ _ _ => 0#32
  | .migrationPacketArrival _ => 0#32
  | .migrationRefusalReturn _ _ => 0#32
  | .vectorOpStart _ => 0#32
  | .vectorBeat _ => 0#32
  | .vectorOpComplete _ _ => 0#32
  | .channelEntryMove _ _ => 0#32
  | .repReissue _ => 0#32
  | .copyOpStart _ => 0#32
  | .copyOpComplete _ _ => 0#32
  | .matrixCmdStart _ => 0#32
  | .gangRelease _ _ => 0#32
  | .matrixCmdComplete _ => 0#32
  | .meadowApply _ => 0#32
  | .settleFreeze _ _ _ _ => 0#32
  | .settleTimeout _ _ _ _ => 0#32
  | .plotSaturation _ _ _ _ => 0#32
  | .calibrationStart _ => 0#32
  | .calibrationEnd _ => 0#32
  | .calibrationStale _ => 0#32
  | .kernelPromiseRelease _ _ => 0#32
  | .kernelTimedStart _ _ => 0#32
  | .kernelPlacement _ _ => 0#32
  | .kernelThreadCreate _ _ => 0#32
  | .kernelDrainEnd _ _ => 0#32
  | .groupKillArrival _ _ _ _ => 0#32
  | .threadEnd _ => 0#32
  | .slotVacate _ => 0#32
  | .messageArrival _ => 0#32
  | .staleResponse _ => 0#32
  | .inboxResend _ => 0#32
  | .conveyanceStart _ => 0#32
  | .conveyanceStep _ => 0#32
  | .arrivalRecordWrite _ => 0#32
  | .ctxsaveRequest _ => 0#32
  | .saveImageWrite _ => 0#32
  | .ctxloadRequest _ => 0#32
  | .divertClearRequest _ _ _ => 0#32
  | .slotwRequest _ _ _ _ => 0#32
  | .qcfgRequest _ _ _ _ _ => 0#32
  | .walkEnd _ => 0#32
  | .presumeRelease _ _ => 0#32
  | .giveRequest _ => 0#32
  | .giveEvent _ => 0#32
  | .giveAdmit _ => 0#32
  | .takeRequest _ => 0#32
  | .linkTurnBoundary _ _ => 0#32
  | .turnSilenceEnd _ _ => 0#32
  | .flitArrival _ _ _ _ => 0#32
  | .flitReplay _ _ => 0#32
  | .returnFlitSend _ _ => 0#32
  | .returnFlitArrival _ _ _ _ => 0#32
  | .auditFlitSend _ _ => 0#32
  | .auditFlitArrival _ _ _ => 0#32
  | .permitBlockRetire _ _ => 0#32
  | .partialArrival _ => 0#32
  | .rootResultWrite _ _ _ _ => 0#32
  | .moduleFailure _ => 0#32
  | .clockSyncMessage _ => 0#32
  | .checkerMismatch _ => 0#32
  | .machineCheck _ => 0#32
  | .quarantine _ _ => 0#32
  | .quarantineMapShift _ => 0#32
  | .beatRetry _ _ _ _ => 0#32
  | .poolBlockRetire _ _ => 0#32
  | .powerOvercurrent => 0#32
  | .powerTrip => 0#32
  | .powerOnReset => 0#32
  | .barnInterruptEntry _ => 0#32
  | .functionLevelReset _ => 0#32
  | .getVersion => 0#32
  | .getCapabilities => 0#32
  | .negotiateAlgorithms => 0#32
  | .getDigests => 0#32
  | .getCertificate => 0#32
  | .challenge _ => 0#32
  | .getMeasurements => 0#32
  | .illegalInstruction w => w
  | .fetchFault _ => 0#32
  | .longLatencyResultArrival _ _ => 0#32
  | .levelledEntryArrival _ _ _ _ => 0#32
  | .killThreadArrival _ _ _ _ => 0#32
  | .portTrainingChange _ _ _ => 0#32

/-- Whether a register code names an operand: codes 12 to 15 are reserved (R33). -/
def regOk (r : Reg) : Bool := !(12 ≤ r.toNat && r.toNat ≤ 15)

/-- Whether a code may name the first register of a pair: p0 to p8 or s0 to s14 (R34). -/
def pairOk (r : Reg) : Bool := r.toNat ≤ 8 || (16 ≤ r.toNat && r.toNat ≤ 30)

/-- The scope codes of R9. -/
def scopeOk (c : BitVec 3) : Bool := c.toNat ≤ 5

/-- Atomics, remote updates and barriers also reject .lane (R43). -/
def objectScopeOk (c : BitVec 3) : Bool := 1 ≤ c.toNat && c.toNat ≤ 5

/-- The rounding-mode codes of R42. -/
def roundOk (c : BitVec 3) : Bool := c.toNat ≤ 4

/-- The conditions of fcmp (R42). -/
def condOk (c : BitVec 3) : Bool := c.toNat ≤ 3

/-- Whether the instruction has a word of its own: the other constructors are steps of the device. -/
def isWord : Instr → Bool
  | .resultArrival _ => false
  | .remoteRequestArrival _ => false
  | .reservationAdmit _ => false
  | .postedStoreTrap _ => false
  | .jrefClear _ _ => false
  | .handlerEntry _ => false
  | .userInterruptDelivery _ => false
  | .hevqRead _ _ => false
  | .sstateWrite _ _ => false
  | .dieretWrite _ _ => false
  | .diemapWrite _ _ => false
  | .asidtabWrite _ => false
  | .eshareWrite _ _ _ => false
  | .mplotWrite _ _ _ => false
  | .bownWrite _ _ => false
  | .pnodeAssign _ => false
  | .pnodeRelease _ => false
  | .vfPause _ => false
  | .vfResume _ => false
  | .hdbRead _ _ _ => false
  | .hostDoorbellWrite _ _ => false
  | .parkedClear _ _ => false
  | .frameBoundary _ => false
  | .energyRefill _ => false
  | .balancingInterval _ => false
  | .migrationSend _ _ _ => false
  | .migrationPacketArrival _ => false
  | .migrationRefusalReturn _ _ => false
  | .vectorOpStart _ => false
  | .vectorBeat _ => false
  | .vectorOpComplete _ _ => false
  | .channelEntryMove _ _ => false
  | .repReissue _ => false
  | .copyOpStart _ => false
  | .copyOpComplete _ _ => false
  | .matrixCmdStart _ => false
  | .gangRelease _ _ => false
  | .matrixCmdComplete _ => false
  | .meadowApply _ => false
  | .settleFreeze _ _ _ _ => false
  | .settleTimeout _ _ _ _ => false
  | .plotSaturation _ _ _ _ => false
  | .calibrationStart _ => false
  | .calibrationEnd _ => false
  | .calibrationStale _ => false
  | .kernelPromiseRelease _ _ => false
  | .kernelTimedStart _ _ => false
  | .kernelPlacement _ _ => false
  | .kernelThreadCreate _ _ => false
  | .kernelDrainEnd _ _ => false
  | .groupKillArrival _ _ _ _ => false
  | .threadEnd _ => false
  | .slotVacate _ => false
  | .messageArrival _ => false
  | .staleResponse _ => false
  | .inboxResend _ => false
  | .conveyanceStart _ => false
  | .conveyanceStep _ => false
  | .arrivalRecordWrite _ => false
  | .ctxsaveRequest _ => false
  | .saveImageWrite _ => false
  | .ctxloadRequest _ => false
  | .divertClearRequest _ _ _ => false
  | .slotwRequest _ _ _ _ => false
  | .qcfgRequest _ _ _ _ _ => false
  | .walkEnd _ => false
  | .presumeRelease _ _ => false
  | .giveRequest _ => false
  | .giveEvent _ => false
  | .giveAdmit _ => false
  | .takeRequest _ => false
  | .linkTurnBoundary _ _ => false
  | .turnSilenceEnd _ _ => false
  | .flitArrival _ _ _ _ => false
  | .flitReplay _ _ => false
  | .returnFlitSend _ _ => false
  | .returnFlitArrival _ _ _ _ => false
  | .auditFlitSend _ _ => false
  | .auditFlitArrival _ _ _ => false
  | .permitBlockRetire _ _ => false
  | .partialArrival _ => false
  | .rootResultWrite _ _ _ _ => false
  | .moduleFailure _ => false
  | .clockSyncMessage _ => false
  | .checkerMismatch _ => false
  | .machineCheck _ => false
  | .quarantine _ _ => false
  | .quarantineMapShift _ => false
  | .beatRetry _ _ _ _ => false
  | .poolBlockRetire _ _ => false
  | .powerOvercurrent => false
  | .powerTrip => false
  | .powerOnReset => false
  | .barnInterruptEntry _ => false
  | .functionLevelReset _ => false
  | .getVersion => false
  | .getCapabilities => false
  | .negotiateAlgorithms => false
  | .getDigests => false
  | .getCertificate => false
  | .challenge _ => false
  | .getMeasurements => false
  | .illegalInstruction _ => false
  | .fetchFault _ => false
  | .longLatencyResultArrival _ _ => false
  | .levelledEntryArrival _ _ _ _ => false
  | .killThreadArrival _ _ _ _ => false
  | .portTrainingChange _ _ _ => false
  | _ => true

/-- The register codes an instruction names (R33). -/
def regsOf : Instr → List Reg
  | .add d a b => [d, a, b]
  | .sub d a b => [d, a, b]
  | .and d a b => [d, a, b]
  | .or d a b => [d, a, b]
  | .xor d a b => [d, a, b]
  | .sll d a b => [d, a, b]
  | .srl d a b => [d, a, b]
  | .sra d a b => [d, a, b]
  | .min d a b => [d, a, b]
  | .max d a b => [d, a, b]
  | .minu d a b => [d, a, b]
  | .maxu d a b => [d, a, b]
  | .sel d a b => [d, a, b]
  | .mul d a b _ => [d, a, b]
  | .mulh d a b _ => [d, a, b]
  | .mulhu d a b _ => [d, a, b]
  | .div d a b _ => [d, a, b]
  | .divu d a b _ => [d, a, b]
  | .rem d a b _ => [d, a, b]
  | .remu d a b _ => [d, a, b]
  | .clz d a => [d, a]
  | .ctz d a => [d, a]
  | .pop d a => [d, a]
  | .bext d a b => [d, a, b]
  | .bdep d a b => [d, a, b]
  | .padd d a b => [d, a, b]
  | .pidx d a b => [d, a, b]
  | .ptag d a => [d, a]
  | .ptagset d a b => [d, a, b]
  | .addi d a _ => [d, a]
  | .andi d a _ => [d, a]
  | .ori d a _ => [d, a]
  | .xori d a _ => [d, a]
  | .slli d a _ => [d, a]
  | .srli d a _ => [d, a]
  | .srai d a _ => [d, a]
  | .paddi d a _ => [d, a]
  | .lui d _ => [d]
  | .faddS d a b _ _ => [d, a, b]
  | .fsubS d a b _ _ => [d, a, b]
  | .fmulS d a b _ _ => [d, a, b]
  | .fdivS d a b _ _ => [d, a, b]
  | .fsqrtS d a _ _ => [d, a]
  | .fminS d a b _ => [d, a, b]
  | .fmaxS d a b _ => [d, a, b]
  | .faddD d a b _ _ => [d, a, b]
  | .fsubD d a b _ _ => [d, a, b]
  | .fmulD d a b _ _ => [d, a, b]
  | .fdivD d a b _ _ => [d, a, b]
  | .fsqrtD d a _ _ => [d, a]
  | .fminD d a b _ => [d, a, b]
  | .fmaxD d a b _ => [d, a, b]
  | .fmaS d a b _ _ => [d, a, b]
  | .fmsS d a b _ _ => [d, a, b]
  | .fnmaS d a b _ _ => [d, a, b]
  | .fnmsS d a b _ _ => [d, a, b]
  | .fmaD d a b _ _ => [d, a, b]
  | .fmsD d a b _ _ => [d, a, b]
  | .fnmaD d a b _ _ => [d, a, b]
  | .fnmsD d a b _ _ => [d, a, b]
  | .fcmpS d a b _ _ => [d, a, b]
  | .fcmpD d a b _ _ => [d, a, b]
  | .fcvtSD d a _ _ => [d, a]
  | .fcvtDS d a _ _ => [d, a]
  | .fcvtSL d a _ _ => [d, a]
  | .fcvtDL d a _ _ => [d, a]
  | .fcvtLS d a _ _ => [d, a]
  | .fcvtLD d a _ _ => [d, a]
  | .fcvtDLu d a _ _ => [d, a]
  | .fcvtLuD d a _ _ => [d, a]
  | .beq a b _ => [a, b]
  | .bne a b _ => [a, b]
  | .blt a b _ => [a, b]
  | .bge a b _ => [a, b]
  | .bltu a b _ => [a, b]
  | .bgeu a b _ => [a, b]
  | .bbs a b _ => [a, b]
  | .bbc a b _ => [a, b]
  | .jal _ => []
  | .jalr d a _ => [d, a]
  | .wait d a _ => [d, a]
  | .ldB d a _ _ _ _ => [d, a]
  | .ldH d a _ _ _ _ => [d, a]
  | .ldW d a _ _ _ _ => [d, a]
  | .ldD d a _ _ _ _ => [d, a]
  | .ldBu d a _ _ _ _ => [d, a]
  | .ldHu d a _ _ _ _ => [d, a]
  | .ldWu d a _ _ _ _ => [d, a]
  | .stB d a _ _ _ => [d, a]
  | .stH d a _ _ _ => [d, a]
  | .stW d a _ _ _ => [d, a]
  | .stD d a _ _ _ => [d, a]
  | .ldAcq d a _ _ _ => [d, a]
  | .stRel d a _ _ => [d, a]
  | .fenceScope _ => []
  | .fenceLoop => []
  | .amoAddD d a b _ _ => [d, a, b]
  | .amoMinD d a b _ _ => [d, a, b]
  | .amoMaxD d a b _ _ => [d, a, b]
  | .amoXchgD d a b _ _ => [d, a, b]
  | .amoCasD d a b _ _ => [d, a, b]
  | .amoMinuD d a b _ _ => [d, a, b]
  | .amoMaxuD d a b _ _ => [d, a, b]
  | .amoAddW d a b _ _ => [d, a, b]
  | .amoMinW d a b _ _ => [d, a, b]
  | .amoMaxW d a b _ _ => [d, a, b]
  | .amoXchgW d a b _ _ => [d, a, b]
  | .amoCasW d a b _ _ => [d, a, b]
  | .amoMinuW d a b _ _ => [d, a, b]
  | .amoMaxuW d a b _ _ => [d, a, b]
  | .lrw d a _ _ _ => [d, a]
  | .sc d a b _ => [d, a, b]
  | .rupAdd a b _ => [a, b]
  | .rupMin a b _ => [a, b]
  | .rupMax a b _ => [a, b]
  | .rupOr a b _ => [a, b]
  | .rupAnd a b _ => [a, b]
  | .rupXor a b _ => [a, b]
  | .barinit d a b _ => [d, a, b]
  | .barjoin d a b _ => [d, a, b]
  | .barwait d a b _ _ => [d, a, b]
  | .barbytes d a b _ => [d, a, b]
  | .qput d a b => [d, a, b]
  | .qget d a b _ => [d, a, b]
  | .qcfg d a b => [d, a, b]
  | .qstat d a => [d, a]
  | .hold d a b _ => [d, a, b]
  | .unhold d a _ => [d, a]
  | .heir d a b _ => [d, a, b]
  | .promise d a _ => [d, a]
  | .fulfil d a b => [d, a, b]
  | .await d a _ => [d, a]
  | .estq d a b _ => [d, a, b]
  | .vadd a b => [a, b]
  | .vsub a b => [a, b]
  | .vmul a b => [a, b]
  | .vdiv a b => [a, b]
  | .vmin a b => [a, b]
  | .vmax a b => [a, b]
  | .vfma a b => [a, b]
  | .vabs a b => [a, b]
  | .vneg a b => [a, b]
  | .vsqrt a b => [a, b]
  | .vcvt a b => [a, b]
  | .vand a b => [a, b]
  | .vor a b => [a, b]
  | .vxor a b => [a, b]
  | .vshl a b => [a, b]
  | .vshr a b => [a, b]
  | .vsum a b => [a, b]
  | .vrmax a b => [a, b]
  | .vrmin a b => [a, b]
  | .vsumsq a b => [a, b]
  | .vexp a b => [a, b]
  | .vlog a b => [a, b]
  | .vrcp a b => [a, b]
  | .vrsqrt a b => [a, b]
  | .vtanh a b => [a, b]
  | .vsilu a b => [a, b]
  | .vgelu a b => [a, b]
  | .vfence => []
  | .cpbox a b => [a, b]
  | .cpmc a b => [a, b]
  | .cpcan a b => [a, b]
  | .cpredAddF32 a b => [a, b]
  | .cpredAddBf16 a b => [a, b]
  | .cpredMaxF32 a b => [a, b]
  | .cpredMaxBf16 a b => [a, b]
  | .cpredMinF32 a b => [a, b]
  | .cpredMinBf16 a b => [a, b]
  | .mgath a b => [a, b]
  | .mgang => []
  | .mzero a => [a]
  | .mdrain a b => [a, b]
  | .mband a => [a]
  | .mmaF4 a b => [a, b]
  | .mmaF8 a b => [a, b]
  | .mmaBf16 a b => [a, b]
  | .mmaI8 a b => [a, b]
  | .acfg a b => [a, b]
  | .acoef a b => [a, b]
  | .ascale a b => [a, b]
  | .arun a => [a]
  | .ahold a => [a]
  | .areset a => [a]
  | .lturn a b => [a, b]
  | .rsvr a b => [a, b]
  | .rpart a b => [a, b]
  | .rep a b _ => [a, b]
  | .vbusy d a => [d, a]
  | .vcmpm d a b _ => [d, a, b]
  | .cpstat d a => [d, a]
  | .cpwait d a _ => [d, a]
  | .mwait d a _ => [d, a]
  | .astat d a => [d, a]
  | .asettle d a b _ => [d, a, b]
  | .asample d a b _ => [d, a, b]
  | .lstat d a => [d, a]
  | .grpq d a _ => [d, a]
  | .sysr d _ => [d]
  | .sysw a _ => [a]
  | .tsr d _ => [d]
  | .ewr a _ _ => [a]
  | .trap _ => []
  | .eret => []
  | .uret => []
  | .ctxsave d a b => [d, a, b]
  | .ctxload d a b => [d, a, b]
  | .slotw d a b => [d, a, b]
  | .yield d a => [d, a]
  | .migrate d a => [d, a]
  | .pin d a => [d, a]
  | .launch d a b _ => [d, a, b]
  | .tlaunch d a b _ => [d, a, b]
  | .kwait d a _ => [d, a]
  | .kstat d a => [d, a]
  | .spawn d a b _ => [d, a, b]
  | .exit => []
  | .kill d a b => [d, a, b]
  | .send a b => [a, b]
  | .recv d a b _ => [d, a, b]
  | .gstat d a => [d, a]
  | .pfq d a b _ => [d, a, b]
  | .presume d a b => [d, a, b]
  | .pinv d a b => [d, a, b]
  | .pgive d a b => [d, a, b]
  | .ptake d a _ => [d, a]
  | .resultArrival _ => []
  | .remoteRequestArrival _ => []
  | .reservationAdmit _ => []
  | .postedStoreTrap _ => []
  | .jrefClear _ _ => []
  | .handlerEntry _ => []
  | .userInterruptDelivery _ => []
  | .hevqRead _ _ => []
  | .sstateWrite _ _ => []
  | .dieretWrite _ _ => []
  | .diemapWrite _ _ => []
  | .asidtabWrite _ => []
  | .eshareWrite _ _ _ => []
  | .mplotWrite _ _ _ => []
  | .bownWrite _ _ => []
  | .pnodeAssign _ => []
  | .pnodeRelease _ => []
  | .vfPause _ => []
  | .vfResume _ => []
  | .hdbRead _ _ _ => []
  | .hostDoorbellWrite _ _ => []
  | .parkedClear _ _ => []
  | .frameBoundary _ => []
  | .energyRefill _ => []
  | .balancingInterval _ => []
  | .migrationSend _ _ _ => []
  | .migrationPacketArrival _ => []
  | .migrationRefusalReturn _ _ => []
  | .vectorOpStart _ => []
  | .vectorBeat _ => []
  | .vectorOpComplete _ _ => []
  | .channelEntryMove _ _ => []
  | .repReissue _ => []
  | .copyOpStart _ => []
  | .copyOpComplete _ _ => []
  | .matrixCmdStart _ => []
  | .gangRelease _ _ => []
  | .matrixCmdComplete _ => []
  | .meadowApply _ => []
  | .settleFreeze _ _ _ _ => []
  | .settleTimeout _ _ _ _ => []
  | .plotSaturation _ _ _ _ => []
  | .calibrationStart _ => []
  | .calibrationEnd _ => []
  | .calibrationStale _ => []
  | .kernelPromiseRelease _ _ => []
  | .kernelTimedStart _ _ => []
  | .kernelPlacement _ _ => []
  | .kernelThreadCreate _ _ => []
  | .kernelDrainEnd _ _ => []
  | .groupKillArrival _ _ _ _ => []
  | .threadEnd _ => []
  | .slotVacate _ => []
  | .messageArrival _ => []
  | .staleResponse _ => []
  | .inboxResend _ => []
  | .conveyanceStart _ => []
  | .conveyanceStep _ => []
  | .arrivalRecordWrite _ => []
  | .ctxsaveRequest _ => []
  | .saveImageWrite _ => []
  | .ctxloadRequest _ => []
  | .divertClearRequest _ _ _ => []
  | .slotwRequest _ _ _ _ => []
  | .qcfgRequest _ _ _ _ _ => []
  | .walkEnd _ => []
  | .presumeRelease _ _ => []
  | .giveRequest _ => []
  | .giveEvent _ => []
  | .giveAdmit _ => []
  | .takeRequest _ => []
  | .linkTurnBoundary _ _ => []
  | .turnSilenceEnd _ _ => []
  | .flitArrival _ _ _ _ => []
  | .flitReplay _ _ => []
  | .returnFlitSend _ _ => []
  | .returnFlitArrival _ _ _ _ => []
  | .auditFlitSend _ _ => []
  | .auditFlitArrival _ _ _ => []
  | .permitBlockRetire _ _ => []
  | .partialArrival _ => []
  | .rootResultWrite _ _ _ _ => []
  | .moduleFailure _ => []
  | .clockSyncMessage _ => []
  | .checkerMismatch _ => []
  | .machineCheck _ => []
  | .quarantine _ _ => []
  | .quarantineMapShift _ => []
  | .beatRetry _ _ _ _ => []
  | .poolBlockRetire _ _ => []
  | .powerOvercurrent => []
  | .powerTrip => []
  | .powerOnReset => []
  | .barnInterruptEntry _ => []
  | .functionLevelReset _ => []
  | .getVersion => []
  | .getCapabilities => []
  | .negotiateAlgorithms => []
  | .getDigests => []
  | .getCertificate => []
  | .challenge _ => []
  | .getMeasurements => []
  | .illegalInstruction _ => []
  | .fetchFault _ => []
  | .longLatencyResultArrival _ _ => []
  | .levelledEntryArrival _ _ _ _ => []
  | .killThreadArrival _ _ _ _ => []
  | .portTrainingChange _ _ _ => []

/-- The engine registers that the engines' chapters define (R195): eng 1 registers 0 to 16 (R224), eng 2 registers 0
to 3 (R242), eng 4 registers 0 to 10 (R451); the other eng codes have none. -/
def engineRegisterOk (eng : BitVec 3) (n : BitVec 9) : Bool :=
  match eng.toNat with
  | 1 => n.toNat ≤ 16
  | 2 => n.toNat ≤ 3
  | 4 => n.toNat ≤ 10
  | _ => false

/-- The sub-fields of a word of the table that a rule leaves some values of reserved: rounding modes and conditions
(R42), scopes (R9, R43), the mask of wait (R127), the engine register of ewr (R195). A system-register number is
checked where its register is known (Machine/Sysreg.lean). -/
def fieldsOk : Instr → Bool
  | .faddS _ _ _ rm _ => roundOk rm
  | .fsubS _ _ _ rm _ => roundOk rm
  | .fmulS _ _ _ rm _ => roundOk rm
  | .fdivS _ _ _ rm _ => roundOk rm
  | .fsqrtS _ _ rm _ => roundOk rm
  | .faddD _ _ _ rm _ => roundOk rm
  | .fsubD _ _ _ rm _ => roundOk rm
  | .fmulD _ _ _ rm _ => roundOk rm
  | .fdivD _ _ _ rm _ => roundOk rm
  | .fsqrtD _ _ rm _ => roundOk rm
  | .fmaS _ _ _ rm _ => roundOk rm
  | .fmsS _ _ _ rm _ => roundOk rm
  | .fnmaS _ _ _ rm _ => roundOk rm
  | .fnmsS _ _ _ rm _ => roundOk rm
  | .fmaD _ _ _ rm _ => roundOk rm
  | .fmsD _ _ _ rm _ => roundOk rm
  | .fnmaD _ _ _ rm _ => roundOk rm
  | .fnmsD _ _ _ rm _ => roundOk rm
  | .fcmpS _ _ _ cc _ => condOk cc
  | .fcmpD _ _ _ cc _ => condOk cc
  | .fcvtSD _ _ rm _ => roundOk rm
  | .fcvtDS _ _ rm _ => roundOk rm
  | .fcvtSL _ _ rm _ => roundOk rm
  | .fcvtDL _ _ rm _ => roundOk rm
  | .fcvtLS _ _ rm _ => roundOk rm
  | .fcvtLD _ _ rm _ => roundOk rm
  | .fcvtDLu _ _ rm _ => roundOk rm
  | .fcvtLuD _ _ rm _ => roundOk rm
  | .wait _ _ imm => imm != 0#5
  | .fenceScope sc => scopeOk sc
  | .amoAddD _ _ _ sc _ => objectScopeOk sc
  | .amoMinD _ _ _ sc _ => objectScopeOk sc
  | .amoMaxD _ _ _ sc _ => objectScopeOk sc
  | .amoXchgD _ _ _ sc _ => objectScopeOk sc
  | .amoCasD _ _ _ sc _ => objectScopeOk sc
  | .amoMinuD _ _ _ sc _ => objectScopeOk sc
  | .amoMaxuD _ _ _ sc _ => objectScopeOk sc
  | .amoAddW _ _ _ sc _ => objectScopeOk sc
  | .amoMinW _ _ _ sc _ => objectScopeOk sc
  | .amoMaxW _ _ _ sc _ => objectScopeOk sc
  | .amoXchgW _ _ _ sc _ => objectScopeOk sc
  | .amoCasW _ _ _ sc _ => objectScopeOk sc
  | .amoMinuW _ _ _ sc _ => objectScopeOk sc
  | .amoMaxuW _ _ _ sc _ => objectScopeOk sc
  | .rupAdd _ _ sc => objectScopeOk sc
  | .rupMin _ _ sc => objectScopeOk sc
  | .rupMax _ _ sc => objectScopeOk sc
  | .rupOr _ _ sc => objectScopeOk sc
  | .rupAnd _ _ sc => objectScopeOk sc
  | .rupXor _ _ sc => objectScopeOk sc
  | .barinit _ _ _ sc => objectScopeOk sc
  | .barjoin _ _ _ sc => objectScopeOk sc
  | .barwait _ _ _ sc _ => objectScopeOk sc
  | .barbytes _ _ _ sc => objectScopeOk sc
  | .ewr _ eng sr => engineRegisterOk eng sr
  | _ => true

/-- The register codes are assigned, and a pair begins where R34 lets it. -/
def operandsOk (i : Instr) : Bool :=
  (regsOf i).all regOk && (match i with
    | .asample d _ _ _ => pairOk d
    | _ => true)

/-- The lookahead count of a long-latency instruction (R36); 0 for every other. -/
def lookaheadOf : Instr → BitVec 4
  | .mul _ _ _ lk => lk
  | .mulh _ _ _ lk => lk
  | .mulhu _ _ _ lk => lk
  | .div _ _ _ lk => lk
  | .divu _ _ _ lk => lk
  | .rem _ _ _ lk => lk
  | .remu _ _ _ lk => lk
  | .faddS _ _ _ _ lk => lk
  | .fsubS _ _ _ _ lk => lk
  | .fmulS _ _ _ _ lk => lk
  | .fdivS _ _ _ _ lk => lk
  | .fsqrtS _ _ _ lk => lk
  | .fminS _ _ _ lk => lk
  | .fmaxS _ _ _ lk => lk
  | .faddD _ _ _ _ lk => lk
  | .fsubD _ _ _ _ lk => lk
  | .fmulD _ _ _ _ lk => lk
  | .fdivD _ _ _ _ lk => lk
  | .fsqrtD _ _ _ lk => lk
  | .fminD _ _ _ lk => lk
  | .fmaxD _ _ _ lk => lk
  | .fmaS _ _ _ _ lk => lk
  | .fmsS _ _ _ _ lk => lk
  | .fnmaS _ _ _ _ lk => lk
  | .fnmsS _ _ _ _ lk => lk
  | .fmaD _ _ _ _ lk => lk
  | .fmsD _ _ _ _ lk => lk
  | .fnmaD _ _ _ _ lk => lk
  | .fnmsD _ _ _ _ lk => lk
  | .fcmpS _ _ _ _ lk => lk
  | .fcmpD _ _ _ _ lk => lk
  | .fcvtSD _ _ _ lk => lk
  | .fcvtDS _ _ _ lk => lk
  | .fcvtSL _ _ _ lk => lk
  | .fcvtDL _ _ _ lk => lk
  | .fcvtLS _ _ _ lk => lk
  | .fcvtLD _ _ _ lk => lk
  | .fcvtDLu _ _ _ lk => lk
  | .fcvtLuD _ _ _ lk => lk
  | .ldB _ _ _ _ _ lk => lk
  | .ldH _ _ _ _ _ lk => lk
  | .ldW _ _ _ _ _ lk => lk
  | .ldD _ _ _ _ _ lk => lk
  | .ldBu _ _ _ _ _ lk => lk
  | .ldHu _ _ _ _ _ lk => lk
  | .ldWu _ _ _ _ _ lk => lk
  | .ldAcq _ _ _ _ lk => lk
  | .amoAddD _ _ _ _ lk => lk
  | .amoMinD _ _ _ _ lk => lk
  | .amoMaxD _ _ _ _ lk => lk
  | .amoXchgD _ _ _ _ lk => lk
  | .amoCasD _ _ _ _ lk => lk
  | .amoMinuD _ _ _ _ lk => lk
  | .amoMaxuD _ _ _ _ lk => lk
  | .amoAddW _ _ _ _ lk => lk
  | .amoMinW _ _ _ _ lk => lk
  | .amoMaxW _ _ _ _ lk => lk
  | .amoXchgW _ _ _ _ lk => lk
  | .amoCasW _ _ _ _ lk => lk
  | .amoMinuW _ _ _ _ lk => lk
  | .amoMaxuW _ _ _ _ lk => lk
  | .lrw _ _ _ _ lk => lk
  | .sc _ _ _ lk => lk
  | .barwait _ _ _ _ lk => lk
  | .qget _ _ _ lk => lk
  | .hold _ _ _ lk => lk
  | .unhold _ _ lk => lk
  | .heir _ _ _ lk => lk
  | .promise _ _ lk => lk
  | .await _ _ lk => lk
  | .estq _ _ _ lk => lk
  | .vcmpm _ _ _ lk => lk
  | .cpwait _ _ lk => lk
  | .mwait _ _ lk => lk
  | .asettle _ _ _ lk => lk
  | .asample _ _ _ lk => lk
  | .grpq _ _ lk => lk
  | .launch _ _ _ lk => lk
  | .tlaunch _ _ _ lk => lk
  | .kwait _ _ lk => lk
  | .spawn _ _ _ lk => lk
  | .recv _ _ _ lk => lk
  | .pfq _ _ _ lk => lk
  | .ptake _ _ lk => lk
  | _ => 0#4

/-- The instructions that their entries reserve to the privileged view (R194, R197, R284, R293, R371, R417, R452);
the system registers have their own views (Machine/Sysreg.lean). -/
def privilegedInstr : Instr → Bool
  | .qcfg _ _ _ => true
  | .lturn _ _ => true
  | .rsvr _ _ => true
  | .tsr _ _ => true
  | .eret => true
  | .ctxsave _ _ _ => true
  | .ctxload _ _ _ => true
  | .slotw _ _ _ => true
  | .pfq _ _ _ _ => true
  | .presume _ _ _ => true
  | .pinv _ _ _ => true
  | _ => false

/-- The words that a system core has no unit for (R17, R50): majors 0x60 to 0x67, and a memory instruction of the M
format with mode here. -/
def unitWord (w : IWord) : Bool :=
  let op := (opOf w).toNat
  (0x60 ≤ op && op ≤ 0x67) ||
    (((0x40 ≤ op && op ≤ 0x46) || (0x48 ≤ op && op ≤ 0x4D) || op == 0x52) && modeOf w == 3#2)

/-- The majors that R40 assigns. -/
def majorAssigned (n : Nat) : Bool :=
  (1 ≤ n && n ≤ 3) || (8 ≤ n && n ≤ 0x10) || (0x20 ≤ n && n ≤ 0x25) || (0x30 ≤ n && n ≤ 0x3A) ||
    (0x40 ≤ n && n ≤ 0x46) || (0x48 ≤ n && n ≤ 0x4E) || (0x50 ≤ n && n ≤ 0x54) || (0x58 ≤ n && n ≤ 0x5A) ||
    n == 0x60 || n == 0x61 || (0x68 ≤ n && n ≤ 0x6F)

/-- The same word with its lookahead count cleared, where the format has one: the S format has none (R30). -/
def clearLookahead (w : IWord) : IWord :=
  if 0x68 ≤ (opOf w).toNat ∧ (opOf w).toNat ≤ 0x6A then w else w &&& 0xFFFFFFF0#32

/-- Memory holds a word in little-endian order (R3): the word that the
first four bytes of a list make, and the rest of the list. -/
def wordOfBytes : List Byte → Option (IWord × List Byte)
  | b0 :: b1 :: b2 :: b3 :: rest => some (b3 ++ b2 ++ b1 ++ b0, rest)
  | _ => none

/-- The bytes of a word as memory holds them. -/
def bytesOfWord (w : IWord) : List Byte :=
  [w.extractLsb' 0 8, w.extractLsb' 8 8, w.extractLsb' 16 8, w.extractLsb' 24 8]

/-- Decoding, total on any bytes: the instruction of the first word, with the rest of the bytes. -/
def decodeBytes (bs : List Byte) : Option (Instr × List Byte) :=
  match wordOfBytes bs with
  | some (w, rest) => (decode w).map (·, rest)
  | none => none

/-- What the decoder reads from the word that the opcode table numbers w: every row of the table is one 32-bit
word. -/
def decodeTableWord (nbits w : Nat) : Option Instr :=
  (decodeBytes (bytesOfWord (BitVec.ofNat 32 (w % 2 ^ nbits)))).map Prod.fst

end Sys2Proof
end

