-- ==== Sys2Proof/Config.lean ====
section
/-! DEFINITION. What the manual leaves open, or leaves to one part's fuses: constants WITHOUT A BODY, so that no proof
can see a value of them, and a claim about the model holds whatever they are (each is
marked, with its log entry). A free value that may differ each time is a function of the plain counter State.nonce, which every use advances. -/

namespace Sys2Proof

/-- Which of the pending steps of the package happens next: arrivals, engine steps and issue opportunities of
different agents have no fixed order (R143, R147, R495; log 2, DEDUCED). -/
opaque Config.choice : Nat → Nat

/-- The error of the Meadow's converter at integrator i of a plot (die, plot, i) whose state is x, in units of 2^-32 full
scale (R273, R276; log 3, DESIGN CHOICE). -/
opaque Config.adcError : Nat → Nat → Nat → Int → Int

/-- The error of summer i of a plot at one edge, in units of 2^-32 full scale: what its real coefficients, its gain and its
comparator add to the programmed network (R262, R271, R276; log 4, DESIGN CHOICE). -/
opaque Config.summerError : Nat → Nat → Int

/-- What integrator i of a plot moves within one edge beside y / τ times 1 ns, in units of 2^-32 full scale: the real
movement is continuous, and within an edge y is not constant (R261; log 4, DESIGN CHOICE); Plot.bend bounds it. -/
opaque Config.drift : Nat → Nat → Int

/-- The converter error EA that one calibration of one plot finds, in units of 2^-20 (R276, R278; log 4,
DESIGN CHOICE). -/
opaque Config.calEA : Nat → BitVec 16

/-- The network error ETA that one calibration of one plot finds, in units of 2^-20 (R276, R278; log 4,
DESIGN CHOICE). -/
opaque Config.calETA : Nat → BitVec 16

/-- The fuses of a compute core's slice: which of the rows still enabled the n-th of the 8 disabled rows is (R241; log 23,
DESIGN CHOICE). -/
opaque Config.mdis : Nat → Nat → BitVec 64

/-- SHA-384 over a byte string: the manual names the algorithm and this model does not compute it (R70, R486,
R488; log 7, DESIGN CHOICE). -/
opaque Config.sha384 : List (BitVec 8) → BitVec 384

/-- Whether an ECDSA P-384 signature (the 128-byte block of R70) verifies under a public key over a message (log 7,
DESIGN CHOICE). -/
opaque Config.ecdsaVerify : List (BitVec 8) → List (BitVec 8) → List (BitVec 8) → Bool

/-- The signature that the device key gives over a message (R488): the key never leaves the root of trust
(log 7, DESIGN CHOICE). -/
opaque Config.deviceSign : List (BitVec 8) → List (BitVec 8)

/-- The device certificate chain of the root of trust, as bytes (R488; log 7, DESIGN CHOICE). -/
opaque Config.deviceCert : List (BitVec 8)

/-- The fused hash of the root key (R486; log 7, DESIGN CHOICE). -/
opaque Config.fusedKeyHash : BitVec 384

/-- The fused minimum security version (R486; log 7, DESIGN CHOICE). -/
opaque Config.fusedMinSvn : BitVec 6

/-- The ROM's bytes, measured as measurement 1 (R488; log 7, DESIGN CHOICE). -/
opaque Config.romImage : List (BitVec 8)

/-- Which TLB entry a full TLB drops: replacement is not architectural (R407; log 24,
DESIGN CHOICE). -/
opaque Config.tlbVictim : Nat → Nat

/-- What a load reads from a Loft line the slab could not copy, or from any place the device gives no value: used
only where a rule says that a value results and does not say which (log 25, DESIGN CHOICE). -/
opaque Config.freeWord : Nat → BitVec 64

/-- The lane groups in which a flit that passes a port has errors: none where its CRC is good (R434, R471; log 18,
DESIGN CHOICE). -/
opaque Config.flitErrors : Nat → BitVec 8

/-- Whether a return flit arrives with a good CRC (R443; log 18, DESIGN CHOICE). -/
opaque Config.goodReturn : Nat → Bool

/-- This module's number in the pod (R451; log 11, DESIGN CHOICE). -/
opaque Config.ownModule : Nat

/-- The modules of the pod membership table at reset, this one included (R449; log 11, DESIGN CHOICE). -/
opaque Config.podModules : Nat

/-- Whether the copy of a quarantined core's share could read a line (R463; log 26, DESIGN CHOICE). -/
opaque Config.lineReadable : Nat → Bool

end Sys2Proof
end

