-- ==== Sys2Proof/Machine/State.lean ====
section
/-! DEFINITION. The state of one module: its threads, cores, dies and package registers, its memory, and the steps
that are under way. Every field is plain data. Machine/Ops.lean and its neighbours read and write it. -/

namespace Sys2Proof.Machine

/-- A table from numbers to values. A number that is not listed has the table's default (Machine/Table.lean). -/
abbrev Tab (α : Type) := List (Nat × α)

/-- A step of the device that is under way, or that the outside world has asked for: what State.work and State.due
hold (Machine/Events.lean says what each does). Most stand for the row of the opcode table, and the constructor of Instr, of
the same name; the others are parts of such a row's step that come later than its first (a payload's read, the stores of a
closed window, an answer's way home, a partial's flits), or steps of the outside world that the manual names outside the
table. The steps that an instruction or an issue opportunity takes at once have no event. -/
inductive Event where
  | resultArrival (r : Response)
  | remoteRequestArrival (r : Request)
  | reservationAdmit (core : Nat)
  | hostDoorbellWrite (f : Nat) (v : BitVec 64)
  | frameBoundary (core : Nat)
  | energyRefill (core : Nat)
  | balancingInterval (core : Nat)
  | migrationSend (key : Nat) (dst : Nat) (cause : MigCause)
  | migrationPacketArrival (p : MigPacket) (ck : Nat)
  | packetTake (core : Nat)
  | migrationRefusalReturn (p : MigPacket) (status : Nat)
  | vectorOpStart (core : Nat)
  | vectorBeat (core : Nat)
  | vectorOpComplete (core : Nat) (id : Nat)
  | channelEntryMove (core : Nat) (ch : Nat)
  | repReissue (key : Nat)
  | copyOpStart (core : Nat)
  | copyOpComplete (core : Nat) (id : Nat)
  | matrixCmdStart (core : Nat)
  | gangRelease (die : Nat) (quad : Nat)
  | matrixCmdComplete (core : Nat)
  | meadowApply (r : MeadowReq)
  | settleFreeze (die : Nat) (plot : Nat) (key : Nat) (wid : Nat)
  | settleTimeout (die : Nat) (plot : Nat) (key : Nat) (wid : Nat)
  | plotSaturation (die : Nat) (plot : Nat) (sum : Bool) (ix : Nat)
  | calibrationStart (die : Nat)
  | calibrationEnd (die : Nat)
  | calibrationStale (die : Nat)
  | kernelPromiseRelease (die : Nat) (ix : Nat)
  | kernelTimedStart (die : Nat) (ix : Nat)
  | kernelPlacement (die : Nat) (ix : Nat)
  | kernelThreadCreate (die : Nat) (ix : Nat)
  | kernelDrainEnd (die : Nat) (group : BitVec 16)
  | groupKillArrival (key : Nat) (d : BitVec 5) (asid : BitVec 16) (group : BitVec 16)
  | threadEnd (key : Nat)
  | slotVacate (key : Nat)
  | messageArrival (m : Msg)
  | staleResponse (m : Msg)
  | inboxResend (m : Msg) (ck : Nat)
  | payloadRead (m : Msg) (rs : List Request)
  | storeIssue (rs : List Request)
  | conveyanceStart (group : BitVec 16)
  | conveyanceStep (group : BitVec 16)
  | arrivalRecordWrite (group : BitVec 16)
  | ctxsaveRequest (r : CtxReq)
  | saveImageWrite (r : CtxReq)
  | ctxloadRequest (r : CtxReq)
  | divertClearRequest (core : Nat) (asid : BitVec 16) (area : BitVec 64) (src : Nat)
  | slotwRequest (key : Nat) (d : BitVec 5) (core : Nat) (v : BitVec 64)
  | qcfgRequest (key : Nat) (d : BitVec 5) (core : Nat) (q : Nat) (v : BitVec 64)
  | walkEnd (key : Nat)
  | presumeRelease (name : BitVec 22) (defer : Bool) (die : Nat)
  | giveRequest (r : GiveReq)
  | giveEvent (r : GiveReq)
  | giveAdmit (core : Nat)
  | takeRequest (r : Request)
  | linkTurnBoundary (die : Nat) (port : Nat)
  | turnSilenceEnd (die : Nat) (port : Nat)
  | flitArrival (die : Nat) (port : Nat) (cls : Nat) (bad : BitVec 8)
  | flitReplay (die : Nat) (port : Nat)
  | returnFlitSend (die : Nat) (port : Nat)
  | returnFlitArrival (die : Nat) (port : Nat) (good : Bool) (ret : List (BitVec 16))
  | auditFlitSend (die : Nat) (port : Nat)
  | auditFlitArrival (die : Nat) (port : Nat) (sent : List (BitVec 16))
  | permitBlockRetire (die : Nat) (port : Nat)
  | partialArrival (p : Partial)
  | rootResultWrite (core : Nat) (ctx : Nat) (epoch : BitVec 16) (v : List (BitVec 64))
  | moduleFailure (m : Nat)
  | clockSyncMessage (ppm : Int)
  | laneCharge (core : Nat) (lane : Nat)
  | poolError (core : Nat) (block : Nat) (double : Bool)
  | permitError (die : Nat) (port : Nat) (block : Nat) (double : Bool)
  | clockStep (t : BitVec 64)
  | coreRelease (core : Nat) (pc : BitVec 64)
  | bindRequest (asid : BitVec 16) (file : List (BitVec 8)) (bases : List Nat) (area : Nat) (stores : List (Nat × BitVec 64))
  | unbindRequest (asid : BitVec 16) (id : Nat)
  | keyTableInstall (asid : BitVec 16) (keys : List (List (BitVec 8)))
  | checkerMismatch (key : Nat)
  | resultMismatch (key : Nat) (wid : Nat)
  | lineError (line : Nat) (double : Bool)
  | inboxError (core : Nat) (cls : Nat) (n : Nat)
  | machineCheck (key : Nat)
  | quarantine (core : Nat) (cause : BitVec 3)
  | quarantineMapShift (core : Nat)
  | beatRetry (core : Nat) (lane : Nat) (off : BitVec 24) (givenUp : Bool)
  | poolBlockRetire (core : Nat) (block : Nat)
  | powerOvercurrent
  | powerTrip
  | powerOnReset
  | functionLevelReset (vf : Nat)
  | getVersion
  | getCapabilities
  | negotiateAlgorithms
  | getDigests
  | getCertificate
  | challenge (nonce : BitVec 256)
  | getMeasurements
  | longLatencyResultArrival (key : Nat) (wid : Nat)
  | levelledEntryArrival (core : Nat) (q : Nat) (src : Nat) (entry : List (BitVec 64))
  | killThreadArrival (key : Nat) (d : BitVec 5) (asid : BitVec 16) (name : BitVec 22)
  | portTrainingChange (die : Nat) (port : Nat) (up : Bool)
  | answerArrival (src : Nat) (key : Nat) (d : BitVec 5) (v : BitVec 64)
  | partialLeaves (p : Partial) (port : Nat)
  deriving DecidableEq, Repr

/-- The views of a thread (R185, R475): user, the guest view of one virtual function, the hypervisor view. -/
inductive View where
  | user
  | guest (vf : Nat)
  | hypervisor
  deriving DecidableEq, Repr

/-- SSTATE (R188). -/
inductive SlotState where
  | run | trapped | pagewait | ended | empty
  deriving DecidableEq, Repr

/-- What a window's close does (R37, R34, R160, R334, R418): write one register or a pair, store words to a buffer and
write a register (the stores were formed and translated at issue), read a completion object, a kernel record or MSTATUS
at that moment (R237, R318, R255), write nothing, or write nothing because the access
was refused under a journal entry. -/
inductive Result where
  | one (v : Word)
  | two (v w : Word)
  | buffer (v : Word) (stores : List Request)
  | object (cell : Nat)
  | kernel (handle : Nat) (asid : Option (BitVec 16))
  | mstatus (clear : Bool)
  | nothing
  | refused (jent : Nat)
  deriving DecidableEq, Repr

/-- Whether the result of a window is there (R37, R495): not yet known, known but on its way, arrived. -/
inductive Arrival where
  | pending
  | later (r : Result)
  /-- its value is there, but its stores have lost their translation (R420) -/
  | dropped (v : Word) (stores : List Request)
  | ready (r : Result)
  deriving DecidableEq, Repr

/-- A lookahead window (R37, R291): the destination code, the count that remains, the kind (event: E), the
instruction word, its address and its operands, whether the thread's later memory accesses are held back (R494), and
whether the checker's first comparison of its result failed (R459). -/
structure Window where
  id : Nat
  dest : Reg
  count : Nat
  event : Bool
  holds : Bool
  word : IWord
  pc : Word
  a : Word
  b : Word
  mismatch : Bool
  /-- the instruction waits to be issued again (R459) -/
  retry : Bool
  arrival : Arrival
  deriving DecidableEq, Repr

/-- An outstanding access (R147, R148): its number, whether it is relaxed, whether it goes to the core's own buffers
(R142), and the address it was translated from, for a translated access that a pinv or a give waits for (R420, R424). -/
structure Outstanding where
  aid : Nat
  relaxed : Bool
  own : Bool
  va : Option Nat
  deriving DecidableEq, Repr

/-- Why a thread that could issue does not (R283): it waits for the answer of an S instruction that writes d, for the
condition of a fence, fence.loop or vfence (R44, R142, R217), for the end of a calibration block (R278), for a page walk, or
it is being migrated. -/
inductive Hold where
  | none
  | answer (d : Reg)
  | block
  | fence
  | loop
  | vfence
  | walk
  | migrating
  deriving DecidableEq, Repr

/-- The sleep of wait and yield (R127, R304): whether it is yield's, wait's mask, and the register a, which is read again
at each later opportunity. -/
structure Sleep where
  asYield : Bool
  mask : BitVec 5
  reg : Reg
  deriving DecidableEq, Repr

/-- A page walk under way (R409): what missed, and the die's PRCNT when the walk began. -/
structure Walk where
  va : Word
  kind : Nat
  asid : BitVec 16
  prcnt : BitVec 16
  /-- the level whose table is read next, and the entry that led there (R404); none at the start -/
  level : Nat
  entry : Option Word
  deriving DecidableEq, Repr

/-- The walk of an address of a context from its start (R404, R409). -/
def Walk.start (va : Word) (kind : Nat) (asid prcnt : BitVec 16) : Walk :=
  { va := va, kind := kind, asid := asid, prcnt := prcnt, level := 5, entry := none }

/-- The walk begins again from the ASID table (R409, R420, R425). -/
def Walk.again (w : Walk) : Walk := { w with level := 5, entry := none }

/-- A thread slot of a compute core, or the thread of a system core, with the thread in it. -/
structure Thread where
  sstate : SlotState
  /-- the slot's generation (R280) -/
  gen : BitVec 8
  pinned : Bool
  asid : BitVec 16
  group : BitVec 16
  tnum : BitVec 16
  view : View
  /-- byte address of the next instruction (R125) -/
  pc : Word
  /-- p0 to p9 in use (R33) -/
  p : Vector Word 10
  /-- the p0 to p3 set that the user-level handler does not use (R191) -/
  ualt : Vector Word 4
  /-- the p0 to p3 set that the privileged handler does not use (R183) -/
  xalt : Vector Word 4
  q : Word
  /-- open windows, oldest first -/
  windows : List Window
  /-- the windows frozen by a user-level interrupt (R39, R191) -/
  frozen : List Window
  /-- the windows held by a privileged handler entry (R39, R183) -/
  held : List Window
  /-- event latch (R126); bit 0 is never set -/
  latch : BitVec 5
  /-- sequence counter of stochastic rounding (R88) -/
  seq : BitVec 32
  /-- UVEC, UPC, USTAT.IN, USTAT.IP, USTAT.IE (R190) -/
  uvec : Word
  upc : Word
  uin : Bool
  /-- the view to which uret returns (R191) -/
  uview : View
  uip : BitVec 3
  uie : BitVec 3
  /-- the p1 that the next delivery of each interrupt source gives (R191): ENGINE (with the eng code), ESTATE, MSG -/
  argEngine : Word
  argEng : BitVec 3
  argEstate : Word
  argMsg : Word
  /-- EPC, CAUSE, TVAL of a user slot (R179) -/
  epc : Word
  cause : Word
  tval : Word
  /-- XPC, XCAUSE, XVAL, TVEC, TSEL, XSTAT of slot 7 and of a system core (R185, R187, R188) -/
  xpc : Word
  xcause : Word
  xval : Word
  tvec : Word
  tsel : BitVec 3
  xin : Bool
  xdouble : Bool
  /-- the view to which eret returns (R183) -/
  xview : View
  /-- BSEL of slot 7 and of a system core (R347) -/
  bsel : Word
  /-- VSTATUS and MSTATUS (R216, R255) -/
  vstatus : Word
  mstatus : Word
  /-- engine registers of the slot: copy 0 to 16, matrix 0 to 3, link 0 to 10 (R224, R242, R451) -/
  copyRegs : Vector Word 17
  matRegs : Vector Word 4
  linkRegs : Vector Word 11
  outst : List Outstanding
  /-- POSTED traps not yet taken, as journal entry numbers and the addresses refused, the oldest refusal first (R179, R181) -/
  posted : List (Nat × Word)
  hold : Hold
  walk : Option Walk
  /-- the walk for an open window whose access takes its place again (R39, R408, R420) -/
  rewalk : Option Walk
  /-- the thread sleeps in wait or yield (R127, R304) -/
  sleep : Option Sleep
  /-- the R144 test has already answered for the instruction at the PC: perform it remotely (R144, R301); or its pinv
  has dropped what it drops (R420) -/
  stay : Bool
  /-- the thread's group was killed, or the thread alone was ended, and it has not met its ending yet (R323) -/
  killed : Bool
  /-- the cause of the member loss that it will end by: 1 CHECKER, 2 SSTATE, 3 KILL, and 0 none (R324) -/
  lossCause : Nat
  /-- the first comparison of the checker failed for the instruction being reissued (R459) -/
  mismatch : Bool
  /-- the next issue opportunity is the one that the issue that failed has used (R459) -/
  spent : Bool
  /-- created since the core's last frame boundary: it does not issue before the next (R311, R337) -/
  fresh : Bool
  deriving DecidableEq, Repr

/-- An entry of a core's posted-store journal (R158, R161): what the registers report. -/
structure JournalEntry where
  busy : Bool
  ref : Bool
  kind : Nat
  cause : BitVec 4
  mode : BitVec 2
  size : Nat
  ea : Word
  data : Word
  eng : BitVec 3
  slot : Nat
  gen : BitVec 8
  time : Word
  deriving DecidableEq, Repr

/-- A position in a reservation queue (R152): the doubleword's cell, the owner (a thread by ASID, group and number, or
a group alone), the absent mark, and how its waiting lrw is answered. -/
structure Reservation where
  cell : Nat
  asid : BitVec 16
  group : BitVec 16
  /-- none: the group holds it as a group (R384) -/
  tnum : Option (BitVec 16)
  absent : Bool
  /-- the request that waits for the grant; none once granted -/
  waiting : Option Request
  /-- the order in which reservations were granted (R382) -/
  seq : Nat
  deriving DecidableEq, Repr

/-- A TLB entry (R407): ASID, page base, size code, the leaf, and where the leaf stands (R423). -/
structure TlbEntry where
  asid : BitVec 16
  base : Word
  level : Nat
  leaf : Word
  leafCell : Nat
  deriving DecidableEq, Repr

/-- A DIVERT entry (R287). -/
structure Divert where
  valid : Bool
  asid : BitVec 16
  addr : BitVec 36
  deriving DecidableEq, Repr

/-- CTXST.STATE (R287). -/
inductive Residence where
  | free | loaded | running | preempting | resuming | migratingOut
  deriving DecidableEq, Repr

/-- Whether a core works (R463, R464): a core in quarantine, and a logical core retired with no substitute. -/
inductive Health where
  | good | quarantined | retired
  deriving DecidableEq, Repr

/-- A vector operation in the core's queue (R199, R213, R223): the operand block's A-buffer offset, the mask b, the
counter value n, the rounding seed in force at its issue (R287), cmd (vcmpm has its window), the accesses of its thread
that it waits for (R170); and once started the three records as numbers, the element at which the next beat begins, the beat half of a special function, a
reduction's accumulator, the flags and error so far, the element codes on their way to and from channels, vcmpm's
mask. -/
structure VecOp where
  id : Nat
  key : Nat
  block : Nat
  mask : Word
  n : BitVec 32
  seed : Word
  cmd : Nat
  wid : Option Nat
  fork : List Nat
  started : Bool
  recD : Nat
  recX : Nat
  recY : Nat
  next : Nat
  half : Bool
  acc : Nat
  first : Bool
  flags : BitVec 5
  err : Nat
  done : Bool
  out : List Nat
  inX : List Nat
  inY : List Nat
  m : Word
  /-- a save has put its channel entries away (R223) -/
  parked : Bool
  deriving DecidableEq, Repr

/-- A repetition sequence of a slot (R221): the captured words, p0 to p9 and q at the rep, count, stagger, base, the
rounding seed in force at the rep (R287), the accesses outstanding at the rep (R170), the position k, j reached, and, at a captured vfence, the counter's value when
the sequencer met it: the operations with smaller numbers hold it (R222). -/
structure RepSeq where
  id : Nat
  key : Nat
  words : List IWord
  p : Vector Word 10
  q : Word
  count : Nat
  stagger : Nat
  base : BitVec 32
  seed : Word
  fork : List Nat
  k : Nat
  j : Nat
  fence : Option Nat
  deriving DecidableEq, Repr

/-- A refused access of a copy operation (R158): its cause, mode, bytes and address. -/
structure CopyRefusal where
  cause : BitVec 4
  mode : BitVec 2
  size : Nat
  ea : Word
  deriving DecidableEq, Repr

/-- A copy operation of the core (R229 to R236): its command value, completion object pointer, synchronisation word, the
snapshot of the slot's register bank, the accesses it waits for (R170), whether it has started, how many first pages its
start has looked up (R234), a refusal that waits for a free journal entry (R158), the walk number reached, the elements
written to each destination core, its flags and error so far, whether it has ended. -/
structure CopyOp where
  id : Nat
  key : Nat
  cmd : Nat
  obj : Word
  sync : Word
  regs : Vector Word 17
  fork : List Nat
  started : Bool
  probed : Nat
  refusal : Option CopyRefusal
  next : Nat
  /-- the present element: its value, once it is read, and how many destination cores have it (R226, R232) -/
  value : Option Nat
  sent : Nat
  /-- the start has found a first page whose layout differs from its side's mode (R234) -/
  badLayout : Bool
  written : Tab Nat
  flags : BitVec 5
  err : Nat
  done : Bool
  deriving DecidableEq, Repr

/-- A matrix command in the core's queue (R243): cmd, the operands a and b, the counter value n, the rounding seed in force
at its issue (R287), the snapshot of the
slot's register bank, the accesses it waits for (R170), whether it has started, and what it has come to: its error code
and flags. -/
structure MatOp where
  id : Nat
  key : Nat
  cmd : Nat
  a : Word
  b : Word
  n : BitVec 32
  seed : Word
  regs : Vector Word 4
  fork : List Nat
  started : Bool
  err : Nat
  flags : BitVec 5
  deriving DecidableEq, Repr

/-- A reduction context (R447): ON, ASID, EPOCH, engine registers 6 to 10 as rsvr copied them, the ARRIVED mask, the
partials by child, DROPS and FAULT. -/
structure RedCtx where
  on : Bool
  asid : BitVec 16
  epoch : BitVec 16
  cfg : Vector Word 5
  arrived : BitVec 16
  bufs : Tab (List Word)
  drops : Nat
  fault : Bool
  deriving DecidableEq, Repr

/-- The A-buffer banks in use in one ck (R134): those that an engine holds, and those that a thread's here access took. -/
structure BankUse where
  ck : Nat
  engine : BitVec 16
  here : BitVec 16
  deriving DecidableEq, Repr

/-- What is kept per core, compute core or system core. -/
structure Core where
  health : Health
  /-- held in reset until the running image releases the core (R486) -/
  heldInReset : Bool
  /-- s0 to s15 (R33, R103) -/
  sbank : Vector Word 16
  /-- of each shared register, the ck of the last write and its rank: twice the slot, and 1 for a window's close (R35) -/
  slast : Vector (Nat × Nat) 16
  /-- SLOTTAB and SLOTPEND (R282) -/
  slottab : Word
  slotpend : Word
  /-- the slot table, ESHARE0 and ESHARE1 that a load installs at the next frame boundary (R296) -/
  sharePend : Option (Word × Word × Word)
  /-- user slots do not issue before the next frame boundary (R296) -/
  arming : Bool
  /-- CTXST, CTXCTL, RSEED (R287) -/
  ctxAsid : BitVec 16
  ctxClass : BitVec 2
  residence : Residence
  quiet : Bool
  /-- quiet-bank mode is in effect, since the last frame boundary (R285) -/
  quietOn : Bool
  /-- the core's own ck is State.ck plus this (R281) -/
  ckBase : Nat
  /-- the banks in use (R134), and 1 + the ck at which the vector unit last started a beat (R218) -/
  banks : BankUse
  beatCk : Nat
  rseed : Word
  /-- the save area of the save or load under way (R293), and whether it stands stopped (R288) -/
  area : Word
  stopped : Bool
  /-- the virtual function of the guest in whose instruction it stands stopped (R479) -/
  guestStop : Option Nat
  diverts : Vector Divert 8
  /-- ESHARE0 and ESHARE1, and the remaining energy of the 8 slots (R219, R220) -/
  eshare0 : Word
  eshare1 : Word
  eleft : Vector Nat 8
  /-- TPEND (R188) -/
  tpend : BitVec 7
  /-- HEVQ, oldest first, and whether an event was lost since the last one entered (R189) -/
  hevq : List Word
  hevLost : Bool
  /-- the journal by entry number 0 to 63 (R158) -/
  journal : Tab JournalEntry
  /-- the reservation table in arrival order, and the requests held at a full table (R152) -/
  resv : List Reservation
  resvHeld : List Request
  /-- the TLB (R407) -/
  tlb : List TlbEntry
  /-- the walk of the copy engine (R408) -/
  walk : Option Walk
  /-- the engines' operations, in queue order: vector, repetition sequences, copy, matrix -/
  vecQueue : List VecOp
  reps : List RepSeq
  copies : List CopyOp
  matQueue : List MatOp
  /-- the quarter of the operand latch: valid, type code, KLEN, its rows as numbers (R246) -/
  latchValid : Bool
  latchType : Nat
  latchKlen : Nat
  latchRows : List Nat
  /-- the drain-scale latch: its halfwords; an empty list stands for the unit scales of reset (R251) -/
  bands : List Nat
  /-- the arrival bit of the gang (R247) -/
  arrived : Bool
  /-- slots whose next beat is held until the refill (R219) -/
  exhausted : BitVec 8
  /-- queue words, the pool's retired blocks and OVC (R362, R363), the marks of queues 8 to 15 (R368) -/
  qcfg : Vector Word 16
  qret : Word
  /-- the retiring blocks, and how many entries of each are still in use (R369) -/
  qretiring : Tab Nat
  /-- the entries of the pool that were in use at the last look at its retiring blocks: the model's own field -/
  qused : Nat
  qovc : Bool
  qbereaved : BitVec 16
  qorphan : BitVec 16
  /-- entries of the work lists and channels, by queue number 8 to 15, eight doublewords each -/
  lists : Tab (List (List Word))
  /-- entries that levelling has removed and that wait for room in the outbound queue of class 3 (R342, R361): core, queue,
  entry -/
  shipping : List (Nat × Nat × List Word)
  /-- channels whose last entry a saved operation will go on filling (R223) -/
  chanOpen : BitVec 16
  /-- the inboxes by class 0 to 4, oldest entry first (R328) -/
  inbox : Tab (List Msg)
  /-- the migration packets in queue 3, oldest first (R301, R360) -/
  packets : List MigPacket
  /-- bytes of the save image completed (R293), and the bytes read so far by a load -/
  cursor : Nat
  /-- LEVCTL (R341), and the last sample: core and load (empty before the first interval) -/
  levctl : BitVec 2
  sample : List (Nat × Nat)
  /-- the give table, and the gives held at the full table (R423) -/
  gives : List GiveReq
  giveHeld : List GiveReq
  /-- reduction contexts 0 to 15 (R447) -/
  reds : Tab RedCtx
  /-- CHKSTAT (R461) -/
  parked : BitVec 7
  kills : BitVec 16
  retries : BitVec 32
  /-- LARRLOG, LBNDLOG and LSPARE (R469); the retries charged to lanes, with their times (R468) -/
  larrlog : Word
  lbndlog : Word
  lspare : Word
  charges : List (Nat × Word)
  /-- the corrected errors of the last millisecond in the blocks of the buffer pool, with their times (R470) -/
  poolErrors : List (Nat × Word)
  /-- the work of the reduction server, which slot 7's opportunities do (R447): partials that have arrived, results to write -/
  server : List Event
  deriving DecidableEq, Repr

/-- An ASSIGNED buddy node (R472, R473): tree, level, index, the virtual function. -/
structure Node where
  tree : Nat
  level : Nat
  index : Nat
  vf : Nat
  deriving DecidableEq, Repr

/-- A fault-queue entry (R414, R415): the parked slot's key, and whether pfq took it. -/
structure FaultEntry where
  key : Nat
  seq : BitVec 32
  group : BitVec 16
  asid : BitVec 16
  va : Word
  tnum : BitVec 16
  detail : Nat
  name : BitVec 22
  time : Word
  taken : Bool
  deriving DecidableEq, Repr

/-- A thread that waits in asettle on a plot (R271): its window, the settle word, the edges in a row below the
threshold, the edges counted towards the timeout. -/
structure PlotWaiter where
  key : Nat
  wid : Nat
  word : Word
  run : Nat
  edges : Nat
  deriving DecidableEq, Repr

/-- The states of a plot (R270). -/
inductive PlotState where
  | idle | running | held | saturated
  deriving DecidableEq, Repr

/-- A Meadow plot (R258 to R278): MPLOT and the number of writes to it; the routes (source and destination) of
multipliers that have one, coefficient codes, initial values; TAU and GAIN; state, SETTLE, DMARG and the set in use;
saturation; PCAL; TSET, THELD, and the freeze with the calibration figures then in force; the waiters; the states of the
integrators, in units of 2^-32 full scale (log 4, DESIGN CHOICE). -/
structure Plot where
  valid : Bool
  join : Bool
  asid : BitVec 16
  writes : Nat
  routes : Tab (Nat × Nat)
  codes : Tab Nat
  inits : Tab Nat
  tau : Nat
  gain : Nat
  state : PlotState
  settle : Nat
  dmarg : Int
  inUse : List Nat
  satpend : Bool
  satsum : Bool
  satix : Nat
  ea : BitVec 16
  eta : BitVec 16
  calFault : Bool
  stale : Bool
  calValid : Bool
  tset : Word
  theld : Word
  freeze : Word
  eaThen : BitVec 16
  etaThen : BitVec 16
  waiters : List PlotWaiter
  states : Tab Int
  deriving DecidableEq, Repr

/-- The states of a group (R323); a free entry keeps its generation and heir. -/
inductive GroupState where
  | free | active | draining
  deriving DecidableEq, Repr

/-- A conveyance under way (R381, R382): TIME when it began, the next part of R382's order (1 to 4; 5: the records), how
many holdings went to heirs, which of them still await their record (heir, the two words of the record's entry, in order), the heirless holdings, and whether a record left
some entries out. -/
structure Conveyance where
  began : Word
  part : Nat
  conveyed : Nat
  given : List (BitVec 16 × Word × Word)
  heirless : Nat
  ovf : Bool
  deriving DecidableEq, Repr

/-- What a group takes at its next shared-clock edge (R323): the loss of a member, with its number and cause, or the exit of
a thread. -/
inductive GroupAct where
  | loss (tnum : BitVec 16) (cause : Nat)
  | exit
  deriving DecidableEq, Repr

/-- An entry of the group table (R321, R322): its generation, ASID, result (killed or not), WHOLE, MSGIRQ, LIVE, LOST,
the dead letters, oldest first, DLOVF, the home core, the record of its kernel, if any; the estate unit's DHEIR, whether
the entry was ever in use, AREA, ARRN, the cancelled operations in issue order with the issue number (R388), and the
conveyance. done: conveyance is complete. acts: what it takes at the next edge. -/
structure Group where
  state : GroupState
  gen : BitVec 4
  used : Bool
  asid : BitVec 16
  killed : Bool
  whole : Bool
  msgirq : Bool
  live : Nat
  lost : Nat
  letters : List Msg
  dlovf : Bool
  home : Nat
  kernel : Option Nat
  dheir : Option (BitVec 16)
  area : Word
  arrn : BitVec 8
  cancelled : List (Nat × Word × Word)
  conv : Option Conveyance
  done : Bool
  acts : List GroupAct
  deriving DecidableEq, Repr

/-- A holding (R376): KIND 1 lock, 2 handle, 3 promise, the key, the ASID, HOLDER, HEIR, BEREAVED, SEQ, and for a
word the place that its key named at registration (its cell and home core). RES is read from the reservation tables. -/
structure Holding where
  kind : Nat
  key : Word
  asid : BitVec 16
  holder : BitVec 16
  heir : Option (BitVec 16)
  bereaved : Bool
  seq : Nat
  cell : Nat
  home : Nat
  deriving DecidableEq, Repr

/-- An estate declaration of a bound kernel (R69): KIND, the address of the launch record whose group is the heir, the
bound address or the handle word, and whether that is the address of a doubleword holding the handle word. -/
structure EstDecl where
  kind : Nat
  heir : Option Nat
  key : Word
  indirect : Bool
  deriving DecidableEq, Repr

/-- A bound kernel table entry (R66): the address of ENTRY, the placement fields, the images (buffer code, offset,
bytes) and the estate declarations. -/
structure KernelEntry where
  entry : Word
  slots : Nat
  cluster : Nat
  quads : Nat
  cls : Nat
  whole : Bool
  pinned : Bool
  quiet : Bool
  threads : Nat
  frame : Nat
  images : List (Nat × Nat × List Byte)
  estate : List EstDecl
  deriving DecidableEq, Repr

/-- A completed bind (R71): its number, the context, the kernel table, the addresses of its launch records in the context's
launch-record area, its sections and that area (kind, address, size), its globals with their values, and the binds whose
globals it uses. -/
structure Bound where
  id : Nat
  asid : BitVec 16
  kernels : List KernelEntry
  records : List Nat
  sections : List (Nat × Nat × Nat)
  globals : List (List Byte × Word)
  uses : List Nat
  deriving DecidableEq, Repr

/-- The states of a kernel record (R308), in the order of their codes. -/
inductive KernelState where
  | pending | timedWait | awaiting | placing | running | draining | done | faulted
  deriving DecidableEq, Repr

/-- A kernel record (R307). node: first quad and log2 of the size. -/
structure KernelRec where
  gen : BitVec 8
  used : Bool
  asid : BitVec 16
  kernel : KernelEntry
  record : Nat
  args : List Word
  state : KernelState
  timed : Bool
  start : Word
  await : Option Nat
  late : Bool
  bereaved : Bool
  detach : Bool
  node : Option (Nat × Nat)
  group : BitVec 16
  cause : Nat
  /-- the edge at which it entered PENDING, and the edge at which its threads are created (R309, R311) -/
  entered : Word
  create : Word
  /-- a kill of its group is held while it is PLACING (R308) -/
  killHeld : Bool
  /-- the count of live threads (R307), and the edge at which the record was freed, where a kwait that returns at that edge
  still reads it (R318) -/
  live : Nat
  freed : Option Word
  deriving DecidableEq, Repr

/-- A port of a compute die (R433 to R445): the direction of its lane groups, the turn queue, the turns' times, the
permits of its sender side (LPMIN, LPCAP, HELD, LAST, SENT), the counts of its receiver side (RET, OCC), the flits that
wait for a replay, the time of the last return flit. -/
structure Port where
  usable : BitVec 8
  out : Nat
  turns : BitVec 16
  excl : Bool
  queue : List Nat
  history : List Word
  tlast : Word
  /-- groups turn: until their silence ends, only `steady` outward groups may launch (R437) -/
  silent : Bool
  steady : Nat
  up : Bool
  lpmin : Word
  lpcap : Word
  capacity : Nat
  ovc : Bool
  held : List Nat
  last : List (BitVec 16)
  sent : List (BitVec 16)
  flits : Nat
  ret : List (BitVec 16)
  occ : List Nat
  replay : List Nat
  /-- the counts of the last return that was sent, and when that was (R443) -/
  retSent : List (BitVec 16)
  returned : Option Word
  repairs : BitVec 32
  dropret : BitVec 32
  failures : List (Nat × Word)
  /-- groups that 8 failures within 1 ms take out of use at the next boundary (R471) -/
  failing : BitVec 8
  /-- the corrected errors of the last millisecond in the blocks of the port's permit pool, with their times (R470) -/
  errors : List (Nat × Word)
  deriving DecidableEq, Repr

/-- What is kept per compute die. -/
structure Die where
  /-- the group table, the launch pool and the estate table by index (R321, R307, R376), DLCNT (R333) -/
  groups : Tab Group
  pool : Tab KernelRec
  estate : Tab Holding
  dlcnt : BitVec 32
  /-- ports 0 to 11 (R433) -/
  ports : Tab Port
  /-- SPARE0 and SPARE1 by row: USED and the logical column replaced (R465) -/
  spares : Tab (BitVec 5)
  /-- CHKDIE: QIP, CAUSE (and whether it was read), ROW, COL, MFAULT -/
  qip : Bool
  qcause : BitVec 3
  qunread : Bool
  qrow : BitVec 4
  qcol : BitVec 5
  mfault : BitVec 8
  /-- the eight plots; a calibration block is in progress, the Meadow instructions that wait for its end, and the time at
  which the last one ended (R278) -/
  plots : Tab Plot
  blocked : Bool
  blockHeld : List MeadowReq
  calibrated : Word
  /-- the assigned nodes of the three buddy trees (R473) -/
  nodes : List Node
  /-- the fault queue in the order of SEQ, FQSEQ, and the presumes taken, PRCNT (R413 to R416) -/
  faults : List FaultEntry
  fqseq : BitVec 32
  prcnt : BitVec 16
  deriving DecidableEq, Repr

/-- A virtual function (R475, R478): its configuration, times and the edge of its pause. imported: VALID and PAUSED
were set together and it has not been resumed, so that it takes any GFRZ. -/
structure Vf where
  valid : Bool
  paused : Bool
  imported : Bool
  acnt : BitVec 16
  abase : BitVec 16
  goff : Word
  gfrz : Word
  gpt : Word
  edge : Word
  deriving DecidableEq, Repr

/-- A thread that waits on a barrier object (R358): its window, the old phase. -/
structure BarWaiter where
  key : Nat
  wid : Nat
  old : Bool
  deriving DecidableEq, Repr

/-- A barrier object (R345) and its waiters. PEND stays within 56 bits. -/
structure Barrier where
  valid : Bool
  asid : BitVec 16
  exp : Nat
  arr : Nat
  phase : Bool
  pend : Int
  fault : Bool
  bereaved : Bool
  orphan : Bool
  waiters : List BarWaiter
  deriving DecidableEq, Repr

/-- A thread that waits for a promise word (R398): its window, the word's cell and home, its address and context. -/
structure Awaiter where
  key : Nat
  wid : Nat
  cell : Nat
  home : Nat
  ea : Word
  asid : BitVec 16
  deriving DecidableEq, Repr

/-- The root of trust's side of an SPDM connection (R488): which of the three steps of the negotiation are done, and the
last answer. -/
structure Spdm where
  version : Bool
  capabilities : Bool
  algorithms : Bool
  answer : List Byte
  deriving DecidableEq, Repr

/-- A W1C bit (R4): OVC of a core's QPOOL and of a port's LPOOL, a bit of CHKSTAT.PARKED, CHKDIE.MFAULT or JREF. -/
inductive Sticky where
  | queueOvc (core : Nat)
  | portOvc (die port : Nat)
  | parked (core slot : Nat)
  | mfault (die plot : Nat)
  | jref (core entry : Nat)
  deriving DecidableEq, Repr

/-- What a switched-out thread's pending user interrupts will give as p1 (R191), and the POSTED traps that it still has to take
(R181): the save area has no place for them, and the model keeps them beside (log 14, DESIGN CHOICE). -/
structure SavedArgs where
  asid : BitVec 16
  group : BitVec 16
  tnum : BitVec 16
  engine : Word
  eng : BitVec 3
  estate : Word
  msg : Word
  posted : List (Nat × Word)
  deriving DecidableEq, Repr

/-- A step under way that passes ports between dies, or the data of a copy operation that do (R434, R440): the ports of its way, its
class and its flits; how many ports it has passed, how many of its flits are still to pass the next, and since when the next
one stands in that port's queue, if it does (R437). -/
structure Transit where
  event : Event
  way : List (Nat × Nat)
  cls : Nat
  flits : Nat
  hop : Nat
  left : Nat
  since : Option Word
  deriving DecidableEq, Repr

/-- The state of the module. -/
structure State where
  /-- thread slots: slot t of compute core c has the key 8 c + t, system core n has the key 8 (1024 + n) -/
  threads : Tab Thread
  cores : Tab Core
  dies : Tab Die
  /-- memory, as its cells (Machine/Memory.lean) -/
  mem : List Host.Cell
  /-- the thread whose issue opportunity comes next -/
  cur : Nat
  /-- core cycles, and TIME in ns with its fraction (R24, R25) -/
  ck : Nat
  time : Word
  phase : Nat
  /-- the rate correction of the shared clock, in parts per million (R26) -/
  ppm : Int
  /-- the number of the next free value, access and window: the MODEL's own counter (log 34, DESIGN CHOICE) -/
  nonce : Nat
  /-- steps under way, in the order they began: each may happen at any later point -/
  work : List Event
  /-- steps that happen before anything else, the first one first -/
  due : List Event
  /-- DIEMAP0 and DIEMAP1 (R138), DIERET (R492), ASIDTAB (R402) -/
  diemap0 : Word
  diemap1 : Word
  dieret : BitVec 4
  asidtab : Word
  /-- barrier objects by scope, unit and index (R344) -/
  barriers : Tab Barrier
  /-- virtual functions 0 to 31 (R475), VFSEL and PNSEL -/
  vfs : Tab Vf
  vfsel : BitVec 5
  pnsel : Word
  /-- the 64-byte lines of the Loft and the Silo that cannot be read, as cell numbers over 64 (R463, R466) -/
  poison : List Nat
  /-- the lines whose error an access meets in this ck (R466, R467, R471), and whether a write meets it too -/
  erring : List (Nat × Bool)
  /-- the ROM's mapping for the system context stands (R486) -/
  romMap : Bool
  /-- the ENTRY at which the running image was started (R486) -/
  entry : Word
  /-- threads that wait for a promise (R398) -/
  awaiters : List Awaiter
  /-- what the binder has bound (R71), and the key tables installed for it, in ASID order (R488) -/
  bound : List Bound
  keyTables : List (BitVec 16 × List (List Byte))
  /-- the binder's last report: context and status (R71, R72, R74) -/
  bindReport : Option (BitVec 16 × Nat)
  /-- the boot flash (R485), as cells -/
  flash : List Host.Cell
  /-- BOOTSTAT (R487), and the SHA-384 of the running image's header and body (R488) -/
  bootstat : Word
  imageHash : BitVec 384
  /-- IRQROUTE by source, HDB by function (R489, R490), functions in reset (R491) -/
  irqroute : Vector Word 16
  hdb : Tab Word
  flr : List Nat
  /-- interrupt source POWER, and whether the current 1 ms window saw the limits exceeded (R483, R490) -/
  power : Bool
  powerSeen : Bool
  /-- modules lost from the pod membership table (R450) -/
  lostModules : List Nat
  /-- a context has been loaded since power-on (R26) -/
  loadedOnce : Bool
  /-- ends of single threads (ASID, group, number, cause) that wait for their saved residence to run again (R288, R324) -/
  heldKills : List (BitVec 16 × BitVec 16 × BitVec 16 × Nat)
  savedArgs : List SavedArgs
  spdm : Spdm
  /-- the W1C bits that the hardware has set in the present ck (R4) -/
  sticky : List Sticky
  /-- the ranks of the steps that have reached a queue or a plot in this ck (R266, R366) -/
  ranks : Tab Nat
  /-- the steps under way that have begun to pass ports between dies, or wait at one, in the order in which they came (R434) -/
  transit : List Transit
  deriving DecidableEq, Repr


/-- A slot with no thread, as reset leaves it (R188: SSTATE 4 EMPTY; the manual gives the registers no reset value
except 0 for the ones R187, R188 and R190 list: log 1, DESIGN CHOICE). -/
def Thread.empty : Thread where
  sstate := .empty
  gen := 0#8
  pinned := false
  asid := 0#16
  group := 0#16
  tnum := 0#16
  view := .user
  pc := 0#64
  p := Vector.replicate 10 0#64
  ualt := Vector.replicate 4 0#64
  xalt := Vector.replicate 4 0#64
  q := 0#64
  windows := []
  frozen := []
  held := []
  latch := 0#5
  seq := 0#32
  uvec := 0#64
  upc := 0#64
  uin := false
  uview := .user
  uip := 0#3
  uie := 0#3
  argEngine := 0#64
  argEng := 0#3
  argEstate := 0#64
  argMsg := 0#64
  epc := 0#64
  cause := 0#64
  tval := 0#64
  xpc := 0#64
  xcause := 0#64
  xval := 0#64
  tvec := 0#64
  tsel := 0#3
  xin := false
  xdouble := false
  xview := .user
  bsel := 0x100#64
  vstatus := 0#64
  mstatus := 0#64
  copyRegs := Vector.replicate 17 0#64
  matRegs := Vector.replicate 4 0#64
  linkRegs := Vector.replicate 11 0#64
  outst := []
  posted := []
  hold := .none
  walk := none
  rewalk := none
  sleep := none
  stay := false
  killed := false
  lossCause := 0
  mismatch := false
  spent := false
  fresh := false

/-- Core registers at reset (R189, R220, R282, R287; s0 to s15 are given no reset value: log 1, DESIGN CHOICE). -/
def Core.reset : Core where
  health := .good
  heldInReset := true
  sbank := Vector.replicate 16 0#64
  slast := Vector.replicate 16 (0, 0)
  slottab := 0x7888888888888888#64
  slotpend := 0x7888888888888888#64
  sharePend := none
  arming := false
  ctxAsid := 0#16
  ctxClass := 0#2
  residence := .free
  quiet := false
  quietOn := false
  ckBase := 0
  banks := ⟨0, 0#16, 0#16⟩
  beatCk := 0
  rseed := 0#64
  area := 0#64
  stopped := false
  guestStop := none
  diverts := Vector.replicate 8 ⟨false, 0#16, 0#36⟩
  eshare0 := 0x1FFF1FFF1FFF1FFF#64
  eshare1 := 0x1FFF1FFF1FFF1FFF#64
  eleft := Vector.replicate 8 8191
  tpend := 0#7
  hevq := []
  hevLost := false
  journal := []
  resv := []
  resvHeld := []
  tlb := []
  walk := none
  vecQueue := []
  reps := []
  copies := []
  matQueue := []
  latchValid := false
  latchType := 0
  latchKlen := 0
  latchRows := []
  bands := []
  arrived := false
  exhausted := 0#8
  qcfg := #v[0x20200008#64, 0x20400010#64, 0x20400010#64, 0x20400010#64, 0x20200008#64, 0x41000010#64, 0x46000030#64,
    0x40800010#64, 0#64, 0#64, 0#64, 0#64, 0#64, 0#64, 0#64, 0#64]
  qret := 0#64
  qretiring := []
  qused := 0
  qovc := false
  qbereaved := 0#16
  qorphan := 0#16
  lists := []
  shipping := []
  chanOpen := 0#16
  inbox := []
  packets := []
  cursor := 0
  levctl := 3#2
  sample := []
  gives := []
  giveHeld := []
  reds := []
  parked := 0#7
  kills := 0#16
  retries := 0#32
  larrlog := 0#64
  lbndlog := 0#64
  lspare := 0#64
  charges := []
  poolErrors := []
  server := []

/-- A plot after die reset (R259, R270, R276). -/
def Plot.reset : Plot where
  valid := false
  join := false
  asid := 0#16
  writes := 0
  routes := []
  codes := []
  inits := []
  tau := 0
  gain := 0
  state := .idle
  settle := 15
  dmarg := 0
  inUse := []
  satpend := false
  satsum := false
  satix := 0
  ea := 0xFFFF#16
  eta := 0xFFFF#16
  calFault := false
  stale := true
  calValid := false
  tset := 0#64
  theld := 0#64
  freeze := 0#64
  eaThen := 0xFFFF#16
  etaThen := 0xFFFF#16
  waiters := []
  states := []

/-- A group-table entry at die reset (R321, R379, R388). -/
def Group.reset : Group where
  state := .free
  gen := 0#4
  used := false
  asid := 0#16
  killed := false
  whole := false
  msgirq := false
  live := 0
  lost := 0
  letters := []
  dlovf := false
  home := 0
  kernel := none
  dheir := none
  area := 0#64
  arrn := 0#8
  cancelled := []
  conv := none
  done := false
  acts := []

def KernelEntry.none : KernelEntry where
  entry := 0#64
  slots := 1
  cluster := 0
  quads := 1
  cls := 0
  whole := false
  pinned := false
  quiet := false
  threads := 1
  frame := 64
  images := []
  estate := []

/-- A free record slot of the launch pool (R307). -/
def KernelRec.reset : KernelRec where
  gen := 0#8
  used := false
  asid := 0#16
  kernel := KernelEntry.none
  record := 0
  args := []
  state := .done
  timed := false
  start := 0#64
  await := Option.none
  late := false
  bereaved := false
  detach := false
  node := Option.none
  group := 0#16
  cause := 0
  entered := 0#64
  create := 0#64
  killHeld := false
  live := 0
  freed := Option.none

/-- A free entry of the estate table: KIND 0. -/
def Holding.reset : Holding where
  kind := 0
  key := 0#64
  asid := 0#16
  holder := 0#16
  heir := Option.none
  bereaved := false
  seq := 0
  cell := 0
  home := 0

/-- A port at die reset (R436, R442). -/
def Port.reset : Port where
  usable := 0xFF#8
  out := 4
  turns := 0#16
  excl := false
  queue := []
  history := []
  tlast := 0#64
  silent := false
  steady := 4
  up := false
  lpmin := 0x0040040080080040#64
  lpcap := 0x0400400400400400#64
  capacity := 1024
  ovc := false
  held := [0, 0, 0, 0, 0]
  last := [0#16, 0#16, 0#16, 0#16, 0#16]
  sent := [0#16, 0#16, 0#16, 0#16, 0#16]
  flits := 0
  ret := [0#16, 0#16, 0#16, 0#16, 0#16]
  occ := [0, 0, 0, 0, 0]
  replay := []
  retSent := [0#16, 0#16, 0#16, 0#16, 0#16]
  returned := none
  repairs := 0#32
  dropret := 0#32
  failures := []
  failing := 0#8
  errors := []

/-- A reduction context that was never set. -/
def RedCtx.reset : RedCtx where
  on := false
  asid := 0#16
  epoch := 0#16
  cfg := Vector.replicate 5 0#64
  arrived := 0#16
  bufs := []
  drops := 0
  fault := false

def Die.reset : Die where
  groups := []
  pool := []
  estate := []
  dlcnt := 0#32
  ports := []
  spares := []
  qip := false
  qcause := 0#3
  qunread := false
  qrow := 0#4
  qcol := 0#5
  mfault := 0#8
  plots := []
  blocked := false
  blockHeld := []
  calibrated := 0#64
  nodes := []
  faults := []
  fqseq := 0#32
  prcnt := 0#16

/-- A barrier object at reset (R348). -/
def Barrier.reset : Barrier where
  valid := false
  asid := 0#16
  exp := 1
  arr := 0
  phase := false
  pend := 0
  fault := false
  bereaved := false
  orphan := false
  waiters := []

def Vf.reset : Vf where
  valid := false
  paused := false
  imported := false
  acnt := 0#16
  abase := 0#16
  goff := 0#64
  gfrz := 0#64
  gpt := 0#64
  edge := 0#64

/-- Why the machine stops with a fault. -/
inductive Fault where
  /-- Raised by no meaning: the manual names no event that stops the module as a whole. Safe. -/
  | halted
  deriving DecidableEq, Repr

/-- Why a step is refused. -/
inductive Refusal where
  /-- Raised by an arm of exec that has no meaning yet, with the instruction's mnemonic. Safe. -/
  | notModelled (mnemonic : String)
  deriving DecidableEq, Repr

/-- The module right after power-on reset: nothing runs, and the ROM's step comes first (R486). -/
def State.reset : State where
  threads := []
  cores := []
  dies := []
  mem := []
  cur := 8192
  ck := 0
  time := 0#64
  phase := 0
  ppm := 0
  nonce := 0
  work := []
  due := [.powerOnReset]
  diemap0 := 0xE4E4E4E4E4E4E4E4#64
  diemap1 := 0xE4E4E4E4E4E4E4E4#64
  dieret := 0#4
  asidtab := 0#64
  barriers := []
  vfs := []
  vfsel := 0#5
  pnsel := 0#64
  poison := []
  erring := []
  romMap := false
  entry := 0#64
  awaiters := []
  bound := []
  keyTables := []
  bindReport := none
  flash := []
  bootstat := 0x30F#64
  imageHash := 0#384
  irqroute := Vector.replicate 16 0x8000000000000000#64
  hdb := []
  flr := []
  power := false
  powerSeen := false
  lostModules := []
  loadedOnce := false
  heldKills := []
  savedArgs := []
  spdm := { version := false, capabilities := false, algorithms := false, answer := [] }
  sticky := []
  ranks := []
  transit := []

end Sys2Proof.Machine
end

