-- ==== Sys2Proof/Machine/Memory.lean ====
section
/-! DEFINITION. Memory as a list of cells in one canonical form (log 5, DESIGN CHOICE): addresses strictly rising, and no cell that
holds what an unlisted address reads as. One address space of cell numbers holds the Loft, the Silo and the typed
buffers: a Loft cell is its physical address (R401, below 2^52), a Silo cell is 2^52 + its physical address, and a
buffer cell is 2^53 + its glob effective address (R139, bit 51 set). Bytes of a wider access stand in little-endian
order (R3). -/

namespace Sys2Proof.Machine

/-- What an address reads as that nothing has written: the manual gives no power-on contents (log 5, DESIGN CHOICE). -/
def blankByte : Byte := 0#8

/-- The canonical form: addresses strictly rising from lo on, no blank cell. -/
def memWf : Nat → List Host.Cell → Bool
  | _, [] => true
  | lo, (a, b) :: m => decide (lo ≤ a) && (b != blankByte) && memWf (a + 1) m

/-- The proposition that a memory is in canonical form. -/
abbrev Memory.wf (m : List Host.Cell) : Prop := memWf 0 m = true

/-- One byte. -/
def readByte : List Host.Cell → Nat → Byte
  | [], _ => blankByte
  | (k, b) :: m, a => if k = a then b else if a < k then blankByte else readByte m a

/-- Write one byte, keeping the canonical form. -/
def writeByte : List Host.Cell → Nat → Byte → List Host.Cell
  | [], a, v => if v = blankByte then [] else [(a, v)]
  | (k, b) :: m, a, v =>
    if k = a then (if v = blankByte then m else (a, v) :: m)
    else if a < k then (if v = blankByte then (k, b) :: m else (a, v) :: (k, b) :: m)
    else (k, b) :: writeByte m a v

/-- The n bytes from a on, as a little-endian number. -/
def readBytes (m : List Host.Cell) (a : Nat) : Nat → Nat
  | 0 => 0
  | n + 1 => (readByte m a).toNat + 256 * readBytes m (a + 1) n

/-- Write the low n bytes of a number from a on, the least significant first. -/
def writeBytes (m : List Host.Cell) (a : Nat) : Nat → Nat → List Host.Cell
  | 0, _ => m
  | n + 1, v => writeBytes (writeByte m a (BitVec.ofNat 8 v)) (a + 1) n (v / 256)

/-- A doubleword (R3). -/
def readWord (m : List Host.Cell) (a : Nat) : Word := BitVec.ofNat 64 (readBytes m a 8)

def writeWord (m : List Host.Cell) (a : Nat) (v : Word) : List Host.Cell := writeBytes m a 8 v.toNat

/-- n doublewords from a on. -/
def readWords (m : List Host.Cell) (a : Nat) : Nat → List Word
  | 0 => []
  | n + 1 => readWord m a :: readWords m (a + 8) n

def writeWords (m : List Host.Cell) (a : Nat) : List Word → List Host.Cell
  | [] => m
  | v :: vs => writeWords (writeWord m a v) (a + 8) vs

/-- The bytes of a list, written from a on. -/
def writeList (m : List Host.Cell) (a : Nat) : List Byte → List Host.Cell
  | [] => m
  | b :: bs => writeList (writeByte m a b) (a + 1) bs

/-- The cell number of a Loft or Silo physical address (R401). -/
def physCell (silo : Bool) (pa : Nat) : Nat := if silo then 2 ^ 52 + pa else pa

/-- The cell number of a typed-buffer byte: the core's coordinates, the buffer code, the offset (R139). -/
def bufferCell (core buffer offset : Nat) : Nat :=
  2 ^ 53 + 2 ^ 51 + (core / 256) * 2 ^ 49 + (core / 16 % 16) * 2 ^ 45 + (core % 16) * 2 ^ 40 + buffer * 2 ^ 38 + offset

end Sys2Proof.Machine
end

