-- ==== Sys2Proof/Machine/Table.lean ====
section
/-! DEFINITION. Tables from numbers to values, as lists of pairs: reading with a default, writing, and lists by
index. -/

namespace Sys2Proof.Machine

/-- The value at k; the default where nothing is listed. -/
def tabGet {α : Type} (dflt : α) : Tab α → Nat → α
  | [], _ => dflt
  | (j, v) :: t, k => if j = k then v else tabGet dflt t k

/-- The table with v at k: a new number goes before the first greater one, so that the numbers stand in ascending order. -/
def tabSet {α : Type} : Tab α → Nat → α → Tab α
  | [], k, v => [(k, v)]
  | (j, w) :: t, k, v =>
    if j = k then (k, v) :: t else if k < j then (k, v) :: (j, w) :: t else (j, w) :: tabSet t k v

/-- The list with its n-th element changed; unchanged when there is none. -/
def setAt {α : Type} : List α → Nat → α → List α
  | [], _, _ => []
  | _ :: t, 0, v => v :: t
  | x :: t, n + 1, v => x :: setAt t n v

/-- The numbers 0 to n - 1. -/
def upTo (n : Nat) : List Nat := (List.range' 0 n)

/-- The first element with a property. -/
def findFirst {α : Type} (p : α → Bool) : List α → Option α
  | [] => none
  | x :: t => if p x then some x else findFirst p t

end Sys2Proof.Machine
end

