-- ==== Sys2Proof/Machine/Ops.lean ====
section
/-! DEFINITION. The named operations over threads, cores and dies; fresh numbers; events queued for later; the latch
and user-interrupt bits; taking an exception and returning from one (08 R179 to R198). -/

namespace Sys2Proof.Machine

/-- What exec answers. -/
abbrev Out := Host.Outcome State Fault Refusal

/-! Names of cores and threads (R9 to R17, R280): compute core = 256 × die + 16 × row + column, system core n =
1024 + n; thread key = 8 × core + slot. -/

def coreOf (k : Nat) : Nat := k / 8
def slotOf (k : Nat) : Nat := k % 8
def isSystem (c : Nat) : Bool := decide (1024 ≤ c)
def dieOf (c : Nat) : Nat := c / 256
def rowOf (c : Nat) : Nat := c / 16 % 16
def colOf (c : Nat) : Nat := c % 16

/-- The number of a compute core by its logical die, row and column. -/
def coreAt (die row col : Nat) : Nat := 256 * die + 16 * row + col

/-- Rows 0 to 5 are the prompt cluster (R13). -/
def isPrompt (c : Nat) : Bool := decide (rowOf c < 6)

/-- Whether a number names a logical compute core (R12). -/
def isCompute (c : Nat) : Bool := decide (c < 1024) && decide (rowOf c < 14)

/-- Die-local quad number (R13). -/
def quadOf (c : Nat) : Nat := 4 * rowOf c + colOf c / 4

/-- The cursor value that names no thread. -/
def noThread : Nat := 16384

/-- Instead of a thread in State.cur: the steps of a ck are over; the last of them, which stand in State.due, come. -/
def closing : Nat := 16385

/-- Instead of a thread in State.cur: a ck has begun; the steps that it begins with come before its opportunities. -/
def opening : Nat := 16386

/-! Threads, cores and dies by number. -/

def State.thr (s : State) (k : Nat) : Thread := tabGet Thread.empty s.threads k
def State.setThr (s : State) (k : Nat) (t : Thread) : State := { s with threads := tabSet s.threads k t }
def State.core (s : State) (c : Nat) : Core := tabGet Core.reset s.cores c
def State.setCore (s : State) (c : Nat) (x : Core) : State := { s with cores := tabSet s.cores c x }
def State.die (s : State) (d : Nat) : Die := tabGet Die.reset s.dies d
def State.setDie (s : State) (d : Nat) (x : Die) : State := { s with dies := tabSet s.dies d x }

/-- A retired die (R492). -/
def State.dieRetired (s : State) (d : Nat) : Bool := s.dieret.getLsbD d

/-- Advance the model's counter: the number before it serves as a fresh number or picks a free value. -/
def State.tick (s : State) : State := { s with nonce := s.nonce + 1 }

/-- Let a step happen at some later point. -/
def State.later (s : State) (e : Event) : State := { s with work := s.work ++ [e] }

/-- Let a step stand before the others under way: it keeps its place in its stream. -/
def State.sooner (s : State) (e : Event) : State := { s with work := e :: s.work }

/-- Let a step happen before anything else, after the steps already due. -/
def State.now (s : State) (e : Event) : State := { s with due := s.due ++ [e] }

/-- The n bytes from a cell on are written as one: the lines that they fill lose their mark (R463). -/
def State.whole (s : State) (cell n : Nat) : State :=
  { s with poison := s.poison.filter fun l => !(decide (cell ≤ 64 * l) && decide (64 * l + 64 ≤ cell + n)) }

/-- p0 to p3 of a set of ten, and the set with them replaced. -/
def lowFour (p : Vector Word 10) : Vector Word 4 := #v[p[0], p[1], p[2], p[3]]

def withLowFour (p : Vector Word 10) (x : Vector Word 4) : Vector Word 10 :=
  #v[x[0], x[1], x[2], x[3], p[4], p[5], p[6], p[7], p[8], p[9]]

/-! Registers (R33). -/

/-- The value of an operand code; the reserved codes 12 to 15 never reach it (R50). -/
def readReg (s : State) (k : Nat) (r : Reg) : Word :=
  if h : r.toNat < 10 then (s.thr k).p[r.toNat]
  else if r.toNat = 11 then (s.thr k).q
  else if 16 ≤ r.toNat then (s.core (coreOf k)).sbank.getD (r.toNat - 16) 0#64
  else 0#64

/-- Set event-latch bits of a thread (R126). -/
def Thread.latched (t : Thread) (m : BitVec 5) : Thread := { t with latch := t.latch ||| m }

def latchSREG : BitVec 5 := 2#5
def latchENGINE : BitVec 5 := 4#5
def latchMSG : BitVec 5 := 8#5
def latchUINT : BitVec 5 := 16#5

/-- A write to a shared register sets SREG in the latches of the core's other threads (R126): over the slots of a
list. -/
def latchOthers (s : State) (k : Nat) : List Nat → State
  | [] => s
  | j :: js =>
    let key := 8 * coreOf k + j
    if key = k ∨ (s.thr key).sstate = .empty then latchOthers s k js
    else latchOthers (s.setThr key ((s.thr key).latched latchSREG)) k js

/-- Where two writes to one shared register land in one ck, that of the higher slot remains, and of one slot's that of a
window's close (R35): the ranks of the writes. -/
def writeRank (k : Nat) (close : Bool) : Nat := 2 * slotOf k + (if close then 1 else 0)

/-- A write of a higher rank has landed in shared register j in this ck. -/
def Core.outranks (c : Core) (ck j rank : Nat) : Bool :=
  (c.slast.getD j (0, 0)).1 == ck && decide (rank < (c.slast.getD j (0, 0)).2)

/-- Shared register j with v written, unless a write of a higher rank has landed in this ck. -/
def Core.written (c : Core) (ck j rank : Nat) (v : Word) : Core :=
  if c.outranks ck j rank then c
  else { c with sbank := c.sbank.setIfInBounds j v, slast := c.slast.setIfInBounds j (ck, rank) }

/-- Write an operand code (R33): zr discards; a shared register is the core's. close: by a window's close (R35). -/
def putReg (close : Bool) (s : State) (k : Nat) (r : Reg) (v : Word) : State :=
  if r.toNat < 10 then s.setThr k { s.thr k with p := (s.thr k).p.setIfInBounds r.toNat v }
  else if r.toNat = 11 then s.setThr k { s.thr k with q := v }
  else if 16 ≤ r.toNat then
    let c := (s.core (coreOf k)).written s.ck (r.toNat - 16) (writeRank k close) v
    latchOthers (s.setCore (coreOf k) c) k [0, 1, 2, 3, 4, 5, 6, 7]
  else s

/-- The result of an instruction that issues. -/
def writeReg (s : State) (k : Nat) (r : Reg) (v : Word) : State := putReg false s k r v

/-- The write of a window's close. -/
def closeReg (s : State) (k : Nat) (r : Reg) (v : Word) : State := putReg true s k r v

/-- The hardware sets a W1C bit (R4). -/
def State.raised (s : State) (b : Sticky) : State := { s with sticky := b :: s.sticky }

/-- A W1C bit that the hardware has set in the present ck stays set when a write clears it (R4). -/
def State.stays (s : State) (b : Sticky) : Bool := s.sticky.contains b

/-! Groups and kernel records by number (R307, R321). -/

def groupDie (g : BitVec 16) : Nat := g.toNat / 2 ^ 14
def groupIndex (g : BitVec 16) : Nat := g.toNat % 2 ^ 10
def groupGen (g : BitVec 16) : BitVec 4 := g.extractLsb' 10 4
def groupNumber (die ix : Nat) (gen : BitVec 4) : BitVec 16 := BitVec.ofNat 16 (die * 2 ^ 14 + gen.toNat * 2 ^ 10 + ix)

/-- The entry that a group number names, whatever it holds. -/
def State.group (s : State) (g : BitVec 16) : Group := tabGet Group.reset (s.die (groupDie g)).groups (groupIndex g)
def State.setGroup (s : State) (g : BitVec 16) (x : Group) : State :=
  let d := s.die (groupDie g)
  s.setDie (groupDie g) { d with groups := tabSet d.groups (groupIndex g) x }

/-- The entry holds the group: the number is not stale. -/
def State.groupHeld (s : State) (g : BitVec 16) : Bool :=
  (s.group g).state != .free && (s.group g).gen == groupGen g

/-- The entry is free and last held the group (R379). -/
def State.groupLast (s : State) (g : BitVec 16) : Bool :=
  let x := s.group g
  x.state == .free && x.used && x.gen == groupGen g + 1#4

/-- A kernel's record of a die. -/
def State.record (s : State) (die ix : Nat) : KernelRec := tabGet KernelRec.reset (s.die die).pool ix
def State.setRecord (s : State) (die ix : Nat) (x : KernelRec) : State :=
  let d := s.die die
  s.setDie die { d with pool := tabSet d.pool ix x }

/-- A node is held (R309). -/
def KernelRec.holds (x : KernelRec) : Bool :=
  x.used && x.node.isSome && (x.state == .placing || x.state == .running || x.state == .draining)

def kernelCode : KernelState → Nat
  | .pending => 0 | .timedWait => 1 | .awaiting => 2 | .placing => 3 | .running => 4 | .draining => 5 | .done => 6
  | .faulted => 7

/-- The record that a handle names: none when it is stale (R307). -/
def recordNamed (s : State) (h : Nat) : Option KernelRec :=
  let x := s.record (h / 2 ^ 16 % 4) (h % 256)
  if x.used && x.gen.toNat == h / 256 % 256 then some x else none

/-- The record that a kwait which returns now reads: also one that was freed at this very edge (R318). -/
def recordReturned (s : State) (h : Nat) : Option KernelRec :=
  let x := s.record (h / 2 ^ 16 % 4) (h % 256)
  if (x.used || x.freed == some s.time) && x.gen.toNat == h / 256 % 256 then some x else none

/-- The kstat word (R317) of a record, none where the handle is stale; asid: only that context's records. -/
def kernelWord (r : Option KernelRec) (asid : Option (BitVec 16)) : Word :=
  match r with
  | none => 0xF000000000000000#64
  | some x =>
    if asid.any (· != x.asid) then 0xF000000000000000#64
    else
      let bit := fun (b : Bool) (n : Nat) => if b then 2 ^ n else 0
      let placed := match x.node with
        | some (first, log) => log * 2 ^ 40 + first * 2 ^ 32 + x.group.toNat
        | none => 0
      BitVec.ofNat 64 (kernelCode x.state * 2 ^ 60 + x.cause * 2 ^ 56 + bit x.late 55 + bit x.bereaved 54 + placed +
        x.live % 2 ^ 16 * 2 ^ 16)

/-- A record is freed now (R307). -/
def KernelRec.leave (x : KernelRec) (now : Word) : KernelRec := { x with used := false, freed := some now }

/-- A DONE or FAULTED record is freed by the kwait that returns it (R318). -/
def freeEnded (s : State) (h : Nat) (asid : Option (BitVec 16)) : State :=
  match recordNamed s h with
  | none => s
  | some x =>
    if asid.any (· != x.asid) || !(x.state == .done || x.state == .faulted) then s
    else s.setRecord (h / 2 ^ 16 % 4) (h % 256) (x.leave s.time)

/-! The journal (R158, R161). -/

def freeEntry : JournalEntry :=
  { busy := false, ref := false, kind := 0, cause := 0#4, mode := 0#2, size := 0, ea := 0#64, data := 0#64, eng := 0#3,
    slot := 0, gen := 0#8, time := 0#64 }

def journalAt (c : Core) (e : Nat) : JournalEntry := tabGet freeEntry c.journal e

/-- The lowest free entry of the 64: an access takes it (log 39, DESIGN CHOICE: R158 does not say which). -/
def journalFree (c : Core) : Option Nat := findFirst (fun e => !(journalAt c e).busy) (upTo 64)

def setJournal (s : State) (core e : Nat) (x : JournalEntry) : State :=
  s.setCore core { s.core core with journal := tabSet (s.core core).journal e x }

/-- KIND of a journal entry (R161). -/
def journalKind : MemOp → Nat
  | .load _ => 1
  | .lrw => 1
  | .take _ => 1
  | .store => 0
  | .amoAdd => 4 | .amoMin => 4 | .amoMax => 4 | .amoXchg => 4 | .amoCas => 4 | .amoMinu => 4 | .amoMaxu => 4
  | .sc => 4
  | .rupAdd => 2 | .rupMin => 2 | .rupMax => 2 | .rupOr => 2 | .rupAnd => 2 | .rupXor => 2

/-- DATA of a journal entry (R161): 0 for a load or lrw. -/
def journalData (op : MemOp) (data : Word) : Word := if journalKind op = 1 then 0#64 else data

def entryOf (s : State) (r : Request) : JournalEntry :=
  { busy := true, ref := false, kind := journalKind r.op, cause := 0#4, mode := r.mode, size := r.size.log2, ea := r.ea,
    data := journalData r.op r.data, eng := 0#3, slot := slotOf r.key, gen := (s.thr r.key).gen, time := 0#64 }

/-- A refusal is recorded: REF, CAUSE and the TIME of the refusal (R161). -/
def recordRefusal (s : State) (core e : Nat) (x : JournalEntry) (cause : BitVec 4) : State :=
  (setJournal s core e { x with ref := true, cause := cause, time := s.time }).raised (.jref core e)

/-- Take a journal entry for each of a list of remote requests (R158): none when too few are free. -/
def takeEntries (s : State) : List Request → Option (State × List Request)
  | [] => some (s, [])
  | r :: rs =>
    if r.home = coreOf r.key then (takeEntries s rs).map fun x => (x.1, r :: x.2)
    else match journalFree (s.core (coreOf r.key)) with
      | none => none
      | some e =>
        let q := { r with jent := some e }
        (takeEntries (setJournal s (coreOf r.key) e (entryOf s q)) rs).map fun x => (x.1, q :: x.2)

/-! Lookahead windows (R37, R38). -/

/-- Every open window counts one issued instruction. -/
def countWindows (ws : List Window) : List Window := ws.map fun w => { w with count := w.count - 1 }

/-- The stores of a window are made: each is an st.d of its own, non-relaxed (R148, R334, R418), and one issues after the other. -/
def leaveStores (s : State) (k : Nat) (stores : List Request) : State :=
  let opened := stores.map fun r =>
    Outstanding.mk r.aid false (r.mode == 3#2) (if r.mode.toNat < 2 then some (r.ea.toNat % 2 ^ 52) else none)
  if stores = [] then s
  else (s.setThr k { s.thr k with outst := (s.thr k).outst ++ opened }).later (.storeIssue stores)

/-- The stores of a window that have not issued yet. -/
def unissued : Event → List Request
  | .storeIssue rs => rs
  | _ => []

/-- The payload loads of a system core's send (R327), accesses of its thread that no window holds. -/
def payloadLoads : Event → List Request
  | .payloadRead _ rs => rs
  | _ => []

/-- Every access that thread k has made has been performed. -/
def accessesOver (s : State) (k : Nat) : Bool :=
  (s.thr k).outst == [] && s.work.all fun e => (payloadLoads e).all (·.key != k)

/-- The refusal in entry e of its core's journal is a POSTED trap that thread k has not taken (R160, R181), with the address
of the entry. -/
def postRefusal (s : State) (k e : Nat) : State :=
  s.setThr k { s.thr k with posted := (s.thr k).posted ++ [(e, (journalAt (s.core (coreOf k)) e).ea)] }

/-- What one window's close does. -/
def closeResult (s : State) (k : Nat) (dest : Reg) : Result → State
  | .one v => closeReg s k dest v
  | .two v w => closeReg (closeReg s k dest v) k (dest + 1#5) w
  | .buffer v stores => closeReg (leaveStores s k stores) k dest v
  | .object cell => closeReg s k dest (readWord s.mem cell)
  | .kernel h asid => closeReg (freeEnded s h asid) k dest (kernelWord (recordReturned s h) asid)
  | .mstatus clear =>
    closeReg (if clear then s.setThr k { s.thr k with mstatus := 0#64 } else s) k dest (s.thr k).mstatus
  | .nothing => s
  | .refused j => postRefusal s k j

/-- Close, oldest first, the windows whose count has run out and whose result is there; a window that still waits for
its result holds back the ones that close after it. -/
def closeList (s : State) (k : Nat) : List Window → State × List Window
  | [] => (s, [])
  | w :: ws =>
    if w.count = 0 then
      match w.arrival with
      | .ready r => closeList (closeResult s k w.dest r) k ws
      | _ => (s, w :: ws)
    else
      let x := closeList s k ws
      (x.1, w :: x.2)

def closeWindows (s : State) (k : Nat) : State :=
  let x := closeList s k (s.thr k).windows
  x.1.setThr k { x.1.thr k with windows := x.2 }

/-- A window's count has run out and its result has not arrived: the thread issues nothing (R37). -/
def windowBlocked (t : Thread) : Bool := t.windows.any fun w => w.count == 0

/-- The instruction has issued: the pc moves to pc, the windows that were open before it count it, new windows open
behind them, and the windows that are due close. -/
def retireTo (s : State) (k : Nat) (pc : Word) (opened : List Window) : State :=
  let t := s.thr k
  closeWindows (s.setThr k
    { t with
      pc := pc, windows := countWindows t.windows ++ opened, stay := false, mismatch := false, sleep := none }) k

/-- An instruction that continues at the next word has issued. -/
def retire (s : State) (k : Nat) : State := retireTo s k ((s.thr k).pc + 4#64) []

/-- A new window (R37); its number is the counter's. -/
def newWindow (s : State) (d : Reg) (lk : BitVec 4) (event holds : Bool) (i : Instr) (a b : Word) (r : Arrival) :
    Window :=
  { id := s.nonce, dest := d, count := lk.toNat, event := event, holds := holds, word := encode i, pc := (s.thr s.cur).pc,
    a := a, b := b, mismatch := false, retry := false, arrival := r }

/-- The result of window wid has arrived: wherever the window stands (R39). -/
def arriveIn (wid : Nat) (r : Result) (ws : List Window) : List Window :=
  ws.map fun w => if w.id = wid then { w with arrival := .ready r } else w

def arrive (s : State) (k wid : Nat) (r : Result) : State :=
  let t := s.thr k
  closeWindows (s.setThr k { t with
    windows := arriveIn wid r t.windows, frozen := arriveIn wid r t.frozen, held := arriveIn wid r t.held }) k

/-- Every window of a thread, wherever it stands. -/
def Thread.allWindows (t : Thread) : List Window := t.held ++ t.frozen ++ t.windows

/-! The checker's retries (R459). -/

/-- The oldest instruction whose comparison failed when its result arrived, and that waits to be issued again (R459). -/
def Thread.toRetry (t : Thread) : Option Window := findFirst Window.retry t.allWindows

/-- It is issued again: it counts in no window, and its result comes later. -/
def reissueWindow (s : State) (k : Nat) (w : Window) : State :=
  let plain := fun (ws : List Window) => ws.map fun x => if x.id = w.id then { x with retry := false } else x
  let t := s.thr k
  (s.setThr k { t with windows := plain t.windows, frozen := plain t.frozen, held := plain t.held }).later
    (.longLatencyResultArrival k w.id)

def reissueOldest (s : State) (k : Nat) : State :=
  match (s.thr k).toRetry with
  | none => s
  | some w => reissueWindow s k w

/-! Exceptions (R179 to R187). -/

def kindILLEGAL : Nat := 1
def kindADDRESS : Nat := 2
def kindBUFPERM : Nat := 3
def kindPAGE : Nat := 4
def kindMEADOW : Nat := 5
def kindMCHECK : Nat := 6
def kindSYSCALL : Nat := 7
def kindSTATE : Nat := 8
def kindPOSTED : Nat := 9
def kindNOTIFY : Nat := 15

/-- XCAUSE and CAUSE (R187). -/
def causeWord (async : Bool) (kind detail : Nat) : Word :=
  BitVec.ofNat 64 ((if async then 2 ^ 63 else 0) + 256 * kind + detail)

/-- The privileged view of a handler entry: the thread's own, also where a user-level handler has left it (R191; log 36,
DESIGN CHOICE), or the hypervisor view. -/
def privilegedView (t : Thread) : View :=
  match t.view with
  | .user => if t.uin && t.uview != .user then t.uview else .hypervisor
  | v => v

/-- The handler entry of slot 7 or of a system core (R183): XPC, XCAUSE and XVAL, the shadow set, XSTAT.IN and the
privileged view, TVEC; the open windows are held (R39). DOUBLE clears on a system core. -/
def enterHandler (s : State) (k : Nat) (pc : Word) (cause : Word) (val : Word) : State :=
  let t := s.thr k
  s.setThr k { t with
    xpc := pc, xcause := cause, xval := val
    p := withLowFour t.p t.xalt, xalt := lowFour t.p
    xin := true, xview := t.view
    view := privilegedView t
    xdouble := t.xdouble && !isSystem (coreOf k)
    pc := t.tvec, stay := false, mismatch := false, spent := false
    windows := [], held := t.windows }

/-- The reset of one system core by a double trap (R183): its thread starts again at the running image's ENTRY
(log 8, DEDUCED); the inbox is emptied into DLCNT of die 0 (R331); journal entries of accesses in flight stay until their
responses come, and its TLB keeps its entries (R407). -/
def resetSystemThread (s : State) (k : Nat) : State :=
  let c := s.core (coreOf k)
  let dropped := (c.inbox.map fun x => x.2.length).sum
  let s := s.setCore (coreOf k)
    { Core.reset with heldInReset := false, tlb := c.tlb, journal := c.journal.filter fun e => e.2.busy && !e.2.ref }
  let s := s.setDie 0 { s.die 0 with dlcnt := (s.die 0).dlcnt + BitVec.ofNat 32 dropped }
  s.setThr k { Thread.empty with
    sstate := .run, view := .hypervisor, xview := .hypervisor, pc := s.entry,
    xdouble := true }

/-- A double trap (R183): on a compute core slot 7 stops, XSTAT.DOUBLE is set and the core is quarantined with cause
DOUBLE (R462); a system core is reset. -/
def doubleTrap (s : State) (k : Nat) : State :=
  if isSystem (coreOf k) then resetSystemThread s k
  else (s.setThr k { s.thr k with sstate := .trapped, xdouble := true }).now (.quarantine (coreOf k) 1#3)

/-- An exact or POSTED trap of a user slot (R182): the record, TPEND, TRAPPED; slot 7 enters for TPEND. -/
def trapSlot (s : State) (k : Nat) (epc cause tval : Word) : State :=
  let t := s.thr k
  let s := s.setThr k { t with epc := epc, cause := cause, tval := tval, sstate := .trapped, mismatch := false, spent := false }
  let c := s.core (coreOf k)
  s.setCore (coreOf k) { c with tpend := c.tpend ||| (1#7 <<< slotOf k) }

/-- Whether the thread takes its own traps: slot 7 of a compute core and the thread of a system core (R183). -/
def takesOwnTraps (k : Nat) : Bool := isSystem (coreOf k) || slotOf k == 7

/-- An exact trap of thread k that resumes at epc (R179, R182, R183): the thread's own handler, a double trap, or the
slot's record. -/
def trapAt (s : State) (k : Nat) (epc : Word) (kind detail : Nat) (tval : Word) : State :=
  if takesOwnTraps k then
    if (s.thr k).xin then doubleTrap s k
    else enterHandler s k epc (causeWord false kind detail) tval
  else trapSlot s k epc (causeWord false kind detail) tval

/-- An exact trap at the instruction: EPC is its address. -/
def exactTrap (s : State) (k : Nat) (kind detail : Nat) (tval : Word) : State :=
  trapAt s k (s.thr k).pc kind detail tval

/-- The return of R197: the thread's own p0 to p3, IN, the view at entry, XPC; the held windows count on. -/
def leaveHandler (s : State) (k : Nat) : State :=
  let t := s.thr k
  s.setThr k { t with
    p := withLowFour t.p t.xalt, xalt := lowFour t.p
    xin := false, view := t.xview, pc := t.xpc
    windows := t.held ++ t.windows, held := [] }

/-- The thread's name word (R325): die, row, column, slot, generation; a system core's has ROW 15 and its number as
COL (R331). -/
def nameWord (k : Nat) (gen : BitVec 8) : BitVec 22 :=
  let c := coreOf k
  if isSystem c then BitVec.ofNat 22 (15 * 2 ^ 16 + (c - 1024) * 2 ^ 11)
  else BitVec.ofNat 22 (dieOf c % 4 * 2 ^ 20 + rowOf c * 2 ^ 16 + colOf c * 2 ^ 11 + slotOf k * 2 ^ 8 + gen.toNat)

end Sys2Proof.Machine
end

