-- ==== Sys2Proof/Machine/Translate.lean ====
section
/-! DEFINITION. Pages, translation and page faults (19 R400 to R415), homes of translated and named addresses (06 R132
to R140), partitions (23 R473 to R476). -/

namespace Sys2Proof.Machine

/-- The n bits of a word from bit lo up, as a number. -/
def bitsAt (w : Word) (lo n : Nat) : Nat := w.toNat / 2 ^ lo % 2 ^ n

/-- log2 of a page size by level (R400). -/
def levelShift : Nat → Nat
  | 0 => 12 | 1 => 16 | 2 => 21 | 3 => 25 | 4 => 29 | _ => 34

/-- Index bits of a level's table (R400). -/
def levelBits : Nat → Nat
  | 0 => 4 | 1 => 5 | 2 => 4 | 3 => 4 | 4 => 5 | _ => 17

def pageSize (level : Nat) : Nat := 2 ^ levelShift level

/-- Size and alignment of a level's table in bytes (R400). -/
def tableSize (level : Nat) : Nat := 8 * 2 ^ levelBits level

/-- The index of an address in a level's table. -/
def levelIndex (level : Nat) (ea : Nat) : Nat := ea / pageSize level % 2 ^ levelBits level

/-- Number of logical cores of a cluster (R137). -/
def clusterCores (token : Bool) : Nat := if token then 128 else 96

/-- Whether a physical address is valid (R401, R404): its zero fields, a row of the mesh, no retired die. -/
def physOk (s : State) (silo : Bool) (pa : Nat) : Bool :=
  pa / 2 ^ 50 == 0 && !s.dieRetired (pa / 2 ^ 48 % 4) &&
    (if silo then pa / 2 ^ 44 % 16 == 0 && pa / 2 ^ 34 % 64 == 0
     else decide (pa / 2 ^ 44 % 16 < 14) && pa / 2 ^ 24 % 2 ^ 16 == 0)

/-- The next-table address of a pointer entry (R403). -/
def tableAddress (e : Word) : Nat := bitsAt e 7 45 * 2 ^ 7

/-- A pointer entry to a table of the given level is not absent (R403, R404). -/
def pointerOk (s : State) (level : Nat) (e : Word) : Bool :=
  e.getLsbD 0 && !e.getLsbD 1 && bitsAt e 60 4 == 0 && bitsAt e 52 7 == 0 && bitsAt e 2 5 == 0 &&
    tableAddress e % tableSize level == 0 && physOk s (e.getLsbD 59) (tableAddress e)

/-- The frame offset of a leaf: 34 bits in the Silo, 24 in the Loft (R401, R403). -/
def leafOffset (e : Word) : Nat := if e.getLsbD 59 then bitsAt e 12 22 * 2 ^ 12 else bitsAt e 12 12 * 2 ^ 12

def leafIlv (e : Word) : Bool := e.getLsbD 58
def leafToken (e : Word) : Bool := e.getLsbD 57

/-- A leaf entry of a level is not absent (R403, R404). -/
def leafOk (level : Nat) (e : Word) : Bool :=
  e.getLsbD 0 && e.getLsbD 1 && bitsAt e 60 2 == 0 && bitsAt e 52 5 == 0 && bitsAt e 7 5 == 0 && bitsAt e 2 2 == 0 &&
  bitsAt e 48 4 == 0 &&
  (if leafIlv e then
    !e.getLsbD 59 && decide (1 ≤ level) && decide (level ≤ 4) && bitsAt e 24 24 == 0 &&
      decide (leafOffset e + (pageSize level + 256 * clusterCores (leafToken e) - 1) /
        (256 * clusterCores (leafToken e)) * 256 ≤ 2 ^ 24)
   else if e.getLsbD 59 then bitsAt e 44 4 == 0 && bitsAt e 34 6 == 0 && leafOffset e % pageSize level == 0
   else decide (bitsAt e 44 4 < 14) && bitsAt e 24 16 == 0 && decide (level ≤ 2) &&
     leafOffset e % pageSize level == 0)

/-- The home core of a physical address (R14, R18, R401). -/
def physHome (silo : Bool) (pa : Nat) : Nat :=
  coreAt (pa / 2 ^ 48 % 4) (if silo then 13 else pa / 2 ^ 44 % 16) (pa / 2 ^ 40 % 16)

/-- A table entry in memory can be read (R404, R466): its line, and at its home, which refuses nothing (R159). -/
def readable (s : State) (cell : Nat) : Bool :=
  let home := physHome (decide (2 ^ 52 ≤ cell)) cell
  !s.poison.contains (cell / 64) && s.erring.all (·.1 != cell / 64) && (s.core home).health == .good && !s.dieRetired (dieOf home)

/-- One DIEMAP entry (R138). -/
def diemapEntry (s : State) (i : Nat) : Nat := bitsAt (if i < 32 then s.diemap0 else s.diemap1) (2 * (i % 32)) 2

/-- The exclusive or of the 6-bit fields of a page number (R136): n fields. -/
def foldSix : Nat → Nat → Nat
  | 0, _ => 0
  | n + 1, v => Nat.xor (v % 64) (foldSix n (v / 64))

/-- The home die of a page (R136). -/
def homeDie (s : State) (level : Nat) (ea : Nat) : Nat := diemapEntry s (foldSix 9 (ea % 2 ^ 52 / pageSize level))

/-- A location: its cell, its home core, whether the access goes through the core's port or the mesh, whether it lies
in the issuing core's own buffers (R142, R143). -/
structure Place where
  cell : Nat
  home : Nat
  port : Bool
  own : Bool
  /-- the mode code of R139; for an R-format access the page's layout, or glob -/
  mode : BitVec 2
  deriving DecidableEq, Repr

/-- Where a translated address leads (R135 to R137). -/
def leafPlace (s : State) (level : Nat) (e : Word) (ea : Nat) : Place :=
  let die := homeDie s level ea
  let t := ea % pageSize level
  if leafIlv e then
    let n := clusterCores (leafToken e)
    let core := (t / 256 + ea / pageSize level) % n
    let row := (if leafToken e then 6 else 0) + core / 16
    let home := coreAt die row (core % 16)
    ⟨physCell false (die * 2 ^ 48 + row * 2 ^ 44 + core % 16 * 2 ^ 40 + leafOffset e + 256 * (t / 256 / n) + t % 256),
      home, true, false, 1#2⟩
  else if e.getLsbD 59 then
    let col := bitsAt e 40 4
    ⟨physCell true (die * 2 ^ 48 + col * 2 ^ 40 + leafOffset e + t), coreAt die 13 col, true, false, 0#2⟩
  else
    let row := bitsAt e 44 4
    let col := bitsAt e 40 4
    ⟨physCell false (die * 2 ^ 48 + row * 2 ^ 44 + col * 2 ^ 40 + leafOffset e + t), coreAt die row col, true, false, 0#2⟩

/-- The sizes of the typed buffers W, A, C (R18). -/
def bufferSize (core buffer : Nat) : Nat :=
  match isPrompt core, buffer with
  | true, 0 => 2 ^ 20
  | true, 1 => 2 ^ 19
  | true, _ => 2 ^ 18
  | false, 0 => 2 ^ 18
  | false, 1 => 2 ^ 19
  | false, _ => 2 ^ 17

/-- Access kinds (R405). -/
def kindLOAD : Nat := 0
def kindSTORE : Nat := 1
def kindRMW : Nat := 2
def kindFETCH : Nat := 3

/-- The permission test of R405, then the owner test of R406: the REASON of the fault, if any. -/
def leafReason (e : Word) (core kind : Nat) : Option Nat :=
  let perm := match kind with
    | 0 => e.getLsbD 5
    | 1 => e.getLsbD 6
    | 2 => e.getLsbD 5 && e.getLsbD 6
    | _ => e.getLsbD 4
  if !perm then some 1
  else if e.getLsbD 63 && (kind == 1 || kind == 2) && !isSystem core && (e.getLsbD 62 == isPrompt core) then some 2
  else none

/-- The TLB entry an access uses (R407): the first of the core's that covers it. -/
def tlbFind (c : Core) (asid : BitVec 16) (ea : Nat) : Option TlbEntry :=
  findFirst (fun e => e.asid == asid && e.base.toNat / pageSize e.level == ea / pageSize e.level) c.tlb

/-- The virtual function whose range holds an ASID (R475). -/
def vfAt (s : State) (v : Nat) : Vf := tabGet Vf.reset s.vfs v

def vfHolds (x : Vf) (asid : BitVec 16) : Bool :=
  x.valid && decide (x.abase.toNat ≤ asid.toNat) && decide (asid.toNat < x.abase.toNat + x.acnt.toNat)

def vfOfAsid (s : State) (asid : BitVec 16) : Option Nat := findFirst (fun v => vfHolds (vfAt s v) asid) (upTo 32)

/-- The first quad of a tree (R472), and the quads of a node. -/
def treeBase : Nat → Nat
  | 0 => 0 | 1 => 16 | _ => 24

def nodeQuads (n : Node) : Nat × Nat := (treeBase n.tree + n.index * 2 ^ n.level, 2 ^ n.level)

def nodeHolds (n : Node) (quad : Nat) : Bool :=
  decide ((nodeQuads n).1 ≤ quad) && decide (quad < (nodeQuads n).1 + (nodeQuads n).2)

/-- The virtual function to which a core's quad is assigned. -/
def vfOfCore (s : State) (core : Nat) : Option Nat :=
  (findFirst (fun n => nodeHolds n (quadOf core)) (s.die (dieOf core)).nodes).map Node.vf

/-- Whether a compute core lies in the partition of a context (R286, R473): the system context spans the package; the
context of a virtual function has that function's nodes; any other has the quads that no function holds (log 9, DEDUCED). -/
def inPartition (s : State) (asid : BitVec 16) (core : Nat) : Bool :=
  asid == 0#16 || vfOfAsid s asid == vfOfCore s core

/-- What the checks of R140 answer. -/
inductive Reach where
  | trap (kind detail : Nat) (tval : Word)
  | page (reason : Nat)
  | miss
  | at (p : Place)
  deriving DecidableEq, Repr

/-- The block-length log of a format code (R100); none for a reserved code. -/
def formatLog (code : Nat) : Option Nat :=
  if code = 1 then some 3 else if code ≤ 8 then some 0 else if code = 0x3F then some 0 else none

/-- The tag of a pointer that names an address decodes (R101): not a reserved code, bits 54:52 zero, the format's
block-length log, no channel. -/
def tagOk (a : Word) : Bool :=
  let code := bitsAt a 58 6
  code != 0x3F && bitsAt a 52 3 == 0 && formatLog code == some (bitsAt a 55 3)

/-- The address of a pointer (R100). -/
def addrOf (a : Word) : Nat := bitsAt a 0 52

/-- An address that a signed offset forms, in the width of a register: out of range below 0 and from 2^52 on. -/
def formEa (a : Word) (off : Int) : Int := (addrOf a : Int) + off

/-- Translation of an address for a thread (R140, R405, R406): the layout that the mode asks for, if any. -/
def translated (s : State) (core : Nat) (asid : BitVec 16) (ea kind : Nat) (layout : Option Bool) : Reach :=
  match tlbFind (s.core core) asid ea with
  | none => .miss
  | some t =>
    match leafReason t.leaf core kind with
    | some r => .page r
    | none =>
      if layout.all (· == leafIlv t.leaf) then .at (leafPlace s t.level t.leaf ea)
      else .trap kindADDRESS 0 (BitVec.ofNat 64 ea)

/-- A core-global address (R15, R139 to R141): write says that W and C refuse it (R132). The word w is the trapping
instruction's, for UNIT. -/
def globReach (s : State) (core : Nat) (asid : BitVec 16) (ea : Nat) (write : Bool) (w : IWord) : Reach :=
  let v := BitVec.ofNat 64 ea
  let home := coreAt (ea / 2 ^ 49 % 4) (ea / 2 ^ 45 % 16) (ea / 2 ^ 40 % 32)
  let buffer := ea / 2 ^ 38 % 4
  let off := ea % 2 ^ 38
  if ea / 2 ^ 51 = 0 ∨ buffer = 3 then .trap kindADDRESS 0 v
  else if isSystem core then .trap kindILLEGAL 6 (w.setWidth 64)
  else if 14 ≤ ea / 2 ^ 45 % 16 ∨ 16 ≤ ea / 2 ^ 40 % 32 ∨ s.dieRetired (ea / 2 ^ 49 % 4) then .trap kindADDRESS 0 v
  else if bufferSize home buffer ≤ off then .trap kindADDRESS 0 v
  else if !inPartition s asid home then .trap kindBUFPERM buffer v
  else if write && buffer != 1 then .trap kindBUFPERM buffer v
  else .at ⟨bufferCell home buffer off, home, true, home == core, 2#2⟩

/-- A core-private address (R139, R140). -/
def hereReach (core ea : Nat) (write : Bool) : Reach :=
  let v := BitVec.ofNat 64 ea
  let buffer := ea / 2 ^ 20 % 4
  let off := ea % 2 ^ 20
  if ea / 2 ^ 22 ≠ 0 ∨ buffer = 3 then .trap kindADDRESS 0 v
  else if bufferSize core buffer ≤ off then .trap kindADDRESS 0 v
  else if write && buffer != 1 then .trap kindBUFPERM buffer v
  else .at ⟨bufferCell core buffer off, core, false, true, 3#2⟩

/-- The checks of R140 for an M-format access of a thread: the pointer a, the signed byte offset, the access size, the
mode code, the kind of R405. -/
def reachMode (s : State) (k : Nat) (a : Word) (off : Int) (size : Nat) (mode : BitVec 2) (kind : Nat) (w : IWord) :
    Reach :=
  let core := coreOf k
  let asid := (s.thr k).asid
  let x := formEa a off
  let v := BitVec.ofInt 64 x
  let ea := x.toNat
  if !tagOk a then .trap kindADDRESS 0 a
  else if x < 0 ∨ (2 : Int) ^ 52 ≤ x then .trap kindADDRESS 0 v
  else if ea % size ≠ 0 then .trap kindADDRESS 0 v
  else match mode.toNat with
    | 2 => globReach s core asid ea (kind != kindLOAD) w
    | 3 => hereReach core ea (kind != kindLOAD)
    | m =>
      if ea / 2 ^ 51 = 1 then .trap kindADDRESS 0 v
      else translated s core asid ea kind (some (m == 1))

/-- The checks of R140 for an R-format access: glob when bit 51 is 1, else the page's own layout. -/
def reachPlain (s : State) (k : Nat) (a : Word) (size : Nat) (kind : Nat) (w : IWord) : Reach :=
  let core := coreOf k
  let asid := (s.thr k).asid
  let ea := addrOf a
  if !tagOk a then .trap kindADDRESS 0 a
  else if ea % size ≠ 0 then .trap kindADDRESS 0 (BitVec.ofNat 64 ea)
  else if ea / 2 ^ 51 = 1 then globReach s core asid ea (kind != kindLOAD) w
  else translated s core asid ea kind none

/-! Page faults (R411 to R415) and walks (R408, R409). -/

/-- DETAIL of a page fault (R411). -/
def pageDetail (reason kind : Nat) : Nat := 8 * reason + kind

/-- A page fault of thread k at its instruction: its own handler (slot 7, system core), or PAGEWAIT and an entry of the
die's fault queue; with the queue full the thread forfeits and walks again (R413). -/
def pageFault (s : State) (k : Nat) (va : Word) (reason kind : Nat) : State :=
  let t := s.thr k
  if takesOwnTraps k then exactTrap s k kindPAGE (pageDetail reason kind) va
  else
    let d := s.die (dieOf (coreOf k))
    if 256 ≤ d.faults.length then s
    else
      let s := s.setThr k { t with
        epc := t.pc, cause := causeWord false kindPAGE (pageDetail reason kind), tval := va, sstate := .pagewait }
      s.setDie (dieOf (coreOf k)) { d with
        faults := d.faults ++ [FaultEntry.mk k d.fqseq t.group t.asid va t.tnum (pageDetail reason kind)
          (nameWord k t.gen) s.time false]
        fqseq := d.fqseq + 1#32 }

/-- The walkers of a die's 96 that are busy: with its threads, and with its cores' copy engines (R408). -/
def walkersBusy (s : State) (die : Nat) : Nat :=
  let ours := s.threads.filter fun x => !isSystem (coreOf x.1) && dieOf (coreOf x.1) == die
  (ours.filter (·.2.walk.isSome)).length + (ours.filter (·.2.rewalk.isSome)).length +
    (s.cores.filter fun x => x.2.walk.isSome && dieOf x.1 == die).length

/-- A TLB miss of thread k (R408): a walk begins; with all 96 walkers of the die busy the thread forfeits. -/
def startWalk (s : State) (k : Nat) (va : Word) (kind : Nat) : State :=
  let die := dieOf (coreOf k)
  if !isSystem (coreOf k) && decide (96 ≤ walkersBusy s die) then s
  else
    let t := s.thr k
    (s.setThr k { t with
      hold := .walk
      walk := some (Walk.start va kind t.asid (s.die die).prcnt) }).later
        (.walkEnd k)

/-- What one step of a walk finds: absent, a pointer to the next table, or a leaf. -/
inductive WalkStep where
  | absent
  | pointer (level : Nat) (e : Word)
  | leaf (e : Word)
  deriving DecidableEq, Repr

/-- The next read of a walk (R404): the ASID table first, then level 5 down to level 0. -/
def walkStep (s : State) (w : Walk) : WalkStep :=
  match w.entry with
  | none =>
    let pa := bitsAt s.asidtab 19 33 * 2 ^ 19
    let silo := s.asidtab.getLsbD 59
    let cell := physCell silo (pa + 8 * w.asid.toNat)
    if !s.asidtab.getLsbD 0 || !physOk s silo pa || !readable s cell then .absent
    else
      let e := readWord s.mem cell
      if pointerOk s 5 e then .pointer 5 e else .absent
  | some p =>
    let cell := physCell (p.getLsbD 59) (tableAddress p + 8 * levelIndex w.level w.va.toNat)
    if !physOk s (p.getLsbD 59) (tableAddress p) || !readable s cell then .absent
    else
      let e := readWord s.mem cell
      if e.getLsbD 1 then (if leafOk w.level e then .leaf e else .absent)
      else match w.level with
        | 0 => .absent
        | l + 1 => if pointerOk s l e then .pointer l e else .absent

/-- Put an entry into a core's TLB: at most 64 are held, and which one a full TLB drops is open (R407). -/
def tlbInstall (s : State) (core : Nat) (e : TlbEntry) : State :=
  let c := s.core core
  if c.tlb.length < 64 then s.setCore core { c with tlb := c.tlb ++ [e] }
  else (s.setCore core { c with tlb := c.tlb.eraseIdx (Config.tlbVictim s.nonce % 64) ++ [e] }).tick

/-- Where a walk's last read stood. -/
def walkCell (s : State) (w : Walk) : Nat :=
  match w.entry with
  | none => physCell (s.asidtab.getLsbD 59) (bitsAt s.asidtab 19 33 * 2 ^ 19 + 8 * w.asid.toNat)
  | some p => physCell (p.getLsbD 59) (tableAddress p + 8 * levelIndex w.level w.va.toNat)

/-- The TLB entry of the leaf at which a walk ends (R407, R423). -/
def walkEntry (s : State) (w : Walk) (e : Word) : TlbEntry :=
  { asid := w.asid, base := BitVec.ofNat 64 (addrOf w.va / pageSize w.level * pageSize w.level), level := w.level,
    leaf := e, leafCell := walkCell s w }

/-- Whether a page of a context that covers an address is being given (R423, R425). -/
def givingAt (s : State) (asid : BitVec 16) (va : Nat) : Bool :=
  s.cores.any fun x => x.2.gives.any fun g =>
    g.asid == asid && decide (g.base.toNat ≤ va) && decide (va < g.base.toNat + pageSize g.size)

/-- A walk that ends at a leaf has to wait for a give (R425): it is a handover page of a compute core's walk. -/
def walkHeld (s : State) (core : Nat) (w : Walk) (e : Word) : Bool :=
  e.getLsbD 63 && !isSystem core && givingAt s w.asid (addrOf w.va)

/-- What the next load of a walk on behalf of a core comes to: the walk goes on, it has filled the TLB, or it ends absent. -/
inductive WalkTurn where
  | on (w : Walk)
  | filled (s : State)
  | absent

/-- One load of a walk (R404, R407, R409, R425): it begins again where its die has taken a presume since it began, and waits at a page
that is being given. -/
def walkTurn (s : State) (core : Nat) (w : Walk) : WalkTurn :=
  let now := (s.die (dieOf core)).prcnt
  match walkStep s w with
  | .pointer l e => .on { w with level := l, entry := some e }
  | .leaf e => if walkHeld s core w e then .on w.again else .filled (tlbInstall s core (walkEntry s w e))
  | .absent => if !isSystem core && now != w.prcnt then .on { w.again with prcnt := now } else .absent

/-- One load of the walk through which an open window of thread k finds its place again (R408): it takes a walker of the die, or waits
for one; ended, it gives it back. -/
def windowWalk (s : State) (k ea : Nat) : State :=
  let core := coreOf k
  let die := dieOf core
  let put := fun (s : State) (w : Option Walk) => s.setThr k { s.thr k with rewalk := w }
  match (s.thr k).rewalk with
  | none =>
    if !isSystem core && decide (96 ≤ walkersBusy s die) then s
    else put s (some (Walk.start (BitVec.ofNat 64 ea) 0 (s.thr k).asid (s.die die).prcnt))
  | some w => match walkTurn s core w with
    | .on w => put s (some w)
    | .filled s => put s none
    | .absent => put s none

/-- The place of an address of an open window of thread k, through the TLB: at once, or with one more load of a walk. Where the page
is absent or refuses the access, the window waits and walks again (log 17, DEDUCED). -/
def windowPlace (s : State) (k ea kind : Nat) (lin : Bool) : Except State Place :=
  match tlbFind (s.core (coreOf k)) (s.thr k).asid ea with
  | none => .error (windowWalk s k ea)
  | some t =>
    if (leafReason t.leaf (coreOf k) kind).isSome || (lin && leafIlv t.leaf) then .error s
    else .ok (leafPlace s t.level t.leaf ea)

/-- The walk of thread k goes one level on, fills the TLB, or raises the fault (R404, R407, R409). -/
def walkAdvance (s : State) (k : Nat) (w : Walk) : State :=
  let ended := fun (s : State) => s.setThr k { s.thr k with walk := none, hold := .none }
  match walkTurn s (coreOf k) w with
  | .on w => (s.setThr k { s.thr k with walk := some w }).later (.walkEnd k)
  | .filled s => ended s
  | .absent => pageFault (ended s) k w.va 0 w.kind

end Sys2Proof.Machine
end

