-- ==== Sys2Proof/WellFormed.lean ====
section
/-! DEFINITION. Well-formed instructions: those that have a word, whose sub-fields hold values that the rules assign
(R9, R42, R43, R127, R195) and whose register codes name operands (R33, R34). What depends on the machine (the view,
the kind of core, the user-level handler) is checked at issue. -/

namespace Sys2Proof

/-- An instruction with a word whose fields and operands are in order (R32, R33, R34, R43, R50). -/
def wellFormed (i : Instr) : Bool := isWord i && fieldsOk i && operandsOk i

/-- The proposition of wellFormed. -/
abbrev WellFormed (i : Instr) : Prop := wellFormed i = true

end Sys2Proof
end

