-- ==== Sys2Proof/Machine/Issue.lean ====
section
/-! DEFINITION. The issue of an instruction: the decode faults of R50 in their order, the hold-back of R494, the
eight-window limit of R38, and the ways an instruction completes. Every meaning of an instruction with a word goes
through Machine.issue. -/

namespace Sys2Proof.Machine

/-- Cause codes of R50. -/
def causeOPCODE : Nat := 1
def causeFIELD : Nat := 2
def causeOPERAND : Nat := 3
def causeLOOKAHEAD : Nat := 4
def causePRIVILEGE : Nat := 5
def causeUNIT : Nat := 6

/-- The cause of R50 that a decoded instruction raises on a thread, the first in its order. A privileged handler that was
entered while USTAT.IN was 1 counts as inside the user-level handler for LOOKAHEAD (log 36, DESIGN CHOICE: R50 and R39 do
not say). -/
def issueCause (i : Instr) (s : State) (k : Nat) : Option Nat :=
  if isSystem (coreOf k) && unitWord (encode i) then some causeUNIT
  else if !fieldsOk i then some causeFIELD
  else if privilegedInstr i && (s.thr k).view == .user then some causePRIVILEGE
  else if !operandsOk i then some causeOPERAND
  else if (s.thr k).uin && lookaheadOf i != 0#4 then some causeLOOKAHEAD
  else none

/-- The cause of R50 that a word which is no row of the opcode table raises. -/
def illegalCause (w : IWord) (s : State) (k : Nat) : Nat :=
  if !majorAssigned (opOf w).toNat then causeOPCODE
  else if isSystem (coreOf k) && unitWord w then causeUNIT
  else match decode (clearLookahead w) with
    | none => causeFIELD
    | some i => (issueCause i s k).getD causeLOOKAHEAD

/-- An illegal-instruction trap: DETAIL is the cause and TVAL the word (R179). -/
def illegalTrap (s : State) (k : Nat) (cause : Nat) (w : IWord) : State :=
  exactTrap s k kindILLEGAL cause (w.setWidth 64)

/-- The instructions that read or write a location of R162, which an open acquire holds back (R494). Of the engine
commands of major 0x60, those of eng 3 are the Meadow's, which R494 lets issue (log 10, DEDUCED). -/
def memoryInstr (i : Instr) : Bool :=
  let w := encode i
  let op := (opOf w).toNat
  let fn := (fnOf w).toNat
  (0x40 ≤ op && op ≤ 0x54) || op == 0x5A || (op == 0x60 && engOf w != 3#3) ||
    (op == 0x61 && (fn == 1 || fn == 8 || fn == 9)) ||
    (op == 0x59 && fn ≤ 1) ||
    (op == 0x6D && fn ≤ 1) ||
    (op == 0x6E && (fn ≤ 1 || fn == 8 || fn == 0x0B || fn == 0x0C)) ||
    (op == 0x6F && (fn == 0 || fn == 8 || fn == 9))

/-- Whether a window still waits for its result. -/
def Window.waits (w : Window) : Bool :=
  match w.arrival with
  | .ready _ => false
  | _ => true

/-- A thread with an acquire whose value has not arrived (R150, R494). -/
def heldBack (t : Thread) : Bool := t.allWindows.any fun w => w.holds && w.waits

/-- Long-latency instructions have a lookahead field: L and E (R36). -/
def isLong (i : Instr) : Bool :=
  let w := encode i
  let op := (opOf w).toNat
  let fn := (fnOf w).toNat
  (op == 0x01 && 0x10 ≤ fn) || (0x20 ≤ op && op ≤ 0x25) || (0x40 ≤ op && op ≤ 0x46) || op == 0x4C ||
    op == 0x50 || op == 0x51 || op == 0x52 || op == 0x53 ||
    (op == 0x58 && 0x10 ≤ fn && fn ≤ 0x17) || (op == 0x59 && fn == 1) || (op == 0x5A && fn != 4) ||
    (op == 0x61 && (fn == 1 || fn == 9 || fn == 0x10 || fn == 0x19 || fn == 0x1A || fn == 0x21)) ||
    (op == 0x6E && (fn ≤ 2 || fn == 8 || fn == 0x0C)) || (op == 0x6F && (fn == 0 || fn == 9))

/-- The oldest open window of a thread, frozen and held ones among them (R38, R39): the one with the least number. -/
def oldestWindow (t : Thread) : Option Window :=
  t.allWindows.foldl (fun best w => match best with
    | some x => if x.id ≤ w.id then some x else some w
    | none => some w) none

/-- The thread with the p0 to p3 that its user-level handler, or its privileged handler, does not use. -/
def Thread.userSet (t : Thread) : Thread := { t with p := withLowFour t.p t.ualt, ualt := lowFour t.p }
def Thread.entrySet (t : Thread) : Thread := { t with p := withLowFour t.p t.xalt, xalt := lowFour t.p }

/-- Window w of thread k closes with result r, wherever it stands: a frozen or held one writes the registers of the
interrupted instructions. -/
def closeOne (s : State) (k : Nat) (w : Window) (r : Result) : State :=
  let t := s.thr k
  let without := fun (ws : List Window) => ws.filter (·.id != w.id)
  let set := fun (x : Thread) => if t.frozen.contains w then x.userSet else if t.held.contains w then x.entrySet else x
  let s := s.setThr k (set { t with windows := without t.windows, frozen := without t.frozen, held := without t.held })
  let s := closeResult s k w.dest r
  s.setThr k (set (s.thr k))

/-- R38: with 8 windows open the oldest closes, as though its count had run out, before a long-latency instruction
issues; none while its result has not arrived. -/
def closeOldest (s : State) (k : Nat) : Option State :=
  match oldestWindow (s.thr k) with
  | none => none
  | some w => match w.arrival with
    | .ready r => some (closeOne s k w r)
    | _ => none

/-- The registers of thread k, shared ones included, as they are in s'. -/
def withRegisters (s s' : State) (k : Nat) : State :=
  let x := s'.thr k
  let c := s'.core (coreOf k)
  (s.setThr k { s.thr k with p := x.p, q := x.q, ualt := x.ualt, xalt := x.xalt }).setCore (coreOf k)
    { s.core (coreOf k) with sbank := c.sbank, slast := c.slast }

/-- Whether the long-latency instruction at thread k's pc has issued between s and s'. -/
def hasIssued (s s' : State) (k : Nat) : Bool :=
  let t := s'.thr k
  t.pc == (s.thr k).pc + 4#64 && t.sstate == .run && t.xin == (s.thr k).xin

/-- The registers of thread k go back to those of s: the instruction met a trap, a walk or a forfeit in s', so that it has
not issued, and no window has closed (R38, R39, R50). A system core that a double trap has reset keeps nothing. -/
def registersBack (s s' : State) (k : Nat) : State :=
  let t := s.thr k
  let u := s'.thr k
  if t.xin && !u.xin then s'
  else
    let x := if u.xin && !t.xin then t.entrySet else t
    (s'.setThr k { u with p := x.p, q := x.q, ualt := x.ualt, xalt := x.xalt }).setCore (coreOf k)
      { s'.core (coreOf k) with sbank := (s.core (coreOf k)).sbank, slast := (s.core (coreOf k)).slast }

/-- The opportunity is forfeited (R283): nothing has issued, and the instruction is met again at the next one. -/
def forfeit (s : State) : Out := .next s

/-- A long-latency instruction with 8 windows open (R38): it reads its registers behind the close of the oldest, which
happens only if it issues. A refusal that the close brings is taken first (R160). -/
def issueLast (s : State) (k : Nat) (effect : State → Out) : Out :=
  match closeOldest s k with
  | none => forfeit s
  | some s' =>
    if (s'.thr k).posted ≠ [] then forfeit s'
    else match effect s' with
      | .next u =>
        if hasIssued s' u k then .next u
        else match effect (withRegisters s s' k) with
          | .next v => if hasIssued s v k then forfeit s else .next (registersBack s v k)
          | o => o
      | o => o

/-- The issue of instruction i by the thread whose opportunity it is: the faults of R50, the hold-back of R494, the
window limit of R38; then its own effect. -/
def issue (i : Instr) (s : State) (effect : State → Out) : Out :=
  let k := s.cur
  match issueCause i s k with
  | some c => .next (illegalTrap s k c (encode i))
  | none =>
    if memoryInstr i && heldBack (s.thr k) then forfeit s
    else if isLong i && decide (8 ≤ (s.thr k).allWindows.length) then issueLast s k effect
    else effect s

/-- An instruction of kind S that writes d has issued. -/
def finishWrite (s : State) (d : Reg) (v : Word) : Out := .next (retire (writeReg s s.cur d v) s.cur)

/-- An instruction of kind S that writes no register has issued. -/
def finish (s : State) : Out := .next (retire s s.cur)

/-- A long-latency instruction has issued: a window opens with lk to go; its result r is fixed, and arrives at some
later time (R495). The counter gives the window its number. -/
def finishLong (s : State) (i : Instr) (d : Reg) (r : Result) : Out :=
  let k := s.cur
  let w := newWindow s d (lookaheadOf i) false false i 0#64 0#64 (.later r)
  .next (retireTo (s.tick.later (.longLatencyResultArrival k w.id)) k ((s.thr k).pc + 4#64) [w])

/-- A trap of the instruction at the pc. -/
def finishTrap (s : State) (kind detail : Nat) (tval : Word) : Out := .next (exactTrap s s.cur kind detail tval)

/-- The thread waits for the answer of a step that its instruction asked for at another unit (R283). -/
def awaitAnswer (s : State) (d : Reg) : State := s.setThr s.cur { s.thr s.cur with hold := .answer d }

/-- The answer has come: d is written, the instruction counts as issued, and the windows that it ends close behind its
write (R37). -/
def answer (s : State) (k : Nat) (d : Reg) (v : Word) : State :=
  let t := s.thr k
  if t.hold == .answer d then retire (writeReg (s.setThr k { t with hold := .none }) k d v) k else s

/-- The answer of a core to a thread: to another die it goes as a response (R440). -/
def answerFrom (s : State) (src k : Nat) (d : Reg) (v : Word) : State :=
  if dieOf src = dieOf (coreOf k) then answer s k d v else s.later (.answerArrival src k d v)

/-- ILLEGAL_INSTRUCTION (R50): the thread whose opportunity it is meets the word w. -/
def execIllegalInstruction (w : IWord) (s : State) : Out :=
  .next (illegalTrap s s.cur (illegalCause w s s.cur) w)

end Sys2Proof.Machine
end

