-- ==== Sys2Proof/Machine/Operands.lean ====
section
/-! DEFINITION. What the scalar instructions compute from their operands (05 R106 to R124), branch targets, and the
event test of wait and yield. -/

namespace Sys2Proof.Machine

/-! Integer arithmetic and logic (R106): results wrap modulo 2^64. -/

def addWord (a b : Word) : Word := a + b
def subWord (a b : Word) : Word := a - b
def andWord (a b : Word) : Word := a &&& b
def orWord (a b : Word) : Word := a ||| b
def xorWord (a b : Word) : Word := a ^^^ b
/-- the shifts use b[5:0] -/
def sllWord (a b : Word) : Word := a <<< (b.toNat % 64)
def srlWord (a b : Word) : Word := a >>> (b.toNat % 64)
def sraWord (a b : Word) : Word := a.sshiftRight (b.toNat % 64)
def minWord (a b : Word) : Word := if b.slt a then b else a
def maxWord (a b : Word) : Word := if a.slt b then b else a
def minuWord (a b : Word) : Word := if b.ult a then b else a
def maxuWord (a b : Word) : Word := if a.ult b then b else a
def selWord (a b q : Word) : Word := (a &&& q) ||| (b &&& ~~~q)

/-! Multiplication (R107) and division (R108). -/

def mulWord (a b : Word) : Word := a * b
def mulhWord (a b : Word) : Word := BitVec.ofInt 64 (a.toInt * b.toInt / 2 ^ 64)
def mulhuWord (a b : Word) : Word := BitVec.ofNat 64 (a.toNat * b.toNat / 2 ^ 64)

/-- Truncation towards zero; division by 0 gives all ones; −2^63 over −1 wraps to −2^63. -/
def divWord (a b : Word) : Word := if b = 0#64 then ~~~0#64 else BitVec.ofInt 64 (a.toInt.tdiv b.toInt)

/-- The remainder has the sign of a; division by 0 gives a; −2^63 over −1 leaves 0. -/
def remWord (a b : Word) : Word := if b = 0#64 then a else BitVec.ofInt 64 (a.toInt.tmod b.toInt)
def divuWord (a b : Word) : Word := if b = 0#64 then ~~~0#64 else BitVec.ofNat 64 (a.toNat / b.toNat)
def remuWord (a b : Word) : Word := if b = 0#64 then a else BitVec.ofNat 64 (a.toNat % b.toNat)

/-! Bit counts (R109), packing and spreading (R110). -/

/-- The zero bits from bit i - 1 down to the highest 1. -/
def leadingZeros (a : Word) : Nat → Nat
  | 0 => 0
  | i + 1 => if a.getLsbD i then 0 else 1 + leadingZeros a i

/-- The zero bits from bit i up to the lowest 1; n bits are looked at. -/
def trailingZeros (a : Word) : Nat → Nat → Nat
  | 0, _ => 0
  | n + 1, i => if a.getLsbD i then 0 else 1 + trailingZeros a n (i + 1)

/-- The 1 bits below bit i. -/
def countOnes (a : Word) : Nat → Nat
  | 0 => 0
  | i + 1 => (if a.getLsbD i then 1 else 0) + countOnes a i

def clzWord (a : Word) : Word := BitVec.ofNat 64 (leadingZeros a 64)
def ctzWord (a : Word) : Word := BitVec.ofNat 64 (trailingZeros a 64 0)
def popWord (a : Word) : Word := BitVec.ofNat 64 (countOnes a 64)

/-- bext as a number: bits i up of a that b selects, packed from bit k on. -/
def packBits (a b : Word) : Nat → Nat → Nat → Nat
  | 0, _, _ => 0
  | n + 1, i, k =>
    if b.getLsbD i then (if a.getLsbD i then 2 ^ k else 0) + packBits a b n (i + 1) (k + 1)
    else packBits a b n (i + 1) k

/-- bdep as a number: bits k up of a, spread over the 1s of b from bit i on. -/
def spreadBits (a b : Word) : Nat → Nat → Nat → Nat
  | 0, _, _ => 0
  | n + 1, i, k =>
    if b.getLsbD i then (if a.getLsbD k then 2 ^ i else 0) + spreadBits a b n (i + 1) (k + 1)
    else spreadBits a b n (i + 1) k

def bextWord (a b : Word) : Word := BitVec.ofNat 64 (packBits a b 64 0 0)
def bdepWord (a b : Word) : Word := BitVec.ofNat 64 (spreadBits a b 64 0 0)

/-! Pointers (R113 to R115): a result, or the TVAL of the ADDRESS trap. -/

/-- The tag of a kept, the address replaced. -/
def withAddress (a : Word) (t : Int) : Word := (a &&& 0xFFF0000000000000#64) ||| BitVec.ofInt 64 t

/-- Targets and addresses lie from 0 to 2^52 − 1. -/
def targetOk (t : Int) : Bool := decide (0 ≤ t) && decide (t < 2 ^ 52)

def paddWord (a b : Word) : Except Word Word :=
  let t := formEa a b.toInt
  if targetOk t then .ok (withAddress a t) else .error a

/-- The byte offset of element b (R100, R114); none where the index breaks the format's rule. -/
def elementOffset (code : Nat) (b : Int) : Option Int :=
  match code with
  | 1 => if b % 64 = 0 then some (b / 64 * 48) else none
  | 8 => if b % 2 = 0 then some (b / 2) else none
  | 4 => some (b * 2)
  | 5 => some (b * 4)
  | 6 => some (b * 8)
  | _ => some b

def pidxWord (a b : Word) : Except Word Word :=
  if !tagOk a then .error a
  else match elementOffset (bitsAt a 58 6) b.toInt with
    | none => .error a
    | some off =>
      let t := formEa a off
      if targetOk t then .ok (withAddress a t) else .error a

/-- ptagset checks the tag operand b, and names it in TVAL (R493). A channel tag may be set. -/
def ptagsetWord (a b : Word) : Except Word Word :=
  let f := bitsAt b 6 6
  if bitsAt b 12 52 ≠ 0 ∨ bitsAt b 0 3 ≠ 0 ∨ formatLog f ≠ some (bitsAt b 3 3) then .error b
  else .ok ((b <<< 52) ||| (a &&& 0xFFFFFFFFFFFFF#64))

/-- A pointer instruction writes its result, or takes the exact ADDRESS trap. -/
def finishPointer (s : State) (d : Reg) : Except Word Word → Out
  | .ok v => finishWrite s d v
  | .error tval => finishTrap s kindADDRESS 0 tval

/-! Branches (R121, R122). -/

/-- Bit b[5:0] of a. -/
def testBit (a b : Word) : Bool := a.getLsbD (b.toNat % 64)

/-- A branch: taken to the pc plus a byte distance, or on to the next word; a taken branch out of range traps with the
target as TVAL (R31). -/
def branch (s : State) (taken : Bool) (dist : Int) : Out :=
  if taken then
    let t := ((s.thr s.cur).pc.toNat : Int) + dist
    if targetOk t then .next (retireTo s s.cur (BitVec.ofInt 64 t) [])
    else finishTrap s kindADDRESS 0 (BitVec.ofInt 64 t)
  else finish s

/-- The hit bits of wait (R127): the selected latch bits 4 to 1, and bit 0 for TIME. -/
def hitBits (latch mask : BitVec 5) (time : Bool) : BitVec 5 := (latch &&& mask &&& 0x1E#5) ||| (if time then 1#5 else 0#5)

/-- The hit of a wait or yield: mask bit 0 asks for the TIME event, which comes at the time at. -/
def hitOf (s : State) (t : Thread) (mask : BitVec 5) (at_ : Word) : BitVec 5 :=
  hitBits t.latch mask (mask.getLsbD 0 && at_.ule s.time)

/-- wait and yield (R127, R304): with a hit, d gets it and the latch loses it; without, the thread sleeps. asYield
marks the sleep of yield. -/
def waitFor (s : State) (d a : Reg) (mask : BitVec 5) (asYield : Bool) : Out :=
  let t := s.thr s.cur
  let hit := hitOf s t mask (readReg s s.cur a)
  if hit = 0#5 then .next (s.setThr s.cur { t with sleep := some { asYield := asYield, mask := mask, reg := a } })
  else finishWrite (s.setThr s.cur { t with latch := t.latch &&& ~~~hit }) d (hit.setWidth 64)

/-- The mask that a yield takes from its register (R304). -/
def yieldMask (v : Word) : BitVec 5 := v.setWidth 5 &&& 0x1E#5

/-- Whether thread k, which sleeps in wait or yield, finds no hit at an opportunity (R127, R304). -/
def sleepsOn (s : State) (k : Nat) (x : Sleep) : Bool :=
  let v := readReg s k x.reg
  if x.asYield then yieldMask v != 0#5 && hitOf s (s.thr k) (yieldMask v) 0#64 == 0#5
  else hitOf s (s.thr k) x.mask v == 0#5

/-- Whether thread k is asleep (R283): in wait or yield without a hit, at a fence or vfence that is not met, for an
answer or a window's close. -/
def asleep (s : State) (k : Nat) : Bool :=
  let t := s.thr k
  (match t.sleep with
    | some x => sleepsOn s k x
    | none => false) || windowBlocked t ||
  (match t.hold with
    | .none => false
    | .walk => false
    | .migrating => false
    | _ => true)

end Sys2Proof.Machine
end

