-- ==== Sys2Proof/Machine/Flags.lean ====
section
/-! DEFINITION. Floating-point operands and results of the scalar pipeline (05 R102, R116 to R120), the draw of
stochastic rounding (04 R87, R88), and the flag word of an engine's status register (04 R86). -/

namespace Sys2Proof.Machine

/-- The value of a register as a scalar format (R102): FP32 takes bits 31:0. -/
def floatOperand (s : State) (f : Fmt) (r : Reg) : Val :=
  f.value ((readReg s s.cur r).toNat % 2 ^ (f.signBit + 1))

/-- The rounded result as a register value: FP32 leaves bits 63:32 zero (R102). -/
def roundWord (f : Fmt) (r : Rounding) (v : Val) : Word := BitVec.ofNat 64 (roundTo f r v).1

/-- Conversion to a signed or an unsigned 64-bit integer, saturated (R119). -/
def signedWord (r : Rounding) (v : Val) : Word := BitVec.ofInt 64 (roundInt (-(2 ^ 63)) (2 ^ 63 - 1) r v).1
def unsignedWord (r : Rounding) (v : Val) : Word := BitVec.ofInt 64 (roundInt 0 (2 ^ 64 - 1) r v).1

/-- The conditions of fcmp (R118). -/
def compareVal (cc : BitVec 3) (a b : Val) : Bool :=
  match cc.toNat with
  | 0 => eqVal a b
  | 1 => ltVal a b
  | 2 => ltVal a b || eqVal a b
  | _ => a.isNan || b.isNan

/-- The draw of element elem under a thread's counter value n and the rounding seed in force at the issue (R87, R287). -/
def drawAt (s : State) (k : Nat) (seed : Word) (n : BitVec 32) (elem : Nat) : BitVec 32 :=
  draw seed (s.thr k).tnum n elem

/-- A drawing instruction leaves the counter one higher (R88). -/
def countDraw (s : State) (k : Nat) (mode : BitVec 3) : State :=
  if mode = 4#3 then s.setThr k { s.thr k with seq := (s.thr k).seq + 1#32 } else s

/-- A long-latency instruction with a rounding field (R88, R116, R120): the result is rounded with the draw of the
counter's value at issue, elem 0. -/
def finishFloat (s : State) (i : Instr) (d : Reg) (rm : BitVec 3) (f : Rounding → Word) : Out :=
  finishLong (countDraw s s.cur rm) i d (.one (f ⟨rm, drawAt s s.cur (s.core (coreOf s.cur)).rseed (s.thr s.cur).seq 0⟩))

end Sys2Proof.Machine
end

