-- ==== Sys2Proof/Machine/Access.lean ====
section
/-! DEFINITION. Memory accesses on their way (06 R142 to R161): the posted-store journal, the limits, the request, its
performance at the home, the reservation queues, the answer. -/

namespace Sys2Proof.Machine

/-! The banks of the A-buffers (R134, R285). -/

/-- The banks of the n bytes at a cell, where they lie in the core's A-buffer. -/
def banksOf (core cell n : Nat) : BitVec 16 :=
  let base := bufferCell core 1 0
  if cell < base ∨ base + 2 ^ 19 ≤ cell then 0#16
  else (upTo ((cell + n - 1) / 8 + 1 - cell / 8)).foldl (fun m i => m ||| (1#16 <<< ((cell / 8 + i) % 16))) 0#16

/-- A core's own ck (R281). -/
def State.coreCk (s : State) (core : Nat) : Nat := s.ck + (s.core core).ckBase

/-- The banks in use in the present ck. -/
def banksNow (s : State) (core : Nat) : BankUse :=
  let b := (s.core core).banks
  if b.ck = s.ck then b else ⟨s.ck, 0#16, 0#16⟩

/-- Quiet-bank mode keeps the engines and the arriving accesses off the banks in an even ck. -/
def banksQuiet (s : State) (core : Nat) : Bool := (s.core core).quietOn && s.coreCk core % 2 == 0

/-- An engine takes banks: none while quiet-bank mode keeps it off, or while a thread's access has one of them. -/
def engineBanks (s : State) (core : Nat) (m : BitVec 16) : Option State :=
  let b := banksNow s core
  if m = 0#16 then some s
  else if banksQuiet s core || b.here &&& m != 0#16 then none
  else some (s.setCore core { s.core core with banks := { b with engine := b.engine ||| m } })

/-- A thread's access over the here path takes its banks: none where it is forfeited, an engine holding one of them. -/
def hereBanks (s : State) (core cell n : Nat) : Option State :=
  let m := banksOf core cell n
  let b := banksNow s core
  if m = 0#16 then some s
  else if !(s.core core).quietOn && b.engine &&& m != 0#16 then none
  else some (s.setCore core { s.core core with banks := { b with here := b.here ||| m } })

/-- An access that arrives through the port finds its bank free. -/
def arrivalBanks (s : State) (r : Request) : Bool :=
  let m := banksOf r.home r.cell r.size
  let b := banksNow s r.home
  !r.port || m == 0#16 || (!banksQuiet s r.home && (b.here ||| b.engine) &&& m == 0#16)

/-! Issue of an access (R143, R147, R148, R158). -/

/-- The next of a window's stores issues (R148, R158): once the thread's earlier non-relaxed accesses have been performed, with a
journal entry where it is remote. -/
def issueStore (s : State) : List Request → State
  | [] => s
  | r :: rs =>
    if (((s.thr r.key).outst.filter (!·.relaxed)).head?.map Outstanding.aid) ≠ some r.aid then s.sooner (.storeIssue (r :: rs))
    else match takeEntries s [r] with
      | none => s.sooner (.storeIssue (r :: rs))
      | some x => { x.1 with
          work := x.2.map Event.remoteRequestArrival ++ (if rs = [] then [] else [.storeIssue rs]) ++ x.1.work }

/-- Whether the thread may have one more access of the kind outstanding (R148). -/
def underLimit (t : Thread) (relaxed : Bool) : Bool :=
  if relaxed then decide ((t.outst.filter (·.relaxed)).length < 8)
  else decide ((t.outst.filter (!·.relaxed)).length < 1)

/-- What an access does, apart from its place. -/
structure AccessKind where
  op : MemOp
  size : Nat
  relaxed : Bool
  holds : Bool
  ea : Word
  data : Word
  cmp : Word
  deriving DecidableEq, Repr

/-- The request that an access sends. -/
def requestOf (s : State) (k : Nat) (x : AccessKind) (p : Place) (window : Bool) (jent : Option Nat) : Request :=
  let t := s.thr k
  { key := k, aid := s.nonce, wid := if window then some s.nonce else none, op := x.op, cell := p.cell, size := x.size,
    home := p.home, port := p.port, ea := x.ea, mode := p.mode, data := x.data, cmp := x.cmp, asid := t.asid,
    group := t.group, tnum := t.tnum, jent := jent }

/-- The access is under way: outstanding, with its journal entry if it is remote, and its request on the way. The
counter gives it its number. -/
def launchAccess (s : State) (k : Nat) (x : AccessKind) (p : Place) (window : Bool) (jent : Option Nat) : State :=
  let r := requestOf s k x p window jent
  let s := match jent with
    | some e => setJournal s (coreOf k) e (entryOf s r)
    | none => s
  let t := s.thr k
  ((s.setThr k { t with outst := t.outst ++ [⟨r.aid, x.relaxed, p.own, if p.mode.toNat < 2 then some (addrOf x.ea) else none⟩] }).later (.remoteRequestArrival r)).tick

/-- An access that issues: with a window for d, or none. Over a limit, with the journal full, or with its bank held by an
engine (R134), the opportunity is forfeited. -/
def sendAccess (s : State) (i : Instr) (x : AccessKind) (window : Option Reg) (p : Place) : Out :=
  let k := s.cur
  let core := coreOf k
  if !underLimit (s.thr k) x.relaxed then forfeit s
  else
    let jent := if p.home = core then none else journalFree (s.core core)
    if p.home ≠ core ∧ jent = none then forfeit s
    else match (if p.port then some s else hereBanks s core p.cell x.size) with
    | none => forfeit s
    | some s =>
      let pc := (s.thr k).pc + 4#64
      match window with
      | some d =>
        let w := newWindow s d (lookaheadOf i) false x.holds i 0#64 0#64 .pending
        .next (retireTo (launchAccess s k x p true jent) k pc [w])
      | none => .next (retireTo (launchAccess s k x p false jent) k pc [])

/-! Migration by access (R144). -/

/-- The thread has no engine work under way (R144, R299): its repetition sequence has ended, its vector and matrix busy
counts are 0, no copy of it is in flight. -/
def enginesIdle (s : State) (k : Nat) : Bool :=
  let c := s.core (coreOf k)
  c.vecQueue.all (·.key != k) && c.reps.all (·.key != k) && c.copies.all (·.key != k) && c.matQueue.all (·.key != k)

/-- A slot that a thread may take: EMPTY, and not parked (R280, R460). -/
def slotOpen (s : State) (core j : Nat) : Bool :=
  (s.thr (8 * core + j)).sstate == .empty && !(s.core core).parked.getLsbD j

/-- The lowest EMPTY slot among 0 to 6 (R280). -/
def emptySlot (s : State) (core : Nat) : Option Nat := findFirst (slotOpen s core) (upTo 7)

/-- A core that would take a thread of a context (R301): its residence of the ASID is LOADED or RUNNING, and a user
slot is EMPTY. -/
def acceptsThread (s : State) (asid : BitVec 16) (core : Nat) : Bool :=
  let c := s.core core
  c.health == .good && c.ctxAsid == asid && (c.residence == .loaded || c.residence == .running) &&
    (emptySlot s core).isSome

/-- Mesh hops between two cores of one die. -/
def meshHops (a b : Nat) : Nat :=
  (rowOf a - rowOf b) + (rowOf b - rowOf a) + (colOf a - colOf b) + (colOf b - colOf a)

/-- Of two cores, the one with fewer hops to the home, then the lower quad, then the lower number (R144). -/
def nearer (home a b : Nat) : Bool :=
  if meshHops a home = meshHops b home then
    (if quadOf a = quadOf b then decide (a ≤ b) else decide (quadOf a ≤ quadOf b))
  else decide (meshHops a home ≤ meshHops b home)

/-- The best core of a list, by an order. -/
def bestCore (better : Nat → Nat → Bool) : List Nat → Option Nat
  | [] => none
  | c :: cs => match bestCore better cs with
    | none => some c
    | some d => if better c d then some c else some d

/-- The 224 logical cores of a die in the order of 16 × row + column. -/
def dieCores (die : Nat) : List Nat := (upTo 224).map (256 * die + ·)

/-- Where an access would take the thread (R144): none when it stays. -/
def migrationTarget (s : State) (k home : Nat) : Option Nat :=
  let t := s.thr k
  if takesOwnTraps k || t.pinned || t.stay || dieOf home == dieOf (coreOf k) || t.uin || t.posted != [] ||
      !enginesIdle s k || s.dieRetired (dieOf home) then none
  else if acceptsThread s t.asid home then some home
  else bestCore (nearer home) ((dieCores (dieOf home)).filter (acceptsThread s t.asid))

/-- The thread begins to migrate (R299): it issues nothing, and the send step follows when its work has drained. -/
def beginMigration (s : State) (k dst : Nat) (cause : MigCause) : State :=
  (s.setThr k { s.thr k with hold := .migrating }).later (.migrationSend k dst cause)

/-- What a reach answers, for a thread's access: a trap, a page fault, a walk, or go on. -/
def withReach (s : State) (kind : Nat) (va : Word) (r : Reach) (go : Place → Out) : Out :=
  match r with
  | .trap k d v => finishTrap s k d v
  | .page reason => .next (pageFault s s.cur va reason kind)
  | .miss => .next (startWalk s s.cur va kind)
  | .at p => go p

/-- An M-format access (R140, R144): offset off × size from the pointer in a. -/
def modeAccess (s : State) (i : Instr) (a : Reg) (mode : BitVec 2) (off : BitVec 8) (kind : Nat)
    (x : AccessKind) (window : Option Reg) : Out :=
  let ptr := readReg s s.cur a
  let dist := off.toInt * x.size
  let ea := BitVec.ofInt 64 (formEa ptr dist)
  withReach s kind ea (reachMode s s.cur ptr dist x.size mode kind (encode i)) fun p =>
    match (if mode.toNat < 2 then migrationTarget s s.cur p.home else none) with
    | some dst => .next (beginMigration s s.cur dst .access)
    | none => sendAccess s i { x with ea := ea } window p

/-- An R-format access (R140, R156, R157): never a migration (R144). -/
def plainAccess (s : State) (i : Instr) (a : Reg) (kind : Nat) (x : AccessKind) (window : Option Reg) : Out :=
  let ptr := readReg s s.cur a
  let ea := BitVec.ofNat 64 (addrOf ptr)
  withReach s kind ea (reachPlain s s.cur ptr x.size kind (encode i)) fun p =>
    sendAccess s i { x with ea := ea } window p

/-! The home (R143, R147, R156, R157, R159). -/

/-- Whether a core hosts a thread of a context (R159): the system context runs on every core. -/
def hostsContext (s : State) (core : Nat) (asid : BitVec 16) : Bool :=
  asid == 0#16 || (upTo 7).any fun j =>
    let t := s.thr (8 * core + j)
    t.asid == asid && t.sstate != .empty && t.sstate != .ended

/-- Whether an operation reads its location. -/
def opReads : MemOp → Bool
  | .store => false
  | .sc => false
  | _ => true

/-- An access to a line meets an error in it that it cannot correct, or its beat was given up (R466, R467, R471). -/
def meetsError (s : State) (reads : Bool) (line : Nat) : Bool := s.erring.any fun x => x.1 == line && (reads || x.2)

/-- The cause for which a home refuses an access of a context in a mode to the cells from cell to last, if any (R159,
R463, R464, R466, R492). -/
def homeRefusal (s : State) (home : Nat) (mode : BitVec 2) (asid : BitVec 16) (reads : Bool) (cell last : Nat) :
    Option (BitVec 4) :=
  if s.dieRetired (dieOf home) then some 5#4
  else match (s.core home).health with
    | .retired => some 5#4
    | .quarantined => some 2#4
    | .good =>
      if mode == 2#2 && !hostsContext s home asid then some 1#4
      else if reads && (s.poison.contains (cell / 64) || s.poison.contains (last / 64)) then some 3#4
      else if meetsError s reads (cell / 64) || meetsError s reads (last / 64) then some 3#4
      else none

/-- The cause for which the home refuses a thread's access. -/
def refusal (s : State) (r : Request) : Option (BitVec 4) :=
  homeRefusal s r.home r.mode r.asid (opReads r.op) r.cell r.cell

/-- The value of n bits of a word, as a signed or unsigned integer. -/
def signedBits (n : Nat) (v : Nat) : Int := if v % 2 ^ n < 2 ^ (n - 1) then v % 2 ^ n else (v % 2 ^ n : Nat) - 2 ^ n

/-- What an amo or rup writes (R156, R157): old and operand as numbers of n bits. -/
def updated (op : MemOp) (n old v c : Nat) : Nat :=
  match op with
  | .amoAdd => (old + v) % 2 ^ n
  | .rupAdd => (old + v) % 2 ^ n
  | .amoMin => if signedBits n v < signedBits n old then v else old
  | .rupMin => if signedBits n v < signedBits n old then v else old
  | .amoMax => if signedBits n old < signedBits n v then v else old
  | .rupMax => if signedBits n old < signedBits n v then v else old
  | .amoMinu => if v < old then v else old
  | .amoMaxu => if old < v then v else old
  | .amoXchg => v
  | .amoCas => if old = c then v else old
  | .rupOr => Nat.lor old v
  | .rupAnd => Nat.land old v
  | .rupXor => Nat.xor old v
  | _ => v

/-- The value that an amo returns (R156): minu and maxu zero-extend. -/
def amoResult (op : MemOp) (n old : Nat) : Word :=
  match op with
  | .amoMinu => BitVec.ofNat 64 old
  | .amoMaxu => BitVec.ofNat 64 old
  | _ => BitVec.ofInt 64 (signedBits n old)

/-- A loaded value (R145). -/
def loadResult (signed : Bool) (n old : Nat) : Word :=
  if signed then BitVec.ofInt 64 (signedBits n old) else BitVec.ofNat 64 old

/-! Reservation queues (R152 to R155). -/

def wakeABSENT : Word := 0xFFFFFFFFFFFFFFF1#64
def wakeORPHAN : Word := 0xFFFFFFFFFFFFFFF2#64

/-- Whether a queue entry is a thread's, under its own name or as its group's (R152, R384). -/
def Reservation.isOf (x : Reservation) (asid group tnum : BitVec 16) : Bool :=
  x.asid == asid && x.group == group && (x.tnum == some tnum || x.tnum == none)

/-- The head of a cell's queue. -/
def resvHead (c : Core) (cell : Nat) : Option Reservation := findFirst (fun x => x.cell == cell) c.resv

/-- Reply to a request: a local access ends at once, a remote one when its response arrives. -/
def respond (r : Request) (reply : Reply) : Response :=
  { key := r.key, aid := r.aid, wid := r.wid, jent := r.jent, reply := reply, home := r.home }

/-- The response reaches the issuing core (R147, R158, R160): the access is no longer outstanding, its journal entry is
freed or records the refusal, and the window's result is there. -/
def receive (s : State) (r : Response) : State :=
  let t := s.thr r.key
  let s := s.setThr r.key { t with outst := t.outst.filter (·.aid != r.aid) }
  let core := coreOf r.key
  match r.reply with
  | .value v =>
    let s := match r.jent with
      | some e => setJournal s core e freeEntry
      | none => s
    match r.wid with
    | some w => arrive s r.key w (.one v)
    | none => s
  | .ack =>
    match r.jent with
    | some e => setJournal s core e freeEntry
    | none => s
  | .refused cause =>
    match r.jent with
    | none => s
    | some e =>
      let s := recordRefusal s core e (journalAt (s.core core) e) cause
      match r.wid with
      | some w => arrive s r.key w (.refused e)
      | none => postRefusal s r.key e

/-- Send an answer to the issuing core: at once when the access was local. -/
def reply (s : State) (r : Request) (x : Reply) : State :=
  if r.home = coreOf r.key then receive s (respond r x) else s.later (.resultArrival (respond r x))

/-- Reply to the waiters of a list. -/
def replyAll (s : State) (x : Reply) : List Request → State
  | [] => s
  | r :: rs => replyAll (reply s r x) x rs

/-- The entry of a request in its home's table. -/
def reservationOf (r : Request) (seq : Nat) (waiting : Option Request) : Reservation :=
  { cell := r.cell, asid := r.asid, group := r.group, tnum := some r.tnum, absent := false, waiting := waiting, seq := seq }

/-- The reservation at the head of a request's queue becomes the thread's alone, and its holder is here (R155, R384). -/
def takeOver (r : Request) : List Reservation → List Reservation
  | [] => []
  | x :: xs => if x.cell = r.cell then { x with tnum := some r.tnum, absent := false } :: xs else x :: takeOver r xs

/-- A request that finds no free entry in the table is held back at the home (R152). -/
def holdBack (s : State) (r : Request) : State :=
  let c := s.core r.home
  s.setCore r.home { c with resvHeld := c.resvHeld ++ [r] }

/-- An lrw at its home (R152, R153, R155). full: no entry is free for it, or older requests wait for one. Behind an absent head
it is woken at once, also where the table is full (log 39, DESIGN CHOICE: R152 and R155 do not say which comes first). -/
def joinQueue (s : State) (r : Request) (full : Bool) : State :=
  let c := s.core r.home
  let v := readWord s.mem r.cell
  match resvHead c r.cell with
  | some h =>
    if h.isOf r.asid r.group r.tnum then reply (s.setCore r.home { c with resv := takeOver r c.resv }) r (.value v)
    else if h.absent then reply s r (.value wakeABSENT)
    else if full then holdBack s r
    else s.setCore r.home { c with resv := c.resv ++ [reservationOf r 0 (some r)] }
  | none =>
    if full then holdBack s r
    else reply (s.setCore r.home { c with resv := c.resv ++ [reservationOf r s.nonce none] }).tick r (.value v)

/-- The first entry of a cell in a list becomes the holder, with a number for the order of grants: the list, and the
request to grant. -/
def grantFirst (cell seq : Nat) : List Reservation → List Reservation × Option Request
  | [] => ([], none)
  | x :: xs =>
    if x.cell = cell then ({ x with waiting := none, seq := seq } :: xs, x.waiting)
    else ((x :: (grantFirst cell seq xs).1), (grantFirst cell seq xs).2)

/-- A list without its first entry of a cell. -/
def dropFirst (cell : Nat) : List Reservation → List Reservation
  | [] => []
  | x :: xs => if x.cell = cell then xs else x :: dropFirst cell xs

/-- An entry of the table has freed: a request held at the full table may be admitted (R152). -/
def admitLater (s : State) (core : Nat) : State :=
  if (s.core core).resvHeld = [] then s else s.later (.reservationAdmit core)

/-- The head of a cell's queue leaves it, and the next waiter is granted the value v (R154). -/
def passReservation (s : State) (core cell : Nat) (v : Word) : State :=
  let c := s.core core
  let x := grantFirst cell s.nonce (dropFirst cell c.resv)
  let s := (s.setCore core { c with resv := x.1 }).tick
  let s := match x.2 with
    | some w => reply s w (.value v)
    | none => s
  admitLater s core

/-- An sc at its home (R154): the write, the hand-over and the next grant are one step. -/
def storeConditional (s : State) (r : Request) : State :=
  match resvHead (s.core r.home) r.cell with
  | some h =>
    if h.isOf r.asid r.group r.tnum && h.waiting.isNone then
      reply (passReservation { s with mem := writeWord s.mem r.cell r.data } r.home r.cell r.data) r (.value 0#64)
    else reply s r (.value 1#64)
  | none => reply s r (.value 1#64)

/-- A ptake at the page's home (R425, R431): it waits while the page is being given, and then reads the flag word. -/
def takeFlag (s : State) (r : Request) (token : Bool) : State :=
  if givingAt s r.asid (addrOf r.ea) then s.later (.takeRequest r)
  else
    let f := readWord s.mem r.cell
    reply s r (.value (if f.getLsbD 63 == token then f else 0x4000000000000001#64))

/-- An access that its home performs (R145, R146, R156, R157). -/
def perform (s : State) (r : Request) : State :=
  let n := 8 * r.size
  let old := readBytes s.mem r.cell r.size
  match r.op with
  | .load signed => reply s r (.value (loadResult signed n old))
  | .store => reply { s with mem := writeBytes s.mem r.cell r.size r.data.toNat } r .ack
  | .lrw => joinQueue s r (decide (256 ≤ (s.core r.home).resv.length) || (s.core r.home).resvHeld != [])
  | .sc => storeConditional s r
  | .take token => takeFlag s r token
  | op =>
    let new := updated op n old (r.data.toNat % 2 ^ n) (r.cmp.toNat % 2 ^ n)
    let s := { s with mem := writeBytes s.mem r.cell r.size new }
    if journalKind op = 2 then reply s r .ack else reply s r (.value (amoResult op n old))

/-- A refused access (R159, R160, R466): a local one takes its journal entry now, and waits while the journal is
full, before the accesses that issued after it (R149). -/
def refuse (s : State) (r : Request) (cause : BitVec 4) : State :=
  match r.jent with
  | some _ => reply s r (.refused cause)
  | none =>
    match journalFree (s.core (coreOf r.key)) with
    | some e =>
      let s := setJournal s (coreOf r.key) e (entryOf s r)
      receive s { respond r (.refused cause) with jent := some e }
    | none => { s with work := .remoteRequestArrival r :: s.work }

/-- A request at its home, which performs or refuses it (R143, R159). A beat that was given up was that of one access (R467). -/
def atHome (s : State) (r : Request) : State :=
  match refusal s r with
  | some c => refuse { s with erring := s.erring.erase (r.cell / 64, true) } r c
  | none => perform s r

/-- Requests at their home one after the other: none where one has to wait there, for a journal entry of its refusal. -/
def performAll : State → List Request → Option State
  | s, [] => some s
  | s, r :: rs =>
    let s' := atHome s r
    if s'.work.contains (.remoteRequestArrival r) then none else performAll s' rs

/-- The accesses of thread k on their way over one path to the n bytes at a cell are performed, in issue order: an
instruction of the thread reads or writes those bytes over that path at its issue (R142, R149, R165). None where one of them
cannot be performed yet. -/
def settleOver (port : Bool) (s : State) (k cell n : Nat) : Option State :=
  let near := fun (r : Request) =>
    r.key == k && r.port == port && decide (cell / 8 ≤ r.cell / 8) && decide (r.cell / 8 ≤ (cell + n - 1) / 8)
  let mine := fun (e : Event) => match e with
    | .remoteRequestArrival r => near r
    | _ => false
  if s.work.any fun e => (unissued e).any near then none
  else performAll { s with work := s.work.filter (!mine ·) } ((s.work.filter mine).flatMap fun e => match e with
    | .remoteRequestArrival r => [r]
    | _ => [])

/-- The same over the here path, with the banks that the instruction takes (R134): none where it is forfeited. -/
def settleHere (s : State) (k cell n : Nat) : Option State :=
  (hereBanks s (coreOf k) cell n).bind fun s => settleOver false s k cell n

/-- REMOTE_REQUEST_ARRIVAL (R143): an access reaches its home. Local accesses come the same way (R142, R147). At an A-buffer
it waits for its bank (R134). -/
def execRemoteRequestArrival (r : Request) (s : State) : Out :=
  .next (if arrivalBanks s r then atHome s r else { s with work := .remoteRequestArrival r :: s.work })

/-- RESULT_ARRIVAL (R147). -/
def execResultArrival (r : Response) (s : State) : Out := .next (receive s r)

/-- RESERVATION_ADMIT (R152): the oldest request held at the core's full table joins its queue. -/
def execReservationAdmit (core : Nat) (s : State) : Out :=
  let c := s.core core
  match c.resvHeld with
  | [] => .next s
  | r :: rs =>
    if 256 ≤ c.resv.length then .next s
    else
      let s := joinQueue (s.setCore core { c with resvHeld := rs }) r false
      .next (admitLater s core)

end Sys2Proof.Machine
end

