-- ==== Sys2Proof/Machine/MemoryInstr.lean ====
section
/-! DEFINITION. Meanings of the memory instructions (06 R142 to R157). -/

namespace Sys2Proof.Machine

/-- An access apart from its address. -/
def accessKind (op : MemOp) (size : Nat) (relaxed holds : Bool) (data cmp : Word) : AccessKind :=
  { op := op, size := size, relaxed := relaxed, holds := holds, ea := 0#64, data := data, cmp := cmp }

/-- A load (R145); rx makes it relaxed (R148). -/
def loadAccess (s : State) (i : Instr) (d a : Reg) (mode : BitVec 2) (rx : BitVec 1) (off : BitVec 8) (size : Nat)
    (signed : Bool) : Out :=
  modeAccess s i a mode off kindLOAD (accessKind (.load signed) size (rx == 1#1) false 0#64 0#64) (some d)

/-- A store of the low bytes of d (R146). -/
def storeAccess (s : State) (i : Instr) (d a : Reg) (mode : BitVec 2) (rx : BitVec 1) (off : BitVec 8) (size : Nat) :
    Out :=
  modeAccess s i a mode off kindSTORE (accessKind .store size (rx == 1#1) false (readReg s s.cur d) 0#64) none

/-- An instruction that does not issue until every earlier access of the thread has been performed (R150). -/
def afterAccesses (s : State) (go : Out) : Out := if accessesOver s s.cur then go else forfeit s

/-- The instruction has issued, and the thread issues nothing more until a condition holds (R44, R217). -/
def finishHold (s : State) (h : Hold) : Out :=
  let s := retire s s.cur
  .next (s.setThr s.cur { s.thr s.cur with hold := h })

/-- An atomic (R156): d is read at issue as the compare value of cas. -/
def amoAccess (s : State) (i : Instr) (op : MemOp) (d a b : Reg) (size : Nat) : Out :=
  plainAccess s i a kindRMW (accessKind op size false false (readReg s s.cur b) (readReg s s.cur d)) (some d)

/-- An lrw accepts no here address and no W or C location (R153). -/
def lockable (p : Place) : Bool := p.mode.toNat < 2 || (p.mode == 2#2 && p.cell / 2 ^ 38 % 4 == 1)

/-- The reservations that a thread holds or waits for, at every home (R152). -/
def reservationsOf (s : State) (k : Nat) : Nat :=
  let t := s.thr k
  (s.cores.map fun x => (x.2.resv.filter fun e => e.asid == t.asid && e.group == t.group && e.tnum == some t.tnum).length
    + (x.2.resvHeld.filter fun r => r.asid == t.asid && r.group == t.group && r.tnum == t.tnum).length).sum

/-- R145 ld.b. -/
def execLdB (d a : Reg) (mode : BitVec 2) (rx : BitVec 1) (off : BitVec 8) (lk : BitVec 4) (s : State) : Out :=
  issue (.ldB d a mode rx off lk) s fun s =>
    loadAccess s (.ldB d a mode rx off lk) d a mode rx off 1 true

/-- R145 ld.h. -/
def execLdH (d a : Reg) (mode : BitVec 2) (rx : BitVec 1) (off : BitVec 8) (lk : BitVec 4) (s : State) : Out :=
  issue (.ldH d a mode rx off lk) s fun s =>
    loadAccess s (.ldH d a mode rx off lk) d a mode rx off 2 true

/-- R145 ld.w. -/
def execLdW (d a : Reg) (mode : BitVec 2) (rx : BitVec 1) (off : BitVec 8) (lk : BitVec 4) (s : State) : Out :=
  issue (.ldW d a mode rx off lk) s fun s =>
    loadAccess s (.ldW d a mode rx off lk) d a mode rx off 4 true

/-- R145 ld.d. -/
def execLdD (d a : Reg) (mode : BitVec 2) (rx : BitVec 1) (off : BitVec 8) (lk : BitVec 4) (s : State) : Out :=
  issue (.ldD d a mode rx off lk) s fun s =>
    loadAccess s (.ldD d a mode rx off lk) d a mode rx off 8 false

/-- R145 ld.bu. -/
def execLdBu (d a : Reg) (mode : BitVec 2) (rx : BitVec 1) (off : BitVec 8) (lk : BitVec 4) (s : State) : Out :=
  issue (.ldBu d a mode rx off lk) s fun s =>
    loadAccess s (.ldBu d a mode rx off lk) d a mode rx off 1 false

/-- R145 ld.hu. -/
def execLdHu (d a : Reg) (mode : BitVec 2) (rx : BitVec 1) (off : BitVec 8) (lk : BitVec 4) (s : State) : Out :=
  issue (.ldHu d a mode rx off lk) s fun s =>
    loadAccess s (.ldHu d a mode rx off lk) d a mode rx off 2 false

/-- R145 ld.wu. -/
def execLdWu (d a : Reg) (mode : BitVec 2) (rx : BitVec 1) (off : BitVec 8) (lk : BitVec 4) (s : State) : Out :=
  issue (.ldWu d a mode rx off lk) s fun s =>
    loadAccess s (.ldWu d a mode rx off lk) d a mode rx off 4 false

/-- R146 st.b. -/
def execStB (d a : Reg) (mode : BitVec 2) (rx : BitVec 1) (off : BitVec 8) (s : State) : Out :=
  issue (.stB d a mode rx off) s fun s =>
    storeAccess s (.stB d a mode rx off) d a mode rx off 1

/-- R146 st.h. -/
def execStH (d a : Reg) (mode : BitVec 2) (rx : BitVec 1) (off : BitVec 8) (s : State) : Out :=
  issue (.stH d a mode rx off) s fun s =>
    storeAccess s (.stH d a mode rx off) d a mode rx off 2

/-- R146 st.w. -/
def execStW (d a : Reg) (mode : BitVec 2) (rx : BitVec 1) (off : BitVec 8) (s : State) : Out :=
  issue (.stW d a mode rx off) s fun s =>
    storeAccess s (.stW d a mode rx off) d a mode rx off 4

/-- R146 st.d. -/
def execStD (d a : Reg) (mode : BitVec 2) (rx : BitVec 1) (off : BitVec 8) (s : State) : Out :=
  issue (.stD d a mode rx off) s fun s =>
    storeAccess s (.stD d a mode rx off) d a mode rx off 8

/-- R150 ld.acq: a load whose window holds back the thread's later memory accesses. -/
def execLdAcq (d a : Reg) (mode : BitVec 2) (off : BitVec 8) (lk : BitVec 4) (s : State) : Out :=
  issue (.ldAcq d a mode off lk) s fun s =>
    modeAccess s (.ldAcq d a mode off lk) a mode off kindLOAD (accessKind (.load false) 8 false true 0#64 0#64) (some d)

/-- R150 st.rel: does not issue until every earlier access of the thread has been performed. -/
def execStRel (d a : Reg) (mode : BitVec 2) (off : BitVec 8) (s : State) : Out :=
  issue (.stRel d a mode off) s fun s => afterAccesses s <|
    modeAccess s (.stRel d a mode off) a mode off kindSTORE
      (accessKind .store 8 false false (readReg s s.cur d) 0#64) none

/-- R151 fence.<scope>: it issues, and the thread issues nothing more until its accesses have been performed; the scope
bounds only the observers to whom order is promised (R10). -/
def execFenceScope (sc : BitVec 3) (s : State) : Out :=
  issue (.fenceScope sc) s fun s => finishHold s .fence

/-- R142 fence.loop: the thread waits for its accesses to its own core's buffers. -/
def execFenceLoop (s : State) : Out := issue .fenceLoop s fun s => finishHold s .loop

/-- R156 amo.add.d. -/
def execAmoAddD (d a b : Reg) (sc : BitVec 3) (lk : BitVec 4) (s : State) : Out :=
  issue (.amoAddD d a b sc lk) s fun s => amoAccess s (.amoAddD d a b sc lk) .amoAdd d a b 8

/-- R156 amo.add.w. -/
def execAmoAddW (d a b : Reg) (sc : BitVec 3) (lk : BitVec 4) (s : State) : Out :=
  issue (.amoAddW d a b sc lk) s fun s => amoAccess s (.amoAddW d a b sc lk) .amoAdd d a b 4

/-- R156 amo.min.d. -/
def execAmoMinD (d a b : Reg) (sc : BitVec 3) (lk : BitVec 4) (s : State) : Out :=
  issue (.amoMinD d a b sc lk) s fun s => amoAccess s (.amoMinD d a b sc lk) .amoMin d a b 8

/-- R156 amo.min.w. -/
def execAmoMinW (d a b : Reg) (sc : BitVec 3) (lk : BitVec 4) (s : State) : Out :=
  issue (.amoMinW d a b sc lk) s fun s => amoAccess s (.amoMinW d a b sc lk) .amoMin d a b 4

/-- R156 amo.max.d. -/
def execAmoMaxD (d a b : Reg) (sc : BitVec 3) (lk : BitVec 4) (s : State) : Out :=
  issue (.amoMaxD d a b sc lk) s fun s => amoAccess s (.amoMaxD d a b sc lk) .amoMax d a b 8

/-- R156 amo.max.w. -/
def execAmoMaxW (d a b : Reg) (sc : BitVec 3) (lk : BitVec 4) (s : State) : Out :=
  issue (.amoMaxW d a b sc lk) s fun s => amoAccess s (.amoMaxW d a b sc lk) .amoMax d a b 4

/-- R156 amo.xchg.d. -/
def execAmoXchgD (d a b : Reg) (sc : BitVec 3) (lk : BitVec 4) (s : State) : Out :=
  issue (.amoXchgD d a b sc lk) s fun s => amoAccess s (.amoXchgD d a b sc lk) .amoXchg d a b 8

/-- R156 amo.xchg.w. -/
def execAmoXchgW (d a b : Reg) (sc : BitVec 3) (lk : BitVec 4) (s : State) : Out :=
  issue (.amoXchgW d a b sc lk) s fun s => amoAccess s (.amoXchgW d a b sc lk) .amoXchg d a b 4

/-- R156 amo.cas.d. -/
def execAmoCasD (d a b : Reg) (sc : BitVec 3) (lk : BitVec 4) (s : State) : Out :=
  issue (.amoCasD d a b sc lk) s fun s => amoAccess s (.amoCasD d a b sc lk) .amoCas d a b 8

/-- R156 amo.cas.w. -/
def execAmoCasW (d a b : Reg) (sc : BitVec 3) (lk : BitVec 4) (s : State) : Out :=
  issue (.amoCasW d a b sc lk) s fun s => amoAccess s (.amoCasW d a b sc lk) .amoCas d a b 4

/-- R156 amo.minu.d. -/
def execAmoMinuD (d a b : Reg) (sc : BitVec 3) (lk : BitVec 4) (s : State) : Out :=
  issue (.amoMinuD d a b sc lk) s fun s => amoAccess s (.amoMinuD d a b sc lk) .amoMinu d a b 8

/-- R156 amo.minu.w. -/
def execAmoMinuW (d a b : Reg) (sc : BitVec 3) (lk : BitVec 4) (s : State) : Out :=
  issue (.amoMinuW d a b sc lk) s fun s => amoAccess s (.amoMinuW d a b sc lk) .amoMinu d a b 4

/-- R156 amo.maxu.d. -/
def execAmoMaxuD (d a b : Reg) (sc : BitVec 3) (lk : BitVec 4) (s : State) : Out :=
  issue (.amoMaxuD d a b sc lk) s fun s => amoAccess s (.amoMaxuD d a b sc lk) .amoMaxu d a b 8

/-- R156 amo.maxu.w. -/
def execAmoMaxuW (d a b : Reg) (sc : BitVec 3) (lk : BitVec 4) (s : State) : Out :=
  issue (.amoMaxuW d a b sc lk) s fun s => amoAccess s (.amoMaxuW d a b sc lk) .amoMaxu d a b 4

/-- R153 lrw: joins the reservation queue; a thread holds or waits for at most 4 reservations. -/
def execLrw (d a : Reg) (mode : BitVec 2) (off : BitVec 8) (lk : BitVec 4) (s : State) : Out :=
  issue (.lrw d a mode off lk) s fun s =>
    let i := Instr.lrw d a mode off lk
    let ptr := readReg s s.cur a
    let v := BitVec.ofInt 64 (formEa ptr (off.toInt * 8))
    match reachMode s s.cur ptr (off.toInt * 8) 8 mode kindLOAD (encode i) with
    | .at p =>
      if !lockable p then finishTrap s kindADDRESS 0 v
      else if !underLimit (s.thr s.cur) false then forfeit s
      else if decide (4 ≤ reservationsOf s s.cur) then finishTrap s kindADDRESS 1 v
      else modeAccess s i a mode off kindLOAD (accessKind .lrw 8 false true 0#64 0#64) (some d)
    | _ => modeAccess s i a mode off kindLOAD (accessKind .lrw 8 false true 0#64 0#64) (some d)

/-- R154 sc: a release (R167). -/
def execSc (d a b : Reg) (lk : BitVec 4) (s : State) : Out :=
  issue (.sc d a b lk) s fun s => afterAccesses s
    (plainAccess s (.sc d a b lk) a kindRMW (accessKind .sc 8 false false (readReg s s.cur b) 0#64) (some d))

/-- R157 rup.add. -/
def execRupAdd (a b : Reg) (sc : BitVec 3) (s : State) : Out :=
  issue (.rupAdd a b sc) s fun s =>
    plainAccess s (.rupAdd a b sc) a kindSTORE (accessKind .rupAdd 8 true false (readReg s s.cur b) 0#64) none

/-- R157 rup.min. -/
def execRupMin (a b : Reg) (sc : BitVec 3) (s : State) : Out :=
  issue (.rupMin a b sc) s fun s =>
    plainAccess s (.rupMin a b sc) a kindSTORE (accessKind .rupMin 8 true false (readReg s s.cur b) 0#64) none

/-- R157 rup.max. -/
def execRupMax (a b : Reg) (sc : BitVec 3) (s : State) : Out :=
  issue (.rupMax a b sc) s fun s =>
    plainAccess s (.rupMax a b sc) a kindSTORE (accessKind .rupMax 8 true false (readReg s s.cur b) 0#64) none

/-- R157 rup.or. -/
def execRupOr (a b : Reg) (sc : BitVec 3) (s : State) : Out :=
  issue (.rupOr a b sc) s fun s =>
    plainAccess s (.rupOr a b sc) a kindSTORE (accessKind .rupOr 8 true false (readReg s s.cur b) 0#64) none

/-- R157 rup.and. -/
def execRupAnd (a b : Reg) (sc : BitVec 3) (s : State) : Out :=
  issue (.rupAnd a b sc) s fun s =>
    plainAccess s (.rupAnd a b sc) a kindSTORE (accessKind .rupAnd 8 true false (readReg s s.cur b) 0#64) none

/-- R157 rup.xor. -/
def execRupXor (a b : Reg) (sc : BitVec 3) (s : State) : Out :=
  issue (.rupXor a b sc) s fun s =>
    plainAccess s (.rupXor a b sc) a kindSTORE (accessKind .rupXor 8 true false (readReg s s.cur b) 0#64) none

end Sys2Proof.Machine
end

