-- ==== Sys2Proof/Machine/Barrier.lean ====
section
/-! DEFINITION. Barrier objects and the barrier instructions (16 R344 to R358). -/

namespace Sys2Proof.Machine

/-- Objects per unit, by scope code (R344). The module is no pod member, so .pod names the package's (R11, log 11, DESIGN CHOICE). -/
def barrierCount (scope : Nat) : Nat :=
  match scope with
  | 1 => 16 | 2 => 8 | 3 => 64 | 4 => 32 | 5 => 32 | _ => 0

/-- The number of the unit of a scope around a core. -/
def unitOf (scope core : Nat) : Nat :=
  match scope with
  | 1 => core | 2 => 64 * dieOf core + quadOf core | 3 => dieOf core | _ => 0

/-- The number of an object in State.barriers. -/
def barrierKey (scope core ix : Nat) : Nat := 2 ^ 20 * (if scope = 5 then 4 else scope) + 64 * unitOf scope core + ix

/-- A selection of an object by SCOPE, INDEX and coordinates that BSEL accepts (R347). -/
def barrierSelectOk (s : State) (w : Word) : Bool :=
  let scope := bitsAt w 8 3
  let die := bitsAt w 20 2
  let row := bitsAt w 16 4
  let col := bitsAt w 11 5
  decide (1 ≤ scope) && decide (scope ≤ 5) && decide (bitsAt w 0 6 < barrierCount scope) && decide (row < 14) &&
    decide (col < 16) && !s.dieRetired die && !(scope == 2 && col % 4 != 0) &&
    !(scope == 3 && (row != 0 || col != 0)) && !(decide (4 ≤ scope) && (die != 0 || row != 0 || col != 0))

/-- The coordinates of a selection are 0 where R347 requires. -/
def barrierZeroes (w : Word) : Bool :=
  let scope := bitsAt w 8 3
  !(scope == 2 && bitsAt w 11 2 != 0) && !(scope == 3 && bitsAt w 11 9 != 0) && !(decide (4 ≤ scope) && bitsAt w 11 11 != 0)

/-- The object that such a selection names. -/
def barrierSelected (w : Word) : Nat :=
  barrierKey (bitsAt w 8 3) (coreAt (bitsAt w 20 2) (bitsAt w 16 4) (bitsAt w 11 5)) (bitsAt w 0 6)

def State.barrier (s : State) (j : Nat) : Barrier := tabGet Barrier.reset s.barriers j
def State.setBarrier (s : State) (j : Nat) (x : Barrier) : State := { s with barriers := tabSet s.barriers j x }

/-- The state word (R346): arr is the ARR it reports, ref its REF. -/
def barrierWord (x : Barrier) (ref : Bool) : Word :=
  let bit := fun (b : Bool) (n : Nat) => if b then 2 ^ n else 0
  BitVec.ofNat 64 (bit x.phase 63 + bit x.fault 62 + bit x.bereaved 61 + bit ref 60 + bit x.orphan 59 + x.exp * 2 ^ 24 +
    x.arr)

/-- The event of a waiter (R358): its status, if any line matches. -/
def waitStatus (x : Barrier) (old reset : Bool) : Option Nat :=
  if x.phase != old then some 0
  else if x.orphan then some 4
  else if x.bereaved then some 2
  else if x.fault then some 1
  else if reset then some 3
  else none

/-- Deliver the events of a list of waiters: the state, and the waiters that go on waiting. -/
def wakeList (x : Barrier) (reset : Bool) (s : State) : List BarWaiter → State × List BarWaiter
  | [] => (s, [])
  | w :: ws =>
    match waitStatus x w.old reset with
    | some n => wakeList x reset (arrive s w.key w.wid (.one (BitVec.ofNat 64 n))) ws
    | none => let r := wakeList x reset s ws; (r.1, w :: r.2)

/-- A step of object j leaves it as x; the waiters see it. -/
def barrierStep (s : State) (j : Nat) (x : Barrier) (reset : Bool) : State :=
  let r := wakeList x reset s x.waiters
  r.1.setBarrier j { x with waiters := r.2 }

/-- The release test (R349). -/
def released (x : Barrier) : Barrier :=
  if x.arr = x.exp ∧ x.pend = 0 ∧ !x.fault ∧ !x.bereaved then { x with phase := !x.phase, arr := 0 } else x

/-- The reset of an object by a barinit or a BOWN write (R348, R355): PHASE stands. -/
def cleared (x : Barrier) (exp : Nat) : Barrier :=
  { x with exp := exp, arr := 0, pend := 0, fault := false, bereaved := false, orphan := false }

/-- BOWN_WRITE on object j (R348). -/
def writeOwner (s : State) (j : Nat) (valid : Bool) (asid : BitVec 16) : State :=
  barrierStep s j { cleared (s.barrier j) 1 with valid := valid, asid := asid } true

/-- The retirement of an engine operation's bytes (R351). -/
def retireBytes (s : State) (core : Nat) (asid : BitVec 16) (scope ix bytes : Nat) (failed : Bool) : State :=
  let j := barrierKey scope core ix
  let x := s.barrier j
  if !x.valid || x.asid != asid then s
  else
    let low := decide (x.pend - bytes < -(2 ^ 55))
    let x := { x with pend := if low then x.pend else x.pend - bytes, fault := x.fault || failed || low }
    barrierStep s j (released x) false

/-- Conveyance of an object (R350). -/
def conveyBarrier (s : State) (j : Nat) (heir : Bool) : State :=
  let x := s.barrier j
  barrierStep s j { x with bereaved := true, orphan := x.orphan || !heir } false

/-- The checks of R354: the object's number. -/
def barrierNamed (s : State) (k : Nat) (a : Word) (scope : Nat) : Option Nat :=
  let core := coreOf k
  if bitsAt a 6 58 ≠ 0 ∨ barrierCount scope ≤ bitsAt a 0 6 then none
  else if isSystem core ∧ scope ≤ 3 then none
  else
    let j := barrierKey scope core (bitsAt a 0 6)
    let x := s.barrier j
    if x.valid && x.asid == (s.thr k).asid then some j else none

/-- A barrier instruction on the object that a names, or the trap with TVAL = a. -/
def withBarrier (s : State) (a : Reg) (sc : BitVec 3) (go : Nat → Out) : Out :=
  let av := readReg s s.cur a
  match barrierNamed s s.cur av sc.toNat with
  | none => finishTrap s kindADDRESS 0 av
  | some j => go j

/-- R355 barinit. -/
def execBarinit (d a b : Reg) (sc : BitVec 3) (s : State) : Out :=
  issue (.barinit d a b sc) s fun s => withBarrier s a sc fun j =>
    let bv := readReg s s.cur b
    if bitsAt bv 24 40 ≠ 0 ∨ bitsAt bv 0 24 = 0 then finishTrap s kindADDRESS 0 bv
    else
      let x := cleared (s.barrier j) (bitsAt bv 0 24)
      finishWrite (barrierStep s j x true) d (barrierWord x false)

/-- R356 barjoin: it waits for its thread's earlier accesses. -/
def execBarjoin (d a b : Reg) (sc : BitVec 3) (s : State) : Out :=
  issue (.barjoin d a b sc) s fun s => withBarrier s a sc fun j =>
    let bv := readReg s s.cur b
    if 2 ^ 48 ≤ bv.toNat then finishTrap s kindADDRESS 0 bv
    else afterAccesses s <|
      let x := s.barrier j
      if x.arr = x.exp ∨ 2 ^ 55 ≤ x.pend + bv.toNat then finishWrite s d (barrierWord x true)
      else
        let x := { x with arr := x.arr + 1, pend := x.pend + bv.toNat }
        finishWrite (barrierStep s j (released x) false) d (barrierWord x false)

/-- R357 barbytes. -/
def execBarbytes (d a b : Reg) (sc : BitVec 3) (s : State) : Out :=
  issue (.barbytes d a b sc) s fun s => withBarrier s a sc fun j =>
    let bv := readReg s s.cur b
    if 2 ^ 48 ≤ bv.toNat then finishTrap s kindADDRESS 0 bv
    else
      let x := s.barrier j
      if 2 ^ 55 ≤ x.pend + bv.toNat then finishWrite s d 0x8000000000000000#64
      else
        let x := { x with pend := x.pend + bv.toNat }
        finishWrite (barrierStep s j (released x) false) d (BitVec.ofInt 64 x.pend)

/-- R358 barwait: its window waits at the object, and holds back the thread's later memory accesses. -/
def execBarwait (d a b : Reg) (sc : BitVec 3) (lk : BitVec 4) (s : State) : Out :=
  issue (.barwait d a b sc lk) s fun s => withBarrier s a sc fun j =>
    let k := s.cur
    let bv := readReg s k b
    let x := s.barrier j
    let old := if bv.getLsbD 58 then x.phase else bv.getLsbD 63
    let w := newWindow s d lk true true (.barwait d a b sc lk) (readReg s k a)
      (if old then 0x8000000000000000#64 else 0#64) .pending
    let s := s.tick
    let s := s.setBarrier j { x with waiters := x.waiters ++ [⟨k, w.id, old⟩] }
    let s := s.setThr k { s.thr k with
      pc := (s.thr k).pc + 4#64, windows := countWindows (s.thr k).windows ++ [w], stay := false, mismatch := false }
    .next (closeWindows (barrierStep s j (s.barrier j) false) k)

end Sys2Proof.Machine
end

