-- ==== Sys2Proof/Machine/Pool.lean ====
section
/-! DEFINITION. The buffer pool of a compute core and its queues (17 R360 to R369): configuration words, occupancy,
admission, retirement; names of threads, message entries, and the outbound queues (R326, R327, R361). -/

namespace Sys2Proof.Machine

def State.ticks (s : State) (n : Nat) : State := { s with nonce := s.nonce + n }

/-! Fields of a QCFG word (R362). -/

def qMin (w : Word) : Nat := bitsAt w 0 13
def qCap (w : Word) : Nat := bitsAt w 16 13
def qKind (w : Word) : Nat := bitsAt w 29 4
def qAsid (w : Word) : BitVec 16 := w.extractLsb' 48 16
def qLevel (w : Word) : Bool := w.getLsbD 47
def qPeer (w : Word) : Nat := bitsAt w 33 14
/-- the peer core of a channel: die, row, column -/
def qPeerCore (w : Word) : Nat := coreAt (bitsAt w 42 2) (bitsAt w 38 4) (bitsAt w 33 5)
def qPeerChannel (w : Word) : Nat := bitsAt w 44 3

def qcfgOf (c : Core) (q : Nat) : Word := c.qcfg.getD q 0#64
def listOf (c : Core) (q : Nat) : List (List Word) := tabGet [] c.lists q
def inboxOf (c : Core) (cls : Nat) : List Msg := tabGet [] c.inbox cls

/-- Entries in use by a queue (R360). -/
def occupancy (c : Core) (q : Nat) : Nat :=
  if q = 3 then 2 * c.packets.length
  else if q ≤ 4 then (inboxOf c q).length
  else if q = 5 then c.vecQueue.length
  else if q = 6 then 3 * c.copies.length
  else if q = 7 then c.matQueue.length
  else (listOf c q).length

/-- CAPACITY and FREE (R363): 64 entries for each block that is not retired. -/
def poolCapacity (c : Core) : Nat := 64 * ((upTo 64).filter fun k => !c.qret.getLsbD k).length

def poolUsed (c : Core) : Nat := ((upTo 16).map (occupancy c)).sum
def poolFree (c : Core) : Nat := poolCapacity c - poolUsed c

/-- The entries that the queues below their minima still have coming (R364). -/
def poolReserved (c : Core) : Nat := ((upTo 16).map fun j => qMin (qcfgOf c j) - occupancy c j).sum

/-- The blocks that are neither retired nor retiring. -/
def openBlocks (c : Core) : Nat :=
  ((upTo 64).filter fun k => !c.qret.getLsbD k && c.qretiring.all fun x => x.1 != k).length

/-- The entries in use that lie in retiring blocks. -/
def retiringUsed (c : Core) : Nat := (c.qretiring.map (·.2)).sum

/-- The free entries of the blocks that are neither retired nor retiring (R364). -/
def poolOpen (c : Core) : Nat := 64 * openBlocks c - (poolUsed c - retiringUsed c)

/-- The admission test of R364 for an item of k entries, which takes them from blocks that do not retire. -/
def admits (c : Core) (q k : Nat) : Bool :=
  let n := occupancy c q
  let w := qcfgOf c q
  decide (n + k ≤ qCap w) && decide (k + poolReserved c ≤ (qMin w - n) + poolFree c) && decide (k ≤ poolOpen c)

/-- The DIVERT entry of a core that holds a context (R287). -/
def divertOf (c : Core) (asid : BitVec 16) : Option Nat :=
  findFirst (fun i => let d := c.diverts.getD i ⟨false, 0#16, 0#36⟩; d.valid && d.asid == asid) (upTo 8)

/-- An operation that has put its entries away and has not taken them back (R223). -/
def VecOp.away (o : VecOp) : Bool := o.started && o.parked

/-- An operation's destination is the sending channel of queue q. -/
def VecOp.sendsTo (o : VecOp) (q : Nat) : Bool :=
  let p := o.recD % 2 ^ 64
  p / 2 ^ 58 == 0x3F && 8 + p % 8 == q

/-- The last entry of a sending channel is one that a saved operation will go on filling (R223): its residence is
switched out, or is being loaded, or the operation has not taken it back. -/
def entryOpen (c : Core) (q : Nat) : Bool :=
  c.chanOpen.getLsbD q && ((divertOf c (qAsid (qcfgOf c q))).isSome || c.residence == .resuming ||
    c.vecQueue.any fun o => o.away && o.sendsTo q)

/-- Append an entry to, or replace the entries of, a queue from 8 to 15. -/
def setList (c : Core) (q : Nat) (l : List (List Word)) : Core := { c with lists := tabSet c.lists q l }

/-- QPOOL (R363). -/
def qpoolWord (c : Core) : Word :=
  BitVec.ofNat 64 ((if c.qovc then 2 ^ 63 else 0) + poolCapacity c * 2 ^ 16 + poolFree c)

/-- The sum of the minima. -/
def minimaSum (c : Core) : Nat := ((upTo 16).map fun j => qMin (qcfgOf c j)).sum

/-- A retirement has left the sum of the minima below CAPACITY no longer (R369). -/
def overCommitted (c : Core) : Bool := decide (poolCapacity c ≤ minimaSum c)

/-- The minima after a retirement that over-commits the pool (R369). -/
def shrinkMinima (c : Core) : Core :=
  let m0 := qMin (qcfgOf c 0)
  { c with
    qcfg := c.qcfg.mapIdx fun j w =>
      if j = 0 then w else BitVec.ofNat 64 (w.toNat / 2 ^ 13 * 2 ^ 13 + (poolCapacity c - m0) * qMin w / (minimaSum c - m0))
    qovc := true }

/-- The entries in use of a block that begins to retire: as many as the other open blocks cannot hold, at most 64. In which
blocks the items lie is open (log 37, DESIGN CHOICE). -/
def blockUsed (s : State) (c : Core) : Nat :=
  let n := poolUsed c - retiringUsed c
  let low := n - 64 * (openBlocks c - 1)
  low + Config.choice s.nonce % (min 64 n + 1 - low)

/-- One entry in use is freed, the i-th: those of the retiring blocks first, then those of the others. -/
def leaveBlock : Nat → Tab Nat → Tab Nat
  | _, [] => []
  | i, (b, n) :: t => if i < n then (b, n - 1) :: t else (b, n) :: leaveBlock (i - n) t

/-- n of the entries that were in use are freed, any (log 37, DESIGN CHOICE). -/
def leavePool (nonce used : Nat) : Nat → Tab Nat → Tab Nat
  | 0, t => t
  | n + 1, t => leavePool (nonce + 1) (used - 1) n (leaveBlock (Config.choice nonce % used) t)

/-- The retiring blocks with no entry in use retire (R369). -/
def retireEmpty (s : State) (core : Nat) : State :=
  let c := s.core core
  let gone := c.qretiring.filter (·.2 == 0)
  if gone = [] then s
  else
    let c := { c with
      qret := gone.foldl (fun r x => r ||| (1#64 <<< x.1)) c.qret, qretiring := c.qretiring.filter (·.2 != 0) }
    if overCommitted c then (s.raised (.queueOvc core)).setCore core (shrinkMinima c) else s.setCore core c

/-- What has left the pool since the last look leaves its blocks, and a block whose last entry has left is retired (R369). -/
def settlePool (s : State) (core : Nat) : State :=
  let c := s.core core
  let n := c.qused - poolUsed c
  retireEmpty ((s.setCore core { c with
    qretiring := leavePool s.nonce c.qused n c.qretiring, qused := poolUsed c }).ticks n) core

/-- The pools with a retiring block: done after each step of the machine. -/
def settlePools (s : State) : State :=
  ((s.cores.filter fun x => x.2.qretiring != []).map (·.1)).foldl settlePool s

/-- POOL_BLOCK_RETIRE (R369): a block with entries in use is retiring, nothing is allocated from it, and it is retired once
its last entry has been freed. -/
def execPoolBlockRetire (core block : Nat) (s : State) : Out :=
  let c := s.core core
  if 64 ≤ block ∨ c.qret.getLsbD block ∨ (c.qretiring.any fun x => x.1 == block) then .next s
  else
    let n := blockUsed s c
    .next (retireEmpty ((s.setCore core { c with qretiring := c.qretiring ++ [(block, n)], qused := poolUsed c }).tick) core)

/-! Names and message entries (R326, R327, R361). -/

/-- The slot that a name word names, and its generation. -/
def nameCore (n : Nat) : Nat := coreAt (n / 2 ^ 20 % 4) (n / 2 ^ 16 % 16) (n / 2 ^ 11 % 32)
def nameKey (n : Nat) : Nat := 8 * nameCore n + n / 2 ^ 8 % 8
def nameGen (n : Nat) : BitVec 8 := BitVec.ofNat 8 n

/-- The name of a system core (R331). -/
def nameSystem (n : Nat) : Bool := n / 2 ^ 16 % 16 == 15

/-- The limits of R327 on a name word. -/
def nameOk (n : Nat) : Bool :=
  n / 2 ^ 16 % 16 != 14 && decide (n / 2 ^ 11 % 32 ≤ 15) &&
    (!nameSystem n || (n / 2 ^ 20 % 4 == 0 && n / 2 ^ 8 % 8 == 0 && n % 256 == 0))

def msgClass (m : Msg) : Nat := bitsAt m.w0 24 3
def msgTo (m : Msg) : Nat := bitsAt m.w1 0 22
def msgSender (m : Msg) : BitVec 16 := m.w0.extractLsb' 32 16
/-- The eight doublewords of an entry. -/
def msgWords (m : Msg) : List Word := m.w0 :: m.w1 :: m.payload

/-- The core that an entry goes to. -/
def msgCore (m : Msg) : Nat := if nameSystem (msgTo m) then 1024 + (msgTo m) / 2 ^ 11 % 16 else nameCore (msgTo m)

/-- A request of a thread to another core goes as a class-0 message (R294). -/
def requestOut (from_ core : Nat) : Option (Nat × Nat) := if from_ = core then none else some (from_, 0)

/-- The outbound queue in which a step under way stands (R361), by core and class: message entries and class-0 requests;
in class 3 the migration packets, levelled entries and partials. -/
def outboundOf : Event → Option (Nat × Nat)
  | .messageArrival m => some (m.src, msgClass m)
  | .inboxResend m _ => if m.seq = 0 then some (m.src, msgClass m) else none
  | .payloadRead m _ => some (m.src, msgClass m)
  | .partialArrival p => some (p.src, 3)
  | .partialLeaves p _ => some (p.src, 3)
  | .migrationPacketArrival p _ => some (coreOf p.src, 3)
  | .levelledEntryArrival core _ src _ => if core = src then none else some (src, 3)
  | .slotwRequest key _ core _ => requestOut (coreOf key) core
  | .qcfgRequest key _ core _ _ => requestOut (coreOf key) core
  | .ctxsaveRequest r => requestOut (coreOf r.key) r.core
  | .ctxloadRequest r => if r.mode = 0#2 then requestOut (coreOf r.key) r.core else none
  | .divertClearRequest core _ _ src => requestOut src core
  | _ => none

/-- The entries of a class that a core has in its outbound queue: 8 fit. -/
def outbound (s : State) (core cls : Nat) : Nat := (s.work.filter fun e => outboundOf e == some (core, cls)).length

/-- A class-0 request from one core to another finds room in its outbound queue; a request to the own core takes none (R361,
R446). -/
def roomOut (s : State) (from_ core : Nat) : Bool := from_ == core || decide (outbound s from_ 0 < 8)

end Sys2Proof.Machine
end

