-- ==== Sys2Proof/Machine/Ports.lean ====
section
/-! DEFINITION. The order of the steps under way (R143, R330, R495; log 2, DEDUCED), and the ports between the dies: permits, flits, and
how a step passes them (21 R433 to R444; log 18, DESIGN CHOICE). -/

namespace Sys2Proof.Machine

/-! The order of steps under way. -/

/-- Two entries of one thread to one addressee in one class (R330). A thread of slot 7 or of a system core is known by its
name, another by its group and number, wherever it runs. -/
def sameLetter (m n : Msg) : Bool :=
  let fixed := fun (x : Msg) => isSystem x.src || bitsAt x.w0 8 3 == 7
  msgClass m == msgClass n && msgTo m == msgTo n && bitsAt m.w0 32 32 == bitsAt n.w0 32 32 &&
    (if fixed m || fixed n then bitsAt m.w0 0 22 == bitsAt n.w0 0 22 else m.asid == n.asid)

/-- The entry that a step brings. -/
def entryOn : Event → Option Msg
  | .messageArrival m => some m
  | .inboxResend m _ => some m
  | .payloadRead m _ => some m
  | _ => none

/-- The queue in which a step stands, beside the outbound queues: the entries of a saved inbox for one core and class (R297),
the stale responses from one core to another (R329), the levelled entries that return to one list (R342), the steps of a
reduction server's context (R448). -/
def otherQueue : Event → Option (Nat × Nat × Nat × Nat)
  | .inboxResend m _ => if m.seq = 0 then none else some (0, msgCore m, msgClass m, 0)
  | .staleResponse m => some (1, msgCore m, m.src, 0)
  | .levelledEntryArrival core q src _ => if core = src then some (2, core, q, 0) else none
  | .partialArrival p => some (3, p.core, p.ctx, p.child)
  | .rootResultWrite core ctx _ _ => some (4, core, ctx, 0)
  | _ => none

/-- Two accesses of one thread to one location over one path (R142, R149). -/
def sameLocation (r q : Request) : Bool := r.key == q.key && r.cell / 8 == q.cell / 8 && r.port == q.port

/-- The accesses that a step under way will perform. -/
def stepRequests : Event → List Request
  | .remoteRequestArrival r => [r]
  | .takeRequest r => [r]
  | .payloadRead _ rs => rs
  | .storeIssue rs => rs
  | _ => []

/-- Two steps that keep their order: those of one outbound queue, which wait behind its head (R328, R361, R365), the entries
of one thread to one addressee in one class (R330), those of one queue above, Meadow instructions of one thread (R266),
releases at one core, accesses of one thread over one path to one doubleword (R149). -/
def sameStream (e f : Event) : Bool :=
  e == f || ((outboundOf e).isSome && outboundOf e == outboundOf f) ||
    ((otherQueue e).isSome && otherQueue e == otherQueue f) ||
    ((entryOn e).any fun m => (entryOn f).any (sameLetter m)) ||
    (match e, f with
      | .meadowApply r, .meadowApply q => r.key == q.key
      | .presumeRelease a _ _, .presumeRelease b _ _ => nameCore a.toNat == nameCore b.toNat
      | .returnFlitArrival a p _ _, .returnFlitArrival b q _ _ => a == b && p == q
      | .bindRequest a .., .bindRequest b .. => a == b
      | .bindRequest a .., .unbindRequest b _ => a == b
      | .unbindRequest a _, .bindRequest b .. => a == b
      | .unbindRequest a _, .unbindRequest b _ => a == b
      | _, _ => false) ||
    (stepRequests e).any fun r => (stepRequests f).any (sameLocation r)

/-- The step that comes first where step e is asked for: the earliest that keeps its order with e, then the earliest that
keeps its order with that one, and so on. -/
def streamHead : Nat → List Event → Event → Event
  | 0, _, e => e
  | n + 1, l, e => match findFirst (sameStream · e) l with
    | some f => if f = e then e else streamHead n l f
    | none => e

/-! Ports (R433). -/

/-- The Barn's end of port 2 stands under the number 12 of the die: it follows the die's setting (R435), has its own side of the
permits (R441), and no registers. -/
def barnEnd : Nat := 12

/-- A port of lane groups whose direction turns. -/
def turnsPort (p : Nat) : Bool := p ≤ 2 || p == barnEnd

def State.port (s : State) (die p : Nat) : Port := tabGet { Port.reset with up := turnsPort p } (s.die die).ports p
def State.setPort (s : State) (die p : Nat) (x : Port) : State :=
  let d := s.die die
  s.setDie die { d with ports := tabSet d.ports p x }

def portExists (p : Nat) : Bool := p ≤ 2 || (4 ≤ p && p ≤ 11)

/-- The port at the other end, when that is in the module. -/
def farPort (die p : Nat) : Option (Nat × Nat) :=
  match p with
  | 0 => some ((die + 1) % 4, 1)
  | 1 => some ((die + 3) % 4, 0)
  | 2 => some (die, 12)
  | 12 => some (die, 2)
  | _ => none

/-- The ports through which a flit leaves a die, or the Barn, on its way from one core to another; to the opposite die it goes by the
clockwise neighbour (log 18, DESIGN CHOICE). -/
def hops (src dst : Nat) : List (Nat × Nat) :=
  let a := dieOf src
  let b := dieOf dst
  if isSystem src && isSystem dst then []
  else if isSystem src then [(b, 12)]
  else if isSystem dst then [(a, 2)]
  else match (b + 4 - a) % 4 with
    | 0 => []
    | 1 => [(a, 0)]
    | 3 => [(a, 1)]
    | _ => [(a, 0), ((a + 1) % 4, 0)]

/-! Permits and flits (R434, R435, R437, R441). -/

def sumOf (l : List Nat) : Nat := l.foldl (· + ·) 0
def minField (w : Word) (c : Nat) : Nat := bitsAt w (12 * c) 11

/-- The admission of a flit of a class. -/
def admitsFlit (x : Port) (c : Nat) : Bool :=
  let held := fun (j : Nat) => x.held.getD j 0
  let taken := sumOf ((upTo 5).map fun j => max (held j) (minField x.lpmin j))
  decide (held c < minField x.lpcap c) && (decide (held c < minField x.lpmin c) || decide (taken < x.capacity))

def addAt (l : List Nat) (c : Nat) : List Nat := setAt l c (l.getD c 0 + 1)

/-- The sender's side of one flit. -/
def flitSent (x : Port) (c : Nat) : Port :=
  { x with held := addAt x.held c, sent := setAt x.sent c (x.sent.getD c 0#16 + 1#16), flits := x.flits + 1 }

/-- The outward groups that may launch a flit: while a turn is silent only those that do not turn (R437). -/
def driving (x : Port) : Nat := if x.silent then min x.steady x.out else x.out

/-- A port's end may launch: a pod port drives both ways at once. -/
def launches (x : Port) (p : Nat) : Bool := x.up && (!turnsPort p || decide (0 < driving x))

/-- The groups of which 8 failures have come within 1 ms (R471). -/
def failingGroups (failures : List (Nat × Word)) : BitVec 8 :=
  BitVec.ofNat 8 (((upTo 8).filter fun g => decide (8 ≤ (failures.filter (·.1 == g)).length)).map (2 ^ ·)).sum

/-- A flit of a class stands in a buffer of the receiver. -/
def flitKept (s : State) (die p c : Nat) : State :=
  let x := s.port die p
  (s.setPort die p { x with occ := addAt x.occ c }).later (.returnFlitSend die p)

/-- A flit that failed its CRC waits for its replay; the groups in error are charged (R471). -/
def flitDiscarded (s : State) (die p c : Nat) (bad : BitVec 8) : State :=
  let x := s.port die p
  let charged := ((upTo 8).filter fun g => bad.getLsbD g).map fun g => (g, s.time)
  let failures := (x.failures.filter fun f => decide ((s.time - f.2).toNat < 1000000)) ++ charged
  (s.setPort die p { x with
    replay := x.replay ++ [c], failures := failures, failing := x.failing ||| failingGroups failures }).later
      (.flitReplay die p)

/-- A flit reaches the receiver's end of a port; bad names the lane groups in error. -/
def flitReaches (s : State) (die p c : Nat) (bad : BitVec 8) : State :=
  if bad = 0#8 then flitKept s die p c else flitDiscarded s die p c bad

/-- Nothing stands in the way of a flit at the receiver's end: no discarded flit waits there for its replay, and no audit (R434,
R444). -/
def endClear (s : State) (die p : Nat) : Bool :=
  (s.port die p).replay == [] && !s.work.any fun e => match e with
    | .auditFlitArrival d q _ => d == die && q == p
    | _ => false

/-- A flit of class c goes out of a port, and the permit is held until the receiver's count returns (R441, R443); behind every
65,536 an audit goes (R444). What the other end of a pod port does, and when, is free (log 18, DESIGN CHOICE). -/
def launchFlit (s : State) (h : Nat × Nat) (c : Nat) (bad : BitVec 8) : State :=
  let y := flitSent (s.port h.1 h.2) c
  let s := s.setPort h.1 h.2 y
  let s := match farPort h.1 h.2 with
    | some (d, q) => flitReaches s d q c bad
    | none => (s.later (.returnFlitArrival h.1 h.2 (Config.goodReturn s.nonce) y.sent)).tick
  if y.flits % 65536 = 0 then s.now (.auditFlitSend h.1 h.2) else s

/-! How a step passes the ports (R434, R440). -/

/-- How far a step is on its way; one that is not known stands before its first port. -/
def transitOf (s : State) (e : Event) (way : List (Nat × Nat)) (c n : Nat) : Transit :=
  (findFirst (fun x => x.event == e) s.transit).getD ⟨e, way, c, n, 0, n, none⟩

/-- The flits that wait to go out of a port, in the order in which they came. -/
def queueAt (s : State) (h : Nat × Nat) : List Transit := s.transit.filter fun x => x.since.isSome && x.way[x.hop]? == some h

/-- A class-0 flit waits to go out. -/
def cl0Waits (s : State) (h : Nat × Nat) : Bool := (queueAt s h).any (·.cls == 0)

/-- The oldest flit has waited more than 4,000 ns. -/
def waitsLong (s : State) (h : Nat × Nat) : Bool :=
  (queueAt s h).any fun x => decide (4000 < (s.time - x.since.getD s.time).toNat)

/-- Step e may be chosen: none comes before it in its stream. -/
def leads (s : State) (e : Event) : Bool := streamHead s.work.length s.work e == e

/-- A flit of class c may go out of a port: its end drives, the class is admitted, and nothing stands in the way beyond. -/
def portOpen (s : State) (h : Nat × Nat) (c : Nat) : Bool :=
  launches (s.port h.1 h.2) h.2 && admitsFlit (s.port h.1 h.2) c && (farPort h.1 h.2).all fun f => endClear s f.1 f.2

/-- The flit of step e goes before what else waits at the port: class 0 is served first (R440), and the flits of one class go in
the order in which they came (R434), as far as their steps can be chosen. -/
def servedNow (s : State) (h : Nat × Nat) (c : Nat) (e : Event) : Bool :=
  let waiting := (queueAt s h).filter fun x => x.event != e && leads s x.event
  let before := ((queueAt s h).takeWhile fun x => x.event != e).filter fun x => leads s x.event
  !before.any (·.cls == c) && (c == 0 || !(waiting.any (·.cls == 0) && portOpen s h 0))

/-- A step's place on its way is kept; a new one goes behind those that are known. -/
def setTransit (s : State) (x : Transit) : State :=
  if s.transit.any fun y => y.event == x.event then
    { s with transit := s.transit.map fun y => if y.event == x.event then x else y }
  else { s with transit := s.transit ++ [x] }

def dropTransit (s : State) (e : Event) : State := { s with transit := s.transit.filter fun y => y.event != e }

/-- What one turn of a step comes to: it waits on its way, or it has arrived. -/
inductive Passage where
  | waits (s : State)
  | arrives (s : State)

/-- The flit that went out of the n-th port has arrived: no discarded one waits beyond for its replay. -/
def landed (s : State) (way : List (Nat × Nat)) (n : Nat) : Bool :=
  n == 0 || ((way[n - 1]?).bind fun h => farPort h.1 h.2).all fun f => (s.port f.1 f.2).replay == []

/-- One turn of step e, of n flits of class c, on its way: it stands at the next port and sends its next flit if it may. A flit that
its receiver has discarded holds it until the replay. -/
def pass (s : State) (e : Event) (way : List (Nat × Nat)) (c n : Nat) : Passage :=
  let x := transitOf s e way c n
  if !landed s x.way x.hop then .waits s
  else match x.way[x.hop]? with
  | none => .arrives s
  | some h =>
    if !(portOpen s h x.cls && servedNow s h x.cls e) then .waits (setTransit s { x with since := some (x.since.getD s.time) })
    else
      let bad := Config.flitErrors s.nonce
      let s := launchFlit s.tick h x.cls bad
      if 1 < x.left then .waits (setTransit s { x with left := x.left - 1, since := some (x.since.getD s.time) })
      else
        let last := decide (x.way.length ≤ x.hop + 1)
        let s := setTransit s { x with hop := x.hop + 1, left := x.flits, since := if last then none else some s.time }
        if last && landed s x.way (x.hop + 1) then .arrives s else .waits s

end Sys2Proof.Machine
end

