-- ==== Sys2Proof/Machine/Queue.lean ====
section
/-! DEFINITION. The queue instructions (17 R370 to R375), the naming of a core in an operand (R294, R371), and the moves
of channel and levelled entries (R207, R342, R365). -/

namespace Sys2Proof.Machine

/-- The core that b[51:40] names (R294, R371): none where the naming breaks a rule. -/
def coreNamed (s : State) (k : Nat) (b : Word) : Option Nat :=
  let own := coreOf k
  if bitsAt b 40 12 = 0 then (if isSystem own then none else some own)
  else if !b.getLsbD 51 || !isSystem own then none
  else
    let row := bitsAt b 45 4
    let col := bitsAt b 40 5
    let die := bitsAt b 49 2
    if 14 ≤ row ∨ 16 ≤ col ∨ s.dieRetired die then none else some (coreAt die row col)

/-- A guest-view thread names cores of its own partition alone (R476). -/
def guestCore (s : State) (k core : Nat) : Bool :=
  match (s.thr k).view with
  | .guest v => vfOfCore s core == some v
  | _ => true

/-- The core that slotw, ctxsave, ctxload and qcfg name, for a thread. -/
def coreFor (s : State) (k : Nat) (b : Word) : Option Nat := (coreNamed s k b).filter (guestCore s k)

/-- An operand with an error traps with ADDRESS and the operand as TVAL (R493). -/
def operandTrap (s : State) (v : Word) : Out := finishTrap s kindADDRESS 0 v

/-! Buffers of 64 bytes in the A-buffer (R372, R334, R418): a format-0 here pointer, aligned, inside. -/

/-- n bytes at a here pointer of format 0 to the A-buffer, aligned to al. -/
def bufferOk (b : Word) (al n : Nat) : Bool :=
  bitsAt b 52 12 == 0 && bitsAt b 22 30 == 0 && bitsAt b 20 2 == 1 && bitsAt b 0 20 % al == 0 &&
    decide (bitsAt b 0 20 + n ≤ 2 ^ 19)

def bufferCellOf (k : Nat) (b : Word) : Nat := bufferCell (coreOf k) 1 (bitsAt b 0 20)

/-- A store of a doubleword to the thread's own A-buffer over the here path. -/
def hereStore (s : State) (k aid : Nat) (b : Word) (v : Word) : Request :=
  let t := s.thr k
  { key := k, aid := aid, wid := none, op := .store, cell := bufferCellOf k b, size := 8, home := coreOf k, port := false,
    ea := b, mode := 3#2, data := v, cmp := 0#64, asid := t.asid, group := t.group, tnum := t.tnum, jent := none }

/-- The stores of a list of doublewords from b on, numbered from aid on. -/
def hereStores (s : State) (k : Nat) (b : Word) : Nat → List Word → List Request
  | _, [] => []
  | aid, v :: vs => hereStore s k aid b v :: hereStores s k (b + 8#64) (aid + 1) vs

/-- What a window's close does that writes doublewords to b and v to d (R373); its stores take the counter's numbers
from the one after the window's on. -/
def bufferResult (s : State) (k : Nat) (b : Word) (ws : List Word) (v : Word) : Result :=
  .buffer v (hereStores s k b (s.nonce + 1) ws)

/-- A long-latency instruction whose result writes a buffer has issued. -/
def finishBuffer (s : State) (i : Instr) (d : Reg) (b : Word) (ws : List Word) (v : Word) : Out :=
  let k := s.cur
  let w := newWindow s d (lookaheadOf i) false false i 0#64 0#64 (.later (bufferResult s k b ws v))
  .next (retireTo ((s.ticks (1 + ws.length)).later (.longLatencyResultArrival k w.id)) k ((s.thr k).pc + 4#64) [w])

/-! qput and qget (R372, R373). -/

/-- The checks that qput and qget share. -/
def queueOk (s : State) (k : Nat) (a b : Word) : Bool :=
  let core := coreOf k
  let q := bitsAt a 0 4
  bitsAt a 4 60 == 0 && decide (8 ≤ q) && bufferOk b 64 64 && !isSystem core &&
    qKind (qcfgOf (s.core core) q) == 3 && qAsid (qcfgOf (s.core core) q) == (s.thr k).asid

/-- R372 qput: the entry is read at issue over the here path. -/
def execQput (d a b : Reg) (s : State) : Out :=
  issue (.qput d a b) s fun s =>
    let k := s.cur
    let av := readReg s k a
    let bv := readReg s k b
    let q := bitsAt av 0 4
    if !queueOk s k av bv then operandTrap s av
    else match settleHere s k (bufferCellOf k bv) 64 with
    | none => forfeit s
    | some s =>
    let c := s.core (coreOf k)
    if c.qorphan.getLsbD q then finishWrite s d 3#64
    else if admits c q 1 then
      finishWrite (s.setCore (coreOf k) (setList c q (listOf c q ++ [readWords s.mem (bufferCellOf k bv) 8]))) d 0#64
    else finishWrite s d 1#64

/-- R373 qget: the head entry leaves the list at issue; the window's close writes it. -/
def execQget (d a b : Reg) (lk : BitVec 4) (s : State) : Out :=
  issue (.qget d a b lk) s fun s =>
    let k := s.cur
    let av := readReg s k a
    let bv := readReg s k b
    let c := s.core (coreOf k)
    let q := bitsAt av 0 4
    let i := Instr.qget d a b lk
    if !queueOk s k av bv then operandTrap s av
    else if c.qorphan.getLsbD q then finishLong s i d (.one 3#64)
    else match listOf c q with
      | [] => finishLong s i d (.one 1#64)
      | e :: es => finishBuffer (s.setCore (coreOf k) (setList c q es)) i d bv e 0#64

/-! qcfg (R371). -/

/-- The sums that qcfg bounds, over the words of all queues. -/
def capSum (ws : List Word) : Nat := ((ws.take 5).map qCap).sum
def minSum (ws : List Word) : Nat := (ws.map qMin).sum

/-- The fixed kind of queues 0 to 7 (R361). -/
def fixedKind (q : Nat) : Nat := if q ≤ 4 then 1 else 2

/-- The cap that a fixed queue may not exceed; 8192 stands for none. -/
def capLimit (q : Nat) : Nat :=
  match q with
  | 5 => 256 | 6 => 1536 | 7 => 128 | _ => 8192

/-- The ASID, LEVEL and peer fields of a word. -/
def qOther (w : Word) : Nat := bitsAt w 33 31

def qPeerOk (core : Nat) (w : Word) : Bool :=
  bitsAt w 42 2 == dieOf core && decide (bitsAt w 38 4 < 14) && decide (bitsAt w 33 5 < 16) && qPeerCore w != core

/-- The word is REFUSED. -/
def qcfgRefused (c : Core) (core q : Nat) (w : Word) : Bool :=
  let ws := (c.qcfg.setIfInBounds q w).toList
  let kind := qKind w
  bitsAt w 13 3 != 0 || decide (qCap w < qMin w) ||
    (decide (q ≤ 7) && (kind != fixedKind q || qOther w != 0)) ||
    (decide (8 ≤ q) && !(kind == 0 || kind == 3 || kind == 4 || kind == 5)) ||
    (decide (8 ≤ q) && kind == 0 && w != 0#64) ||
    (qLevel w && kind != 3) || (qPeer w != 0 && kind != 4 && kind != 5) ||
    ((kind == 4 || kind == 5) && !qPeerOk core w) ||
    decide (4096 < qCap w) || decide (capLimit q < qCap w) || decide (256 < capSum ws) ||
    decide (poolCapacity c < minSum ws)

/-- The word is BUSY. -/
def qcfgBusy (c : Core) (q : Nat) (w : Word) : Bool :=
  let old := qcfgOf c q
  decide (8 ≤ q) && qKind old != 0 && qKind w != 0 && decide (0 < occupancy c q) &&
    (qAsid old != qAsid w || qKind old != qKind w || qPeer old != qPeer w)

/-- The accepted word: the marks are cleared, and KIND 0 frees the entries (R368). -/
def setQcfg (c : Core) (q : Nat) (w : Word) : Core :=
  let c := { c with
    qcfg := c.qcfg.setIfInBounds q w
    qbereaved := c.qbereaved &&& ~~~(1#16 <<< q), qorphan := c.qorphan &&& ~~~(1#16 <<< q) }
  if 8 ≤ q ∧ qKind w = 0 then { setList c q [] with chanOpen := c.chanOpen &&& ~~~(1#16 <<< q) } else c

/-- The request of a qcfg reaches the named core: one step, and d's answer. -/
def execQcfgRequest (key : Nat) (d : Reg) (core q : Nat) (v : Word) (s : State) : Out :=
  let c := s.core core
  if qcfgRefused c core q v then .next (answerFrom s core key d 1#64)
  else if qcfgBusy c q v then .next (answerFrom s core key d 2#64)
  else .next (answerFrom (s.setCore core (setQcfg c q v)) core key d 0#64)

/-- R371 qcfg: the request travels to the named core; while the outbound queue has no room the slot forfeits (R361; log 39,
DESIGN CHOICE). -/
def execQcfg (d a b : Reg) (s : State) : Out :=
  issue (.qcfg d a b) s fun s =>
    let bv := readReg s s.cur b
    if bitsAt bv 52 12 ≠ 0 ∨ bitsAt bv 4 36 ≠ 0 then operandTrap s bv
    else match coreFor s s.cur bv with
      | none => operandTrap s bv
      | some core =>
        if !roomOut s (coreOf s.cur) core then forfeit s
        else .next ((awaitAnswer s d).later (.qcfgRequest s.cur d core (bitsAt bv 0 4) (readReg s s.cur a)))

/-! qstat (R374). -/

def qstatWord (c : Core) (asid : BitVec 16) (q : Nat) : Word :=
  let w := qcfgOf c q
  let mine := decide (q ≤ 7) || qAsid w == asid
  let bit := fun (b : Bool) (n : Nat) => if b then 2 ^ n else 0
  BitVec.ofNat 64 (qKind w * 2 ^ 60 + bit (qLevel w) 59 + bit mine 58 + bit (c.qbereaved.getLsbD q) 57 +
    bit (c.qorphan.getLsbD q) 56 + qCap w * 2 ^ 26 + qMin w * 2 ^ 13 + occupancy c q)

/-- R374 qstat. -/
def execQstat (d a : Reg) (s : State) : Out :=
  issue (.qstat d a) s fun s =>
    let k := s.cur
    let av := readReg s k a
    let core := coreOf k
    let c := s.core core
    let q := bitsAt av 0 4
    if bitsAt av 6 58 ≠ 0 ∨ isSystem core ∨ (av.getLsbD 4 ∧ av.getLsbD 5) then operandTrap s av
    else if av.getLsbD 4 then finishWrite s d (qpoolWord c)
    else
      let asid := (s.thr k).asid
      let v := qstatWord c asid q
      if av.getLsbD 5 && (decide (q ≤ 7) || qAsid (qcfgOf c q) == asid) then
        finishWrite (s.setCore core { c with qbereaved := c.qbereaved &&& ~~~(1#16 <<< q) }) d v
      else finishWrite s d v

/-! Entries that move between cores. -/

/-- CHANNEL_ENTRY_MOVE (R207, R365, R368): the head of a sending channel moves to the peer's receiving channel once that
admits it; an ORPHAN channel's entries stay. -/
def execChannelEntryMove (core ch : Nat) (s : State) : Out :=
  let c := s.core core
  let w := qcfgOf c (8 + ch)
  let peer := qPeerCore w
  let q := 8 + qPeerChannel w
  match listOf c (8 + ch) with
  | [] => .next s
  | e :: es =>
    let pw := qcfgOf (s.core peer) q
    let filling := es == [] && entryOpen c (8 + ch)
    if !filling ∧ !c.qorphan.getLsbD (8 + ch) ∧ qKind w = 4 ∧ qKind pw = 5 ∧ qAsid pw = qAsid w ∧ qPeerCore pw = core ∧ qPeerChannel pw = ch ∧
        admits (s.core peer) q 1 then
      let s := s.setCore core (setList c (8 + ch) es)
      let p := s.core peer
      .next (s.setCore peer (setList p q (listOf p q ++ [e])))
    else .next (s.later (.channelEntryMove core ch))

/-- LEVELLED_ENTRY_ARRIVAL (R342): an entry that levelling shipped reaches the neighbour's list; where that has no room
it goes back to the sender's tail. An arrival at the sender itself is such a return; while its list does not admit it either, it
waits (R364). -/
def execLevelledEntryArrival (core q src : Nat) (entry : List Word) (s : State) : Out :=
  let c := s.core core
  let isList := qKind (qcfgOf c q) == 3
  let same := qAsid (qcfgOf c q) == qAsid (qcfgOf (s.core src) q)
  if isList && same && admits c q 1 then
    .next (s.setCore core (setList c q (listOf c q ++ [entry])))
  else if core = src then .next (if isList then s.later (.levelledEntryArrival core q src entry) else s)
  else .next (s.later (.levelledEntryArrival src q src entry))

end Sys2Proof.Machine
end

