-- ==== Sys2Proof/Machine/Engine.lean ====
section
/-! DEFINITION. What the engines have in common: how a command that enters an engine queue ends (R199, R229, R243), the
fork of R170, an engine's user-level interrupt (R190, R191), the journal entry of an engine's refused access (R158,
R161), and the reading of instruction words (R125, R405). -/

namespace Sys2Proof.Machine

/-- How an engine command of a thread ends at its issue: it has been taken, it cannot be taken yet, or it traps. -/
inductive CmdResult where
  | taken (s : State)
  | wait
  | trap (kind detail : Nat) (tval : Word)

/-- An engine command issued by the thread whose opportunity it is. -/
def finishCommand (s : State) : CmdResult → Out
  | .taken s' => finish s'
  | .wait => forfeit s
  | .trap kind detail tval => finishTrap s kind detail tval

/-- An engine command that takes a value of the thread's sequence counter (R88, R200): the counter goes on when the
command is taken. -/
def finishCounted (s : State) (r : CmdResult) : Out :=
  match r with
  | .taken s' => finish (s'.setThr s'.cur { s'.thr s'.cur with seq := (s'.thr s'.cur).seq + 1#32 })
  | r => finishCommand s r

/-- The accesses that an operation's first access waits for (R170): those of its thread that are outstanding. -/
def forkOf (s : State) (k : Nat) : List Nat := (s.thr k).outst.map Outstanding.aid

/-- They have all been performed. -/
def forkReady (s : State) (k : Nat) (fork : List Nat) : Bool := (s.thr k).outst.all fun o => !fork.contains o.aid

/-- Bit ENGINE of the latch (R126), and with irq the pending bit of R190 with the p1 of R191: where several completions come before the
delivery, those of the latest (log 39, DESIGN CHOICE: R191 does not say which). -/
def engineDone (s : State) (k : Nat) (irq : Bool) (arg : Word) (eng : BitVec 3) : State :=
  let t := (s.thr k).latched latchENGINE
  s.setThr k (if irq then { t with uip := t.uip ||| 1#3, argEngine := arg, argEng := eng } else t)

/-- The journal entry of an engine's refusal (R161): DATA is the completion object's address, SIZE log2 of the access's bytes. -/
def engineEntry (s : State) (k : Nat) (cause : BitVec 4) (eng : BitVec 3) (mode : BitVec 2) (size : Nat) (ea data : Word) :
    JournalEntry :=
  { busy := true, ref := true, kind := 3, cause := cause, mode := mode, size := min 3 size.log2, ea := ea, data := data, eng := eng,
    slot := slotOf k, gen := (s.thr k).gen, time := s.time }

/-- An engine's refusal is recorded in entry e of its core's journal (R158, R161). -/
def recordEngine (s : State) (core e : Nat) (x : JournalEntry) : State := (setJournal s core e x).raised (.jref core e)

/-- Where EVACUATE can send a thread (R295 step 3): one that runs, is not pinned, is in no user-level handler and has no trap
to take. -/
def leavesTo (s : State) (k : Nat) : Option Nat :=
  let t := s.thr k
  if t.sstate != .run || t.pinned || t.uin || t.posted != [] then none
  else findFirst (fun c => c != coreOf k && acceptsThread s t.asid c) (dieCores (dieOf (coreOf k)))

/-- The engines take nothing further of the residence of a core: it is pre-empted (R223, R256), or it is evacuated and no
thread of it still migrates or can (R295, R299). -/
def enginesHalt (s : State) (core : Nat) : Bool :=
  match (s.core core).residence with
  | .preempting => true
  | .migratingOut => (upTo 7).all fun j => (s.thr (8 * core + j)).hold != .migrating && (leavesTo s (8 * core + j)).isNone
  | _ => false

/-- An operation of thread k is one of those; slot 7 belongs to no residence. -/
def opHalts (s : State) (k : Nat) : Bool :=
  !isSystem (coreOf k) && decide (slotOf k < 7) && enginesHalt s (coreOf k)

/-- Element e of a list chosen freely (R495). -/
def chooseFrom {α : Type} (s : State) (l : List α) : Option α := l[Config.choice s.nonce % l.length]?

/-! Instruction words. -/

/-- Where the word at an address lies, for a thread (R125, R405): a fetch beyond the translated addresses is an ADDRESS
fault with DETAIL FETCH, and so is one that its home refuses (R159, R492; log 37, DESIGN CHOICE for the kind). -/
def fetchReach (s : State) (k : Nat) (pc : Word) : Reach :=
  if pc.toNat % 4 ≠ 0 ∨ 2 ^ 51 ≤ pc.toNat then .trap kindADDRESS 2 pc
  else match translated s (coreOf k) (s.thr k).asid pc.toNat kindFETCH none with
    | .at p => if (homeRefusal s p.home p.mode (s.thr k).asid true p.cell p.cell).isSome then .trap kindADDRESS 2 pc else .at p
    | r => r

def fetchWord (s : State) (cell : Nat) : IWord := BitVec.ofNat 32 (readBytes s.mem cell 4)

end Sys2Proof.Machine
end

