-- ==== Sys2Proof/Machine/SpecialFunctions.lean ====
section
/-! DEFINITION. Special functions of the vector unit (04 R93 to R98) and FP4 blocks (04 R80 to R82). The tables are the
constants of R94, computed from its formulas. -/

namespace Sys2Proof.Machine

/-- T[j] = RNE32(2^(j/64)), j = 0 to 63 (R94). -/
def tableT : List Nat :=
  [0x3F800000, 0x3F8164D2, 0x3F82CD87, 0x3F843A29, 0x3F85AAC3, 0x3F871F62, 0x3F88980F, 0x3F8A14D5,
   0x3F8B95C2, 0x3F8D1ADF, 0x3F8EA43A, 0x3F9031DC, 0x3F91C3D3, 0x3F935A2B, 0x3F94F4F0, 0x3F96942D,
   0x3F9837F0, 0x3F99E046, 0x3F9B8D3A, 0x3F9D3EDA, 0x3F9EF532, 0x3FA0B051, 0x3FA27043, 0x3FA43516,
   0x3FA5FED7, 0x3FA7CD94, 0x3FA9A15B, 0x3FAB7A3A, 0x3FAD583F, 0x3FAF3B79, 0x3FB123F6, 0x3FB311C4,
   0x3FB504F3, 0x3FB6FD92, 0x3FB8FBAF, 0x3FBAFF5B, 0x3FBD08A4, 0x3FBF179A, 0x3FC12C4D, 0x3FC346CD,
   0x3FC5672A, 0x3FC78D75, 0x3FC9B9BE, 0x3FCBEC15, 0x3FCE248C, 0x3FD06334, 0x3FD2A81E, 0x3FD4F35B,
   0x3FD744FD, 0x3FD99D16, 0x3FDBFBB8, 0x3FDE60F5, 0x3FE0CCDF, 0x3FE33F89, 0x3FE5B907, 0x3FE8396A,
   0x3FEAC0C7, 0x3FED4F30, 0x3FEFE4BA, 0x3FF28177, 0x3FF5257D, 0x3FF7D0DF, 0x3FFA83B3, 0x3FFD3E0C]

/-- I[j] = RNE32(1 / (1 + j/64)), j = -19 to 26 (R94). -/
def tableI : List Nat :=
  [0x3FB60B61, 0x3FB21643, 0x3FAE4C41, 0x3FAAAAAB, 0x3FA72F05, 0x3FA3D70A, 0x3FA0A0A1, 0x3F9D89D9,
   0x3F9A90E8, 0x3F97B426, 0x3F94F209, 0x3F924925, 0x3F8FB824, 0x3F8D3DCB, 0x3F8AD8F3, 0x3F888889,
   0x3F864B8A, 0x3F842108, 0x3F820821, 0x3F800000, 0x3F7C0FC1, 0x3F783E10, 0x3F74898D, 0x3F70F0F1,
   0x3F6D7304, 0x3F6A0EA1, 0x3F66C2B4, 0x3F638E39, 0x3F607038, 0x3F5D67C9, 0x3F5A740E, 0x3F579436,
   0x3F54C77B, 0x3F520D21, 0x3F4F6475, 0x3F4CCCCD, 0x3F4A4588, 0x3F47CE0C, 0x3F4565C8, 0x3F430C31,
   0x3F40C0C1, 0x3F3E82FA, 0x3F3C5264, 0x3F3A2E8C, 0x3F381703, 0x3F360B61]

/-- L[j] = RNE32(ln(1 + j/64)), j = -19 to 26 (R94). -/
def tableL : List Nat :=
  [0xBEB45642, 0xBEA91570, 0xBE9E1294, 0xBE934B11, 0xBE88BC74, 0xBE7CC8E3, 0xBE6881C0, 0xBE549F6A,
   0xBE411E0B, 0xBE2DFA03, 0xBE1B2FE6, 0xBE08BC74, 0xBDED393B, 0xBDC99AF3, 0xBDA6988B, 0xBD842CC6,
   0xBD44A551, 0xBD020AEC, 0xBC8102B3, 0x00000000, 0x3C7E0546, 0x3CFC14D8, 0x3D3BA2C8, 0x3D785186,
   0x3D9A0EBD, 0x3DB78694, 0x3DD4936A, 0x3DF1383B, 0x3E06BBF4, 0x3E14AA98, 0x3E22695B, 0x3E2FF984,
   0x3E3D5C48, 0x3E4A92D5, 0x3E579E4A, 0x3E647FBE, 0x3E71383B, 0x3E7DC8C3, 0x3E851927, 0x3E8B3AE5,
   0x3E914A10, 0x3E974716, 0x3E9D3263, 0x3EA30C5E, 0x3EA8D56C, 0x3EAE8DEE]

/-- Q[j] = RNE32(1 / (1 + (2j + 1)/128)), j = 0 to 63 (R94). -/
def tableQ : List Nat :=
  [0x3F7E03F8, 0x3F7A232D, 0x3F76603E, 0x3F72B9D6, 0x3F6F2EB7, 0x3F6BBDB3, 0x3F6865AC, 0x3F652598,
   0x3F61FC78, 0x3F5EE95C, 0x3F5BEB62, 0x3F5901B2, 0x3F562B81, 0x3F53680D, 0x3F50B6A0, 0x3F4E168A,
   0x3F4B8728, 0x3F4907DA, 0x3F46980C, 0x3F443730, 0x3F41E4BC, 0x3F3FA030, 0x3F3D6910, 0x3F3B3EE7,
   0x3F392144, 0x3F370FBB, 0x3F3509E7, 0x3F330F63, 0x3F311FD4, 0x3F2F3ADE, 0x3F2D602B, 0x3F2B8F6A,
   0x3F29C84A, 0x3F280A81, 0x3F2655C4, 0x3F24A9CF, 0x3F23065E, 0x3F216B31, 0x3F1FD80A, 0x3F1E4CAD,
   0x3F1CC8E1, 0x3F1B4C70, 0x3F19D723, 0x3F1868C8, 0x3F17012E, 0x3F15A025, 0x3F144581, 0x3F12F114,
   0x3F11A2B4, 0x3F105A38, 0x3F0F177A, 0x3F0DDA52, 0x3F0CA29C, 0x3F0B7034, 0x3F0A42F8, 0x3F091AC7,
   0x3F07F781, 0x3F06D905, 0x3F05BF37, 0x3F04A9FA, 0x3F039930, 0x3F028CC0, 0x3F01848E, 0x3F008081]

/-- S[j] = RNE32(1 / sqrt(1 + (2j + 1)/32)), j = 0 to 47 (R94). -/
def tableS : List Nat :=
  [0x3F7C1764, 0x3F74C867, 0x3F6E133E, 0x3F67E3ED, 0x3F6229ED, 0x3F5CD76E, 0x3F57E0CF, 0x3F533C2E,
   0x3F4EE116, 0x3F4AC83F, 0x3F46EB5A, 0x3F4344E6, 0x3F3FD012, 0x3F3C889F, 0x3F396ACE, 0x3F36734A,
   0x3F339F19, 0x3F30EB96, 0x3F2E565C, 0x3F2BDD46, 0x3F297E62, 0x3F2737F0, 0x3F250855, 0x3F22EE1D,
   0x3F20E7F5, 0x3F1EF4A4, 0x3F1D130E, 0x3F1B422C, 0x3F19810C, 0x3F17CED0, 0x3F162AA9, 0x3F1493D9,
   0x3F1309AF, 0x3F118B87, 0x3F1018C6, 0x3F0EB0E0, 0x3F0D534F, 0x3F0BFF97, 0x3F0AB544, 0x3F0973E8,
   0x3F083B1E, 0x3F070A87, 0x3F05E1C7, 0x3F04C08B, 0x3F03A682, 0x3F029362, 0x3F0186E2, 0x3F0080C1]

def constL64 : Val := Fmt.fp32.value 0x42B8AA3B
def constC1 : Val := Fmt.fp32.value 0x3C317218
def constC2 : Val := Fmt.fp32.value 0xAE02E308
def constN1 : Val := Fmt.fp32.value 0x3F317218
def constN2 : Val := Fmt.fp32.value 0xB102E308
def constE3 : Val := Fmt.fp32.value 0x3E2AAAAB
def constD3 : Val := Fmt.fp32.value 0x3EAAAAAB
def constH3 : Val := Fmt.fp32.value 0xBEAAAAAB
def constH5 : Val := Fmt.fp32.value 0x3E088889
def constH7 : Val := Fmt.fp32.value 0xBD5D0DD1
def constG1 : Val := Fmt.fp32.value 0x3F4C422A
def constG3 : Val := Fmt.fp32.value 0x3D122279

/-! FP32 steps of the algorithms: each rounds once, to nearest even (R93). -/

/-- Round an exact value once to FP32. -/
def round32 (v : Val) : Val := Fmt.fp32.value (roundTo .fp32 nearest v).1

def fmul32 (a b : Val) : Val := round32 (mulVal a b).1
def fadd32 (a b : Val) : Val := round32 (addVal nearest a b).1
def fma32 (a b c : Val) : Val := round32 (fmaVal nearest a b c).1

/-- A dyadic constant n / 2^k. -/
def dyadic (n : Int) (k : Nat) : Val := .fin (decide (n < 0)) (.rat n.natAbs (2 ^ k))

def one32 : Val := dyadic 1 0

/-- Table entry j as a value. -/
def entry (t : List Nat) (j : Nat) : Val := Fmt.fp32.value (t.getD j 0)

/-- A value times a power of two, exactly. -/
def scaleVal2 (v : Val) (e : Int) : Val := (mulVal v (.fin false (scaled 1 e))).1

/-- The numerator, denominator and exponent of a finite value x = f × 2^e with 1 ≤ f < 2: e and f. -/
def splitVal (m : Mag) : Int × Val :=
  let e := m.log
  (e, .fin false (.rat (m.frac.1 * (pow2 e).2) (m.frac.2 * (pow2 e).1)))

/-- floor of (f − 1) × n for a value f from 1 up. -/
def tableIndex (f : Val) (n : Nat) : Nat :=
  match f with
  | .fin _ m => (m.frac.1 - m.frac.2) * n / m.frac.2
  | _ => 0

/-- R95. -/
def vexp32 (x : Val) : Val × BitVec 5 :=
  match x with
  | .nan => (.nan, 0#5)
  | _ =>
    if ltVal (dyadic 355 2) x then (.inf false, 0#5)
    else if ltVal x (dyadic (-104) 0) then (.fin false (.rat 0 1), 0#5)
    else
      let k := (roundInt (-(2 ^ 40)) (2 ^ 40) nearest (fmul32 x constL64)).1
      let nk := dyadic (-k) 0
      let r := fma32 nk constC1 x
      let r := fma32 nk constC2 r
      let j := (k % 64).toNat
      let m := (k - (j : Int)) / 64
      let p := fma32 constE3 r (dyadic 1 1)
      let p := fma32 p r one32
      let p := fma32 p r one32
      (round32 (scaleVal2 (mulVal (entry tableT j) p).1 m), 0#5)

/-- R96. -/
def vlog32 (x : Val) : Val × BitVec 5 :=
  match x with
  | .nan => (.nan, 0#5)
  | .inf s => if s then (.nan, flagNV) else (.inf false, 0#5)
  | .fin s m =>
    if m.isZero then (.inf true, flagDZ)
    else if s then (.nan, flagNV)
    else
      let (e, f) := splitVal m
      let high := !ltVal f (dyadic 45 5)
      let f := if high then (mulVal f (dyadic 1 1)).1 else f
      let e := if high then e + 1 else e
      let j := (roundInt (-64) 64 nearest (mulVal (addVal nearest f (dyadic (-1) 0)).1 (dyadic 64 0)).1).1
      let i := (j + 19).toNat
      let r := fma32 f (entry tableI i) (dyadic (-1) 0)
      let t := fmul32 r r
      let p := fma32 (dyadic (-1) 2) r constD3
      let p := fma32 p r (dyadic (-1) 1)
      let p := fma32 p t r
      let y := fma32 (dyadic e 0) constN2 p
      let y := fadd32 y (entry tableL i)
      (fma32 (dyadic e 0) constN1 y, 0#5)

/-- R97, vrcp. -/
def vrcp32 (x : Val) : Val × BitVec 5 :=
  match x with
  | .nan => (.nan, 0#5)
  | .inf s => (.fin s (.rat 0 1), 0#5)
  | .fin s m =>
    if m.isZero then (.inf s, flagDZ)
    else
      let (e, f) := splitVal m
      let y := entry tableQ (tableIndex f 64)
      let y := fma32 y (fma32 (negVal f) y one32) y
      let y := fma32 y (fma32 (negVal f) y one32) y
      let y := scaleVal2 y (-e)
      (round32 (if s then negVal y else y), 0#5)

/-- One step of vrsqrt. -/
def rsqrtStep (f y : Val) : Val :=
  let h := fmul32 y y
  let t := fma32 (negVal f) h one32
  fma32 (fmul32 (dyadic 1 1) y) t y

/-- R97, vrsqrt. -/
def vrsqrt32 (x : Val) : Val × BitVec 5 :=
  match x with
  | .nan => (.nan, 0#5)
  | .inf s => if s then (.nan, flagNV) else (.fin false (.rat 0 1), 0#5)
  | .fin s m =>
    if m.isZero then (.inf s, flagDZ)
    else if s then (.nan, flagNV)
    else
      let (e, f) := splitVal m
      let odd := e % 2 == 1
      let f := if odd then (mulVal f (dyadic 2 0)).1 else f
      let e := if odd then e - 1 else e
      let y := entry tableS (tableIndex f 16)
      let y := rsqrtStep f (rsqrtStep f y)
      (round32 (scaleVal2 y (-(e / 2))), 0#5)

/-- A value with the sign of another. -/
def withSign (neg : Bool) (v : Val) : Val := if neg then negVal v else v

/-- R98, vtanh. -/
def vtanh32 (x : Val) : Val × BitVec 5 :=
  let a := absVal x
  if x.isNan then (.nan, 0#5)
  else if ltVal a (dyadic 1 12) then (x, 0#5)
  else if !ltVal a (dyadic 9 0) then (withSign x.neg one32, 0#5)
  else if ltVal a (dyadic 1 3) then
    let t := fmul32 x x
    let p := fma32 constH7 t constH5
    let p := fma32 p t constH3
    let p := fmul32 p t
    (fma32 p x x, 0#5)
  else
    let (e, f1) := vexp32 (fadd32 a a)
    let (q, f2) := vrcp32 (fadd32 e one32)
    (withSign x.neg (fma32 (dyadic (-2) 0) q one32), f1 ||| f2)

/-- R98, vsilu. -/
def vsilu32 (x : Val) : Val × BitVec 5 :=
  match x with
  | .nan => (.nan, 0#5)
  | .inf s => (if s then .fin true (.rat 0 1) else .inf false, 0#5)
  | _ =>
    let (e, f1) := vexp32 (negVal x)
    let (q, f2) := vrcp32 (fadd32 one32 e)
    (fmul32 x q, f1 ||| f2)

/-- R98, vgelu. -/
def vgelu32 (x : Val) : Val × BitVec 5 :=
  match x with
  | .nan => (.nan, 0#5)
  | .inf s => (if s then .fin true (.rat 0 1) else .inf false, 0#5)
  | _ =>
    let t := fmul32 x x
    let v := fmul32 x (fma32 t constG3 constG1)
    let (e, f1) := vexp32 (fmul32 v (dyadic (-2) 0))
    let (q, f2) := vrcp32 (fadd32 one32 e)
    (fmul32 x q, f1 ||| f2)

/-- A special function of the vector unit by its cmd (R93, R208): the input goes to FP32 with nearest-even, the
function runs in FP32. -/
def specialFn (cmd : Nat) (x : Val) : Val × BitVec 5 :=
  let v := round32 x
  match cmd with
  | 0x20 => vexp32 v
  | 0x21 => vlog32 v
  | 0x22 => vrcp32 v
  | 0x23 => vrsqrt32 v
  | 0x24 => vtanh32 v
  | 0x25 => vsilu32 v
  | _ => vgelu32 v

/-! FP4 blocks (R82). -/

/-- The largest magnitude of a list of values; an infinity is larger than every number. -/
def largestAbs : List Val → Val
  | [] => .fin false (.rat 0 1)
  | v :: vs => let m := largestAbs vs; if ltVal m (absVal v) then absVal v else m

/-- A magnitude times a / b. -/
def Mag.times (a b : Nat) : Mag → Mag
  | .rat n d => .rat (n * a) (d * b)
  | .root n d => .root (n * (a * a)) (d * (b * b))

/-- The code of the smallest E5M7 value at or above a magnitude that is not 0 (R77), limited to 0x001 to 0xFFE. -/
def scaleCodeAbove (x : Mag) : Nat :=
  let e := x.log
  if e < -15 then 1
  else if 16 < e then 0xFFE
  else
    -- units of 2^(e - 7), rounded up
    let g := pow2 (e - 7)
    let f := x.floorAt (e - 7)
    let m := if x.is (f * g.1) g.2 then f else f + 1
    let c := ((e + 15).toNat * 128 + (m - 128))
    if c = 0 then 1 else if 0xFFE < c then 0xFFE else c

/-- A value over a positive rational, exact for the square roots that vsqrt gives too. -/
def overScale (v : Val) (k : Nat) : Val :=
  match v, scaleVal k with
  | .fin s m, .fin _ (.rat n d) => .fin s (m.times d n)
  | w, _ => w

/-- The scale code of a block of values that holds no NaN (R82). -/
def blockScale (vs : List Val) : Nat :=
  match largestAbs vs with
  | .fin _ m => if m.isZero then 0 else scaleCodeAbove (m.times 1 6)
  | _ => 0xFFE

/-- Elements of a block rounded under its scale, each with its own draw (R82). -/
def blockCodes (mode : BitVec 3) (k : Nat) : List (Val × BitVec 32) → List Nat × BitVec 5
  | [] => ([], 0#5)
  | (v, u) :: vs =>
    let x := roundTo .fp4 ⟨mode, u⟩ (overScale v k)
    let r := blockCodes mode k vs
    (x.1 :: r.1, x.2 ||| r.2)

/-- Conversion of 8 values to an FP4 block (R82): the scale code, the 8 codes, the flags. -/
def fp4Block (mode : BitVec 3) (vs : List (Val × BitVec 32)) : Nat × List Nat × BitVec 5 :=
  if vs.any (·.1.isNan) then (0xFFF, vs.map fun _ => 0, flagNV)
  else
    let k := blockScale (vs.map (·.1))
    if k = 0 then (0, vs.map fun _ => 0, 0#5)
    else
      let r := blockCodes mode k vs
      (k, r.1, r.2)

end Sys2Proof.Machine
end

