-- ==== Sys2Proof/Machine/Vector.lean ====
section
/-! DEFINITION. The vector unit (09 R199 to R220): commands, shape records, the checks of a start, beats, completion.
The unit's steps are events: VECTOR_OP_START, VECTOR_BEAT, VECTOR_OP_COMPLETE. Which of the operations that are ready
acts is open (R207, R219). -/

namespace Sys2Proof.Machine

/-! Shape records (R202), as 256-bit numbers. -/

def recPtr (r : Nat) : Word := BitVec.ofNat 64 r
def recExtent (r i : Nat) : Nat := r / 2 ^ (64 + 16 * i) % 2 ^ 16
def recStride (r i : Nat) : Int := signedBits 24 (r / 2 ^ (128 + 24 * i))
def recRnd (r : Nat) : Nat := r / 2 ^ 224 % 256
def recFlags (r : Nat) : Nat := r / 2 ^ 232 % 2 ^ 24
def recCtype (r : Nat) : Nat := recFlags r % 64
def recIrq (r : Nat) : Bool := recFlags r / 64 % 2 == 1
def recCode (r : Nat) : Nat := bitsAt (recPtr r) 58 6
def isChannel (r : Nat) : Bool := recCode r == 0x3F
def recChannel (r : Nat) : Nat := bitsAt (recPtr r) 0 3

/-- The element type (R202): a format code of R100. -/
def recType (r : Nat) : Nat := if isChannel r then recCtype r else recCode r

/-- Bits of an element, by format code. -/
def formatBits (f : Nat) : Nat :=
  match f with
  | 1 => 4 | 4 => 16 | 5 => 32 | 6 => 64 | 8 => 4 | _ => 8

def recElements (r : Nat) : Nat := recExtent r 0 * recExtent r 1 * recExtent r 2 * recExtent r 3

/-- The coordinates of element number N (R202). -/
structure Coords where
  i0 : Nat
  i1 : Nat
  i2 : Nat
  i3 : Nat
  deriving DecidableEq, Repr

def coordsOf (r n : Nat) : Coords :=
  let e0 := recExtent r 0
  let e1 := recExtent r 1
  let e2 := recExtent r 2
  ⟨n % e0, n / e0 % e1, n / (e0 * e1) % e2, n / (e0 * e1 * e2)⟩

/-- Byte distance from PTR to the element's byte, or to its super-block (R202). -/
def elementBytes (r : Nat) (c : Coords) : Int :=
  let outer := c.i1 * recStride r 1 + c.i2 * recStride r 2 + c.i3 * recStride r 3
  match recCode r with
  | 1 => 48 * ((c.i0 / 64 : Nat) + outer)
  | 8 => (c.i0 * recStride r 0 + outer) / 2
  | f => (formatBits f / 8 : Nat) * (c.i0 * recStride r 0 + outer)

/-- Which half of its byte an INT4 element takes (R79). -/
def upperHalf (r : Nat) (c : Coords) : Bool :=
  (c.i0 * recStride r 0 + c.i1 * recStride r 1 + c.i2 * recStride r 2 + c.i3 * recStride r 3) % 2 == 1

/-- The cell of a record's buffer that lies a byte distance from PTR. -/
def recCell (core r : Nat) (dist : Int) : Nat :=
  bufferCell core (bitsAt (recPtr r) 20 2) ((bitsAt (recPtr r) 0 20 : Int) + dist).toNat

/-! Elements (R79 to R81, R206). An element's code is its bit pattern; for FP4 it is 16 × its scale code + its data
code. -/

/-- The scale code of block j of a super-block at a cell. -/
def scaleAt (m : List Host.Cell) (cell j : Nat) : Nat := readBytes m (cell + 32) 12 / 2 ^ (12 * j) % 2 ^ 12

/-- Half a byte. -/
def nibbleAt (m : List Host.Cell) (cell : Nat) (upper : Bool) : Nat :=
  if upper then (readByte m cell).toNat / 16 else (readByte m cell).toNat % 16

def writeNibble (m : List Host.Cell) (cell : Nat) (upper : Bool) (v : Nat) : List Host.Cell :=
  let b := (readByte m cell).toNat
  writeByte m cell (BitVec.ofNat 8 (if upper then b % 16 + 16 * v else b / 16 * 16 + v))

def readElement (m : List Host.Cell) (core r : Nat) (c : Coords) : Nat :=
  let cell := recCell core r (elementBytes r c)
  match recCode r with
  | 1 => 16 * scaleAt m cell (c.i0 % 64 / 8) + nibbleAt m (cell + c.i0 % 64 / 2) (c.i0 % 2 == 1)
  | 8 => nibbleAt m cell (upperHalf r c)
  | f => readBytes m cell (formatBits f / 8)

/-- Write an element that is not FP4. -/
def writeElement (m : List Host.Cell) (core r : Nat) (c : Coords) (code : Nat) : List Host.Cell :=
  let cell := recCell core r (elementBytes r c)
  match recCode r with
  | 8 => writeNibble m cell (upperHalf r c) code
  | f => writeBytes m cell (formatBits f / 8) code

/-- The float format of a code of R100. -/
def floatFormat (f : Nat) : Option Fmt :=
  match f with
  | 1 => some .fp4 | 2 => some .e4m3 | 3 => some .e5m2 | 4 => some .bf16 | 5 => some .fp32 | 6 => some .fp64 | _ => none

/-- The exact value of an element (R206). -/
def elementValue (f code : Nat) : Val :=
  match f with
  | 1 => if code / 16 = 0 then .fin false (.rat 0 1) else (mulVal (Fmt.fp4.value (code % 16)) (scaleVal (code / 16))).1
  | 7 => intVal (signedBits 8 code)
  | 8 => intVal (signedBits 4 code)
  | f => ((floatFormat f).getD .fp64).value code

/-- A value rounded to an element type that is not FP4 (R84, R85). -/
def roundElement (f : Nat) (r : Rounding) (v : Val) : Nat × BitVec 5 :=
  match f with
  | 7 => let x := roundInt (-128) 127 r v; (((x.1 % 256).toNat), x.2)
  | 8 => let x := roundInt (-8) 7 r v; (((x.1 % 16).toNat), x.2)
  | f => roundTo ((floatFormat f).getD .fp64) r v

/-! The operations (R208 to R212). -/

def cmdVcmpm : Nat := 0x100
def isReduction (cmd : Nat) : Bool := 0x18 ≤ cmd && cmd ≤ 0x1B
def isSpecial (cmd : Nat) : Bool := 0x20 ≤ cmd && cmd ≤ 0x26
def isBitwise (cmd : Nat) : Bool := 0x10 ≤ cmd && cmd ≤ 0x14

/-- The operation uses record y. -/
def usesY (cmd : Nat) : Bool := (1 ≤ cmd && cmd ≤ 7) || isBitwise cmd || cmd == cmdVcmpm
def usesD (cmd : Nat) : Bool := cmd != cmdVcmpm

/-- The exact result of an element-wise operation, and the flags of its special cases (R209, R212): r is the
destination's rounding, which decides the sign of an exact zero sum. -/
def opValue (cmd : Nat) (r : Rounding) (x y d : Val) : Val × BitVec 5 :=
  match cmd with
  | 0x01 => addVal r x y
  | 0x02 => addVal r x (negVal y)
  | 0x03 => mulVal x y
  | 0x04 => divVal x y
  | 0x05 => (minVal x y, 0#5)
  | 0x06 => (maxVal x y, 0#5)
  | 0x07 => fmaVal r x y d
  | 0x08 => (absVal x, 0#5)
  | 0x09 => (negVal x, 0#5)
  | 0x0A => sqrtVal x
  | 0x0B => (x, 0#5)
  | c => specialFn c x

/-- The bit operations on patterns of w bits (R210): y's shift amount is the residue of its integer value modulo w. -/
def bitValue (cmd w x y : Nat) (yval : Int) : Nat :=
  let n := (yval % w).toNat
  match cmd with
  | 0x10 => Nat.land x y
  | 0x11 => Nat.lor x y
  | 0x12 => Nat.xor x y
  | 0x13 => x * 2 ^ n % 2 ^ w
  | _ => (signedBits w x / 2 ^ n % 2 ^ w).toNat

/-- The integer value of an INT8 or INT4 code. -/
def intCode (f code : Nat) : Int := signedBits (formatBits f) code

/-- One step of a reduction (R211): the accumulator's code in W, whether an element was taken before. -/
def reduceStep (cmd : Nat) (w : Fmt) (acc : Nat) (first : Bool) (x : Val) : Nat × BitVec 5 :=
  let sq := if cmd = 0x1B then mulVal x x else (x, 0#5)
  let v := sq.1
  let total :=
    if first then (v, 0#5)
    else if cmd = 0x18 ∨ cmd = 0x1B then addVal nearest (w.value acc) v
    else if cmd = 0x19 then (maxVal (w.value acc) v, 0#5)
    else (minVal (w.value acc) v, 0#5)
  let r := roundTo w nearest total.1
  (r.1, sq.2 ||| total.2 ||| r.2)

/-- The comparison of vcmpm (R213). -/
def vcmpmTest (cond : Nat) (u v : Val) : Bool :=
  match cond with
  | 0 => eqVal u v
  | 1 => ltVal u v
  | 2 => ltVal u v || eqVal u v
  | 3 => u.isNan || v.isNan
  | _ => !eqVal u v

/-! The checks of a start (R203): the code of the first failure, 0 for none. -/

def tagFails (r : Nat) : Bool :=
  let p := recPtr r
  let f := recCode r
  f == 0 || (8 < f && f != 0x3F) || bitsAt p 52 3 != 0 || formatLog f != some (bitsAt p 55 3)

/-- The distances of the first and last byte of a record's elements: every dimension's extremes. -/
def reachLow (r : Nat) : Nat → Int
  | 0 => 0
  | i + 1 => reachLow r i + (if recStride r i < 0 then (((recExtent r i : Nat) : Int) - 1) * recStride r i else 0)

def reachHigh (r : Nat) : Nat → Int
  | 0 => 0
  | i + 1 => reachHigh r i + (if 0 < recStride r i then (((recExtent r i : Nat) : Int) - 1) * recStride r i else 0)

/-- The first and the last byte of the elements of a record that has some, from PTR on. -/
def recSpan (r : Nat) : Int × Int :=
  let outLow := reachLow r 4 - reachLow r 1
  let outHigh := reachHigh r 4 - reachHigh r 1
  match recCode r with
  | 1 => (48 * outLow, 48 * (((recExtent r 0 - 1) / 64 : Nat) + outHigh) + 47)
  | 8 => (reachLow r 4 / 2, reachHigh r 4 / 2)
  | f => let n := formatBits f / 8; (n * reachLow r 4, n * reachHigh r 4 + n - 1)

/-- The SPACE rule, with PERM at its place: 0, 2 or 10. -/
def spaceCode (core r : Nat) : Nat :=
  let p := recPtr r
  let b := bitsAt p 20 2
  if isChannel r then 0
  else if bitsAt p 22 30 ≠ 0 ∨ b = 3 then 2
  else if b = 0 then 10
  else if recElements r = 0 then 0
  else
    let off : Int := bitsAt p 0 20
    let span := recSpan r
    if off + span.1 < 0 ∨ (bufferSize core b : Int) ≤ off + span.2 then 2 else 0

def isNumeric (r : Nat) : Bool :=
  let f := recType r
  (1 ≤ f && f ≤ 8) && !(isChannel r && f == 1)

def isIntType (r : Nat) : Bool := isNumeric r && (recType r == 7 || recType r == 8)

/-- The TYPE rule of R208 and R213 for one record. -/
def typeFails (cmd d r : Nat) (isD isY : Bool) : Bool :=
  if isBitwise cmd then
    if isY && 0x13 ≤ cmd then !isIntType r else !(isIntType r && recType r == recType d)
  else if isReduction cmd then !isNumeric r || recType r == 1
  else !isNumeric r || (cmd == 7 && isD && isChannel r)

/-- The extents that a source must have: for a reduction, E0 of x is free and the destination's is 1. -/
def extentsFail (cmd d x r : Nat) (isD isY : Bool) : Bool :=
  let like := fun (q : Nat) (i : Nat) => recExtent r i == recExtent q i
  if isD then isReduction cmd && recExtent r 0 != 1
  else if cmd = cmdVcmpm then isY && !(like x 0 && like x 1 && like x 2 && like x 3)
  else (!isReduction cmd && !like d 0) || !(like d 1 && like d 2 && like d 3)

def shapeFails (cmd d x r : Nat) (isD isY : Bool) : Bool :=
  extentsFail cmd d x r isD isY ||
    (!isChannel r && recCode r == 1 && (recStride r 0 != 1 || recExtent r 0 % 64 != 0)) ||
    recFlags r / 128 != 0 || (!isChannel r && recCtype r != 0) || (!isD && recIrq r)

/-- The CHAN rule: the channel is configured for the direction, and belongs to the thread's context: another's cannot be reached
(R367), for which R203 names no code either (log 39, DESIGN CHOICE). A channel
pointer with PTR[51:3] not 0 fails with this code (log 37, DESIGN CHOICE: R207 wants the bits 0, and R203 names no code for
it). -/
def chanFails (s : State) (core : Nat) (asid : BitVec 16) (r : Nat) (isD : Bool) : Bool :=
  let w := qcfgOf (s.core core) (8 + recChannel r)
  isChannel r && (bitsAt (recPtr r) 3 49 != 0 || qKind w != (if isD then 4 else 5) || qAsid w != asid)

def roundFails (r : Nat) (isD : Bool) : Bool := if isD then decide (4 < recRnd r) else recRnd r != 0

def alignFails (r : Nat) : Bool :=
  let p := addrOf (recPtr r)
  !isChannel r && (match recCode r with
    | 1 => p % 16 != 0
    | f => p % (max 1 (formatBits f / 8)) != 0)

/-- A record that an operation uses, with its place. -/
structure UsedRec where
  r : Nat
  isD : Bool
  isY : Bool

/-- The first nonzero answer of a check over the records. -/
def firstCode (f : UsedRec → Nat) : List UsedRec → Nat
  | [] => 0
  | r :: rs => if f r = 0 then firstCode f rs else f r

/-- The first nonzero number of a list. -/
def firstNonzero : List Nat → Nat
  | [] => 0
  | n :: ns => if n = 0 then firstNonzero ns else n

def flagCode (code : Nat) (b : Bool) : Nat := if b then code else 0

/-- The records that a started operation uses, in the order destination, x, y. -/
def usedRecs (o : VecOp) : List UsedRec :=
  (if usesD o.cmd then [⟨o.recD, true, false⟩] else []) ++ [⟨o.recX, false, false⟩] ++
    (if usesY o.cmd then [⟨o.recY, false, true⟩] else [])

/-- R203: the rules in the table's order, each over the records in their order. -/
def startCode (s : State) (core : Nat) (o : VecOp) : Nat :=
  let rs := usedRecs o
  let asid := (s.thr o.key).asid
  firstNonzero [
    firstCode (fun u => flagCode 1 (tagFails u.r)) rs,
    firstCode (fun u => spaceCode core u.r) rs,
    firstCode (fun u => flagCode 3 (typeFails o.cmd o.recD u.r u.isD u.isY)) rs,
    firstCode (fun u => flagCode 4 (shapeFails o.cmd o.recD o.recX u.r u.isD u.isY)) rs,
    firstCode (fun u => flagCode 5 (u.isD && (recType u.r == 1 || isChannel u.r) && o.mask != ~~~0#64)) rs,
    firstCode (fun u => flagCode 6 (chanFails s core asid u.r u.isD)) rs,
    firstCode (fun u => flagCode 7 (roundFails u.r u.isD)) rs,
    flagCode 8 (o.cmd == cmdVcmpm && decide (5 ≤ bitsAt o.mask 0 4)),
    firstCode (fun u => flagCode 9 (alignFails u.r)) rs]

/-! Commands (R199, R200, R213). -/

/-- The operand block pointer's checks (R199): the TVAL of the trap, if any. -/
def blockTrap (a : Word) : Option Word :=
  if !tagOk a then some a
  else if bitsAt a 22 30 ≠ 0 ∨ bitsAt a 20 2 ≠ 1 ∨ bitsAt a 0 20 % 32 ≠ 0 ∨ 2 ^ 19 < bitsAt a 0 20 + 96 then
    some (BitVec.ofNat 64 (addrOf a))
  else none

/-- An operation as it enters the queue. -/
def queuedVecOp (s : State) (k cmd : Nat) (a b : Word) (n : BitVec 32) (wid : Option Nat) (fork : List Nat) : VecOp :=
  { id := s.nonce, key := k, block := bitsAt a 0 20, mask := b, n := n, seed := (s.core (coreOf k)).rseed, cmd := cmd, wid := wid, fork := fork,
    started := false, recD := 0, recX := 0, recY := 0, next := 0, half := false, acc := 0, first := true, flags := 0#5,
    err := 0, done := false, out := [], inX := [], inY := [], m := 0#64, parked := false }

/-- A vector command of thread k with operands a and b and counter value n. -/
def vectorCommand (s : State) (k cmd : Nat) (a b : Word) (n : BitVec 32) (wid : Option Nat) (fork : List Nat)
    (seed : Word) : CmdResult :=
  match blockTrap a with
  | some v => .trap kindADDRESS 0 v
  | none =>
    let core := coreOf k
    let c := s.core core
    if !admits c 5 1 then .wait
    else .taken ((s.setCore core { c with
      vecQueue := c.vecQueue ++ [{ queuedVecOp s k cmd a b n wid fork with seed := seed }] }).later (.vectorOpStart core)).tick

/-- A vop issued by the thread whose opportunity it is (R199, R200). -/
def vop (i : Instr) (cmd : Nat) (a b : Reg) (s : State) : Out :=
  issue i s fun s =>
    finishCounted s (vectorCommand s s.cur cmd (readReg s s.cur a) (readReg s s.cur b) (s.thr s.cur).seq none
      (forkOf s s.cur) (s.core (coreOf s.cur)).rseed)

/-! Steps of the unit. -/

/-- The core's operation with a number. -/
def findOp (s : State) (core id : Nat) : Option VecOp := findFirst (fun o => o.id == id) (s.core core).vecQueue

def setOp (s : State) (core : Nat) (o : VecOp) : State :=
  let c := s.core core
  s.setCore core { c with vecQueue := c.vecQueue.map fun p => if p.id = o.id then o else p }

/-- VECTOR_OP_START (R201, R203): one of the queued operations whose fork has drained reads its records and is checked;
while none can start, the unit looks again. -/
def execVectorOpStart (core : Nat) (s : State) : Out :=
  let queued := (s.core core).vecQueue.filter fun o => !o.started && !opHalts s o.key
  if (s.core core).vecQueue.all VecOp.started then .next s
  else match chooseFrom s (queued.filter fun o => forkReady s o.key o.fork) with
    | none => .next (s.later (.vectorOpStart core))
    | some o => match engineBanks s core (banksOf core (bufferCell core 1 o.block) 96) with
    | none => .next (s.tick.later (.vectorOpStart core))
    | some s =>
      let base := bufferCell core 1 o.block
      let o := { o with
        started := true
        recD := if usesD o.cmd then readBytes s.mem base 32 else 0
        recX := readBytes s.mem (base + 32) 32
        recY := if usesY o.cmd then readBytes s.mem (base + 64) 32 else 0 }
      let err := startCode s core o
      let s := s.tick
      if err = 0 then .next ((setOp s core o).later (.vectorBeat core))
      else .next ((setOp s core { o with err := err, done := true }).later (.vectorOpComplete core o.id))

/-- The record over which the beats run (R205, R211, R213). -/
def beatRec (o : VecOp) : Nat := if isReduction o.cmd || o.cmd == cmdVcmpm then o.recX else o.recD

/-- The widest element of the records used, in bits, and with it P and the charge (R218). -/
def packingBits (o : VecOp) : Nat := ((usedRecs o).map fun u => formatBits (recType u.r)).foldl max 0

def packingP (bits : Nat) : Nat :=
  match bits with
  | 64 => 32 | 32 => 64 | 16 => 128 | 8 => 256 | _ => 512

def beatCharge (bits : Nat) : Nat :=
  match bits with
  | 64 => 16 | 32 => 8 | 16 => 6 | _ => 4

/-- Elements per channel entry of 64 bytes. -/
def perEntry (f : Nat) : Nat := 512 / formatBits f

/-- The elements that vcmpm compares, and the channel entries of a source beyond those that hold them: a record's count is
the product of its extents (R207, R213). -/
def compareSpan (o : VecOp) : Nat := min (recElements o.recX) 64

def extraEntries (o : VecOp) (r : Nat) : Nat :=
  let p := perEntry (recType r)
  if isChannel r then (recElements o.recX + p - 1) / p - (compareSpan o + p - 1) / p else 0

/-- The elements the next beat covers: from o.next on, within one row; vcmpm takes one beat. -/
def beatLength (o : VecOp) : Nat :=
  let r := beatRec o
  if o.cmd = cmdVcmpm then compareSpan o - o.next
  else min (packingP (packingBits o)) (recExtent r 0 - o.next % recExtent r 0)

/-- All elements have been covered. -/
def beatsOver (o : VecOp) : Bool :=
  if o.cmd = cmdVcmpm then decide (compareSpan o + extraEntries o o.recX + extraEntries o o.recY ≤ o.next)
  else decide (recElements (beatRec o) ≤ o.next) || recElements o.recD == 0

/-- The elements of a channel entry, and back (R207): packed as in memory, zero-padded. -/
def unpackEntry (f : Nat) (e : List Word) : List Nat :=
  let n := e.foldr (fun w acc => w.toNat + 2 ^ 64 * acc) 0
  (upTo (perEntry f)).map fun i => n / 2 ^ (formatBits f * i) % 2 ^ formatBits f

def packEntry (f : Nat) (codes : List Nat) : List Word :=
  let n := codes.foldr (fun c acc => c + 2 ^ formatBits f * acc) 0
  (upTo 8).map fun i => BitVec.ofNat 64 (n / 2 ^ (64 * i))

/-- What an operation would do next. -/
inductive VecAct where
  | takeBack
  | flush
  | takeX
  | takeY
  | dropX
  | dropY
  | beat
  | finished
  | idle
  deriving DecidableEq, Repr

/-- Entries waiting in a channel's receiving end; those of an ORPHAN queue stay (R368). -/
def channelHolds (s : State) (core r : Nat) : Bool :=
  listOf (s.core core) (8 + recChannel r) != [] && !(s.core core).qorphan.getLsbD (8 + recChannel r)

/-- The operation's context still has the queue of a channel record: another's queue cannot be reached (R367), and an operation whose
channel has gone to another context waits (log 39, DESIGN CHOICE). -/
def channelOwn (s : State) (core : Nat) (o : VecOp) (r : Nat) : Bool :=
  !isChannel r || qAsid (qcfgOf (s.core core) (8 + recChannel r)) == (s.thr o.key).asid

def channelsOwn (s : State) (core : Nat) (o : VecOp) : Bool := (usedRecs o).all fun u => channelOwn s core o u.r

/-- Elements of the entry in hand of a source channel that an operation has used (R207): vcmpm has none in hand once it has
compared. -/
def usedOfEntry (o : VecOp) (r : Nat) : Nat :=
  if !isChannel r || (o.cmd == cmdVcmpm && decide (compareSpan o ≤ o.next)) then 0 else o.next % perEntry (recType r)

/-- The results that an operation has in the entry that it fills. -/
def begunEntry (o : VecOp) : Nat :=
  if !isChannel o.recD || !usesD o.cmd then 0
  else (if isReduction o.cmd then o.next / max 1 (recExtent o.recX 0) else o.next) % perEntry (recType o.recD)

/-- The entries that an operation put away can be taken back (R223): those of an ORPHAN queue stay (R368). -/
def entriesBack (s : State) (core : Nat) (o : VecOp) : Bool :=
  let free := fun (r : Nat) => !(s.core core).qorphan.getLsbD (8 + recChannel r)
  (usedOfEntry o o.recX == 0 || channelHolds s core o.recX) &&
    (!usesY o.cmd || usedOfEntry o o.recY == 0 || channelHolds s core o.recY) && (begunEntry o == 0 || free o.recD)

/-- The next act of a started operation, idle while a channel holds it back (R207). -/
def nextAct (s : State) (core : Nat) (o : VecOp) : VecAct :=
  let finished := beatsOver o
  let outFull := isChannel o.recD && (decide (perEntry (recType o.recD) ≤ o.out.length) || (finished && o.out != []))
  if !channelsOwn s core o then .idle
  else if o.away then (if entriesBack s core o then .takeBack else .idle)
  else if outFull then (if admits (s.core core) (8 + recChannel o.recD) 1 then .flush else .idle)
  else if finished then .finished
  else if o.cmd = cmdVcmpm ∧ compareSpan o ≤ o.next then
    (if o.next < compareSpan o + extraEntries o o.recX then (if channelHolds s core o.recX then .dropX else .idle)
     else if channelHolds s core o.recY then .dropY else .idle)
  else if isChannel o.recX && decide (o.inX.length < beatLength o) then
    (if channelHolds s core o.recX then .takeX else .idle)
  else if usesY o.cmd && isChannel o.recY && decide (o.inY.length < beatLength o) then
    (if channelHolds s core o.recY then .takeY else .idle)
  else .beat

/-- The code of the j-th element of a beat in a source record. -/
def sourceCode (s : State) (core : Nat) (o : VecOp) (r : Nat) (taken : List Nat) (j : Nat) : Nat :=
  if isChannel r then taken.getD j 0 else readElement s.mem core r (coordsOf (beatRec o) (o.next + j))

/-- Whether the lane of element number n is selected (R202, R206). -/
def laneOn (o : VecOp) (n : Nat) : Bool := o.mask.getLsbD ((coordsOf (beatRec o) n).i0 % 64)

/-- The destination's rounding of element number n (R200). -/
def destRounding (s : State) (o : VecOp) (n : Nat) : Rounding :=
  let mode := BitVec.ofNat 3 (recRnd o.recD)
  ⟨mode, if mode = 4#3 then drawAt s o.key o.seed o.n n else 0#32⟩

/-- The exact result of element j of an element-wise beat. -/
def exactResult (s : State) (core : Nat) (o : VecOp) (j : Nat) : Val × BitVec 5 :=
  let x := elementValue (recType o.recX) (sourceCode s core o o.recX o.inX j)
  let y := if usesY o.cmd then elementValue (recType o.recY) (sourceCode s core o o.recY o.inY j) else .nan
  let d := if o.cmd = 7 then elementValue (recType o.recD) (sourceCode s core o o.recD [] j) else .nan
  opValue o.cmd (destRounding s o (o.next + j)) x y d

/-- The code that element j of an element-wise beat writes, not FP4, and its flags. -/
def elementResult (s : State) (core : Nat) (o : VecOp) (j : Nat) : Nat × BitVec 5 :=
  if isBitwise o.cmd then
    let y := sourceCode s core o o.recY o.inY j
    (bitValue o.cmd (formatBits (recType o.recD)) (sourceCode s core o o.recX o.inX j) y
      (intCode (recType o.recY) y), 0#5)
  else
    let v := exactResult s core o j
    let r := roundElement (recType o.recD) (destRounding s o (o.next + j)) v.1
    (r.1, v.2 ||| r.2)

/-- Write the results of a list of elements, in ascending N. -/
def writeResults (core : Nat) (o : VecOp) (m : List Host.Cell) : List (Nat × Nat) → List Host.Cell
  | [] => m
  | (j, code) :: l => writeResults core o (writeElement m core o.recD (coordsOf (beatRec o) (o.next + j)) code) l

/-- Write one FP4 block of 8 elements that begins at element j of the beat (R82, R206). -/
def writeBlock (core : Nat) (o : VecOp) (m : List Host.Cell) (j k : Nat) (codes : List Nat) : List Host.Cell :=
  let c := coordsOf (beatRec o) (o.next + j)
  let cell := recCell core o.recD (elementBytes o.recD c)
  let b := c.i0 % 64 / 8
  let field := readBytes m (cell + 32) 12
  let field' := field - scaleAt m cell b * 2 ^ (12 * b) + k * 2 ^ (12 * b)
  let data := codes.foldr (fun c acc => c + 16 * acc) 0
  writeBytes (writeBytes (writeBytes m (cell + 4 * b) 4 data) (cell + 32) 12 field') (cell + 44) 4 0

/-- The blocks of an FP4 beat, as they are written one after the other from results formed before. -/
def writeBlocks (core : Nat) (o : VecOp) (m : List Host.Cell) : List (Nat × Nat × List Nat × BitVec 5) →
    List Host.Cell × BitVec 5
  | [] => (m, 0#5)
  | (j, k, codes, f) :: l =>
    let x := writeBlocks core o (writeBlock core o m j k codes) l
    (x.1, f ||| x.2)

/-- An FP4 block of results: elements j to j + 7 of the beat. -/
def blockResult (s : State) (core : Nat) (o : VecOp) (j : Nat) : Nat × Nat × List Nat × BitVec 5 :=
  let vs := (upTo 8).map fun i => (exactResult s core o (j + i), (destRounding s o (o.next + j + i)).u)
  let r := fp4Block (BitVec.ofNat 3 (recRnd o.recD)) (vs.map fun x => (x.1.1, x.2))
  (j, r.1, r.2.1, vs.foldl (fun f x => f ||| x.1.2) r.2.2)

/-- The operation after a beat of n elements. -/
def VecOp.advanced (o : VecOp) (n : Nat) (flags : BitVec 5) : VecOp :=
  { o with next := o.next + n, half := false, flags := o.flags ||| flags, inX := o.inX.drop n, inY := o.inY.drop n }

/-- A beat of an element-wise operation: every source is read before a destination is written (R205). -/
def elementBeat (s : State) (core : Nat) (o : VecOp) : State :=
  let n := beatLength o
  if recType o.recD = 1 then
    let w := writeBlocks core o s.mem ((upTo (n / 8)).map fun b => blockResult s core o (8 * b))
    setOp { s with mem := w.1 } core (o.advanced n w.2)
  else
    let rs := ((upTo n).filter fun j => laneOn o (o.next + j)).map fun j => (j, elementResult s core o j)
    let flags := rs.foldl (fun f x => f ||| x.2.2) 0#5
    if isChannel o.recD then setOp s core { o.advanced n flags with out := o.out ++ rs.map (·.2.1) }
    else setOp { s with mem := writeResults core o s.mem (rs.map fun x => (x.1, x.2.1)) } core (o.advanced n flags)

/-- W of R211. -/
def reduceFormat (o : VecOp) : Fmt := if recType o.recX = 6 ∨ recType o.recD = 6 then .fp64 else .fp32

/-- A reduction over the values of a list: accumulator, first, flags. -/
def reduceList (cmd : Nat) (w : Fmt) : List Val → Nat × Bool × BitVec 5 → Nat × Bool × BitVec 5
  | [], st => st
  | v :: vs, st =>
    let r := reduceStep cmd w st.1 st.2.1 v
    reduceList cmd w vs (r.1, false, st.2.2 ||| r.2)

/-- A beat of a reduction (R211): the row's last beat writes the destination element. -/
def reduceBeat (s : State) (core : Nat) (o : VecOp) : State :=
  let n := beatLength o
  let w := reduceFormat o
  let vs := ((upTo n).filter fun j => laneOn o (o.next + j)).map fun j =>
    elementValue (recType o.recX) (sourceCode s core o o.recX o.inX j)
  let st := reduceList o.cmd w vs (o.acc, o.first, 0#5)
  if (o.next + n) % recExtent o.recX 0 ≠ 0 then
    setOp s core { o.advanced n st.2.2 with acc := st.1, first := st.2.1 }
  else
    let o' := { o.advanced n st.2.2 with acc := 0, first := true }
    if st.2.1 then setOp s core o'
    else
      let row := o.next / recExtent o.recX 0
      let r := roundElement (recType o.recD) (destRounding s o row) (w.value st.1)
      let o' := { o' with flags := o'.flags ||| r.2 }
      if isChannel o.recD then setOp s core { o' with out := o.out ++ [r.1] }
      else setOp { s with mem := writeElement s.mem core o.recD (coordsOf o.recD row) r.1 } core o'

/-- The one beat of vcmpm (R213); what its last entries hold beyond is discarded (R207). -/
def compareBeat (s : State) (core : Nat) (o : VecOp) : State :=
  let n := beatLength o
  let bits := (upTo n).map fun j =>
    if vcmpmTest (bitsAt o.mask 0 4) (elementValue (recType o.recX) (sourceCode s core o o.recX o.inX j))
      (elementValue (recType o.recY) (sourceCode s core o o.recY o.inY j)) then 2 ^ j else 0
  setOp s core { o.advanced n 0#5 with m := BitVec.ofNat 64 bits.sum, inX := [], inY := [] }

/-- A beat that has been charged. -/
def runBeat (s : State) (core : Nat) (o : VecOp) : State :=
  if o.cmd = cmdVcmpm then compareBeat s core o
  else if isReduction o.cmd then reduceBeat s core o
  else if isSpecial o.cmd && !o.half then setOp s core { o with half := true }
  else elementBeat s core o

/-- The charge of a beat against its slot's share (R218, R219): over the share, the beat is held and the slot is
exhausted until the refill. -/
def chargedBeat (s : State) (core : Nat) (o : VecOp) : State :=
  let c := s.core core
  let slot := slotOf o.key
  let cost := beatCharge (packingBits o)
  let left := c.eleft.getD slot 0
  if left < cost then s.setCore core { c with exhausted := c.exhausted ||| (1#8 <<< slot) }
  else runBeat (s.setCore core { c with eleft := c.eleft.setIfInBounds slot (left - cost) }) core o

/-- The A-buffer banks of a beat (R134): of each element of each record that lies there. -/
def beatBanks (core : Nat) (o : VecOp) : BitVec 16 :=
  let n := beatLength o
  (usedRecs o).foldl (fun m u =>
    if isChannel u.r then m
    else (upTo n).foldl (fun m j =>
      let c := coordsOf (if isReduction o.cmd && u.isD then o.recD else beatRec o)
        (if isReduction o.cmd && u.isD then o.next / max 1 (recExtent o.recX 0) else o.next + j)
      m ||| banksOf core (recCell core u.r (elementBytes u.r c)) (if recCode u.r = 1 then 48 else max 1 (formatBits (recCode u.r) / 8))) m)
    0#16

/-- The unit starts at most one beat per ck (R218), and a beat takes its banks (R134). -/
def startBeat (s : State) (core : Nat) (o : VecOp) : State :=
  let c := s.core core
  if c.beatCk = s.ck + 1 then s
  else match engineBanks s core (beatBanks core o) with
    | none => s
    | some s => chargedBeat (s.setCore core { s.core core with beatCk := s.ck + 1 }) core o

/-- The first entry of a receiving channel. -/
def takeEntry (s : State) (core r : Nat) : State × List Nat :=
  let q := 8 + recChannel r
  match listOf (s.core core) q with
  | [] => (s, [])
  | e :: es => (s.setCore core (setList (s.core core) q es), unpackEntry (recType r) e)

/-- The codes of the first entry of a receiving channel that a stopped operation has not used go first (R223). -/
def resumeSource (s : State) (core : Nat) (o : VecOp) (r : Nat) : State × List Nat :=
  if usedOfEntry o r = 0 then (s, [])
  else let x := takeEntry s core r; (x.1, x.2.drop (usedOfEntry o r))

/-- The open entry of a sending channel comes back to the operation that fills it (R223). -/
def resumeDest (s : State) (core : Nat) (o : VecOp) : State × List Nat :=
  let q := 8 + recChannel o.recD
  let c := s.core core
  match (listOf c q).getLast? with
  | none => (s, [])
  | some e =>
    if begunEntry o = 0 || !c.chanOpen.getLsbD q then (s, [])
    else
      let c := setList c q ((listOf c q).take ((listOf c q).length - 1))
      (s.setCore core { c with chanOpen := c.chanOpen &&& ~~~(1#16 <<< q) }, (unpackEntry (recType o.recD) e).take (begunEntry o))

/-- A stopped operation takes its entries back (R223). -/
def takeBack (s : State) (core : Nat) (o : VecOp) : State × VecOp :=
  let x := resumeSource s core o o.recX
  let y := if usesY o.cmd then resumeSource x.1 core o o.recY else (x.1, [])
  let d := resumeDest y.1 core o
  (d.1, { o with inX := x.2, inY := y.2, out := d.2, parked := false })

/-- One act of a started operation. -/
def vectorAct (s : State) (core : Nat) (o : VecOp) : State :=
  match nextAct s core o with
  | .idle => s
  | .takeBack => let x := takeBack s core o; setOp x.1 core x.2
  | .finished => (setOp s core { o with done := true }).later (.vectorOpComplete core o.id)
  | .flush =>
    let q := 8 + recChannel o.recD
    let n := perEntry (recType o.recD)
    let c := s.core core
    setOp ((s.setCore core (setList c q (listOf c q ++ [packEntry (recType o.recD) (o.out.take n)]))).later
      (.channelEntryMove core (recChannel o.recD))) core { o with out := o.out.drop n }
  | .takeX => let x := takeEntry s core o.recX; setOp x.1 core { o with inX := o.inX ++ x.2 }
  | .takeY => let x := takeEntry s core o.recY; setOp x.1 core { o with inY := o.inY ++ x.2 }
  | .dropX => setOp (takeEntry s core o.recX).1 core { o with next := o.next + 1 }
  | .dropY => setOp (takeEntry s core o.recY).1 core { o with next := o.next + 1 }
  | .beat => startBeat s core o

/-! An operation that a save stops at a beat boundary (R223). -/

/-- Codes taken from a receiving channel and not used yet go back to the head of its queue: none where that does not admit
them (R364). -/
def returnEntries (r : Nat) (codes : List Nat) (core : Nat) (s : State) : Option State :=
  let f := recType r
  let n := perEntry f
  if !isChannel r || codes == [] then some s
  else
    let missing := (n - codes.length % n) % n
    let all := List.replicate missing 0 ++ codes
    let entries := (upTo (all.length / n)).map fun i => packEntry f ((all.drop (n * i)).take n)
    let q := 8 + recChannel r
    let c := s.core core
    if admits c q entries.length then some (s.setCore core (setList c q (entries ++ listOf c q))) else none

/-- The entry that a sending operation has begun becomes the last of its channel, and stays open: none where the channel
does not admit it, or another operation has left one open, or whole entries are still to go before it. -/
def parkEntry (o : VecOp) (core : Nat) (s : State) : Option State :=
  let q := 8 + recChannel o.recD
  let c := s.core core
  if !isChannel o.recD || o.out == [] then some s
  else if decide (perEntry (recType o.recD) ≤ o.out.length) || entryOpen c q || !admits c q 1 then none
  else
    let c := setList c q (listOf c q ++ [packEntry (recType o.recD) o.out])
    some (s.setCore core { c with chanOpen := c.chanOpen ||| (1#16 <<< q) })

/-- What a running operation leaves behind: its entries; and its flags so far, which R292's record has no place for, accrue
at the save (log 37, DESIGN CHOICE). -/
def parkOp (core : Nat) (s : State) (o : VecOp) : Option State :=
  if !o.started || o.parked || !channelsOwn s core o then some s
  else
    match (returnEntries o.recY o.inY core s).bind fun s => (returnEntries o.recX o.inX core s).bind (parkEntry o core) with
    | none => none
    | some s =>
      let t := s.thr o.key
      some (setOp (s.setThr o.key { t with vstatus := t.vstatus ||| o.flags.setWidth 64 }) core
        { o with inX := [], inY := [], out := [], flags := 0#5, parked := true })

/-- An operation of a residence that is saved stops at a beat boundary at which its entries can be put away. -/
def opStops (s : State) (core : Nat) (o : VecOp) : Bool := opHalts s o.key && (parkOp core s o).isSome

/-- VECTOR_BEAT (R205, R207, R219): one started operation that is ready acts; the unit goes on while there is one that
has not ended. -/
def execVectorBeat (core : Nat) (s : State) : Out :=
  let running := (s.core core).vecQueue.filter fun o => o.started && !o.done
  match chooseFrom s (running.filter fun o => !opStops s core o && nextAct s core o != .idle) with
  | none => if running = [] then .next s else .next (s.later (.vectorBeat core))
  | some o =>
    let s := vectorAct s.tick core o
    if (findOp s core o.id).any VecOp.done then .next s else .next (s.later (.vectorBeat core))

/-- VSTATUS after an operation (R215): the flags accrue, the first failure is kept. -/
def accrueVstatus (v : Word) (o : VecOp) : Word :=
  let v := v ||| o.flags.setWidth 64
  if o.err = 0 ∨ bitsAt v 8 4 ≠ 0 then v else v ||| BitVec.ofNat 64 (o.block * 2 ^ 12 + o.err * 2 ^ 8)

/-- The record for which R203 gives PERM: the first that names the W-buffer. -/
def permRecord (o : VecOp) : Nat :=
  ((findFirst (fun (u : UsedRec) => spaceCode 0 u.r == 10) (usedRecs o)).map fun u => u.r).getD 0

/-- VECTOR_OP_COMPLETE (R203, R214): a PERM failure enters the journal first, and waits for a free entry. -/
def execVectorOpComplete (core id : Nat) (s : State) : Out :=
  match findOp s core id with
  | none => .next s
  | some o =>
    let here := BitVec.ofNat 64 (0x100000 + o.block)
    let entry := if o.err = 10 then journalFree (s.core core) else some 64
    match entry with
    | none => .next (s.later (.vectorOpComplete core id))
    | some e =>
      let s := if o.err = 10 then
          recordEngine s core e (engineEntry s o.key 4#4 0#3 3#2 (formatBits (recCode (permRecord o)) / 8)
            (BitVec.ofNat 64 (addrOf (recPtr (permRecord o)))) here)
        else s
      let c := s.core core
      let s := s.setCore core { c with vecQueue := c.vecQueue.filter fun p => p.id != id }
      let s := s.setThr o.key { s.thr o.key with vstatus := accrueVstatus (s.thr o.key).vstatus o }
      let s := engineDone s o.key (usesD o.cmd && recIrq o.recD) here 0#3
      match o.wid with
      | some w => .next (arrive s o.key w (.one o.m))
      | none => .next s

/-! Instructions. -/

/-- The vector busy count of a thread (R216). -/
def busyCount (s : State) (k : Nat) : Nat :=
  let c := s.core (coreOf k)
  (c.vecQueue.filter fun o => o.key == k).length + (if c.reps.any fun r => r.key == k then 1 else 0)

/-- R216 vbusy: it reads state at issue. -/
def execVbusy (d a : Reg) (s : State) : Out :=
  issue (.vbusy d a) s fun s =>
    let k := s.cur
    let n := busyCount s k
    if !(readReg s k a).getLsbD 0 then finishWrite s d (BitVec.ofNat 64 n)
    else
      let v := (s.thr k).vstatus
      finishWrite (if n = 0 then s.setThr k { s.thr k with vstatus := 0#64 } else s) d v

/-- R217 vfence: it issues, and the thread issues nothing more until its busy count is 0. -/
def execVfence (s : State) : Out := issue .vfence s fun s => finishHold s .vfence

/-- R213 vcmpm: queued as a vop, without a counter value; its window waits for the mask. -/
def execVcmpm (d a b : Reg) (lk : BitVec 4) (s : State) : Out :=
  issue (.vcmpm d a b lk) s fun s =>
    let k := s.cur
    match vectorCommand s k cmdVcmpm (readReg s k a) (readReg s k b) 0#32 (some s.nonce) (forkOf s k) (s.core (coreOf k)).rseed with
    | .taken s' =>
      .next (retireTo s' k ((s.thr k).pc + 4#64) [newWindow s d lk false false (.vcmpm d a b lk) 0#64 0#64 .pending])
    | r => finishCommand s r

/-- R208 vadd. -/
def execVadd (a b : Reg) (s : State) : Out := vop (.vadd a b) 0x01 a b s

/-- R208 vsub. -/
def execVsub (a b : Reg) (s : State) : Out := vop (.vsub a b) 0x02 a b s

/-- R208 vmul. -/
def execVmul (a b : Reg) (s : State) : Out := vop (.vmul a b) 0x03 a b s

/-- R208 vdiv. -/
def execVdiv (a b : Reg) (s : State) : Out := vop (.vdiv a b) 0x04 a b s

/-- R208 vmin. -/
def execVmin (a b : Reg) (s : State) : Out := vop (.vmin a b) 0x05 a b s

/-- R208 vmax. -/
def execVmax (a b : Reg) (s : State) : Out := vop (.vmax a b) 0x06 a b s

/-- R208 vfma. -/
def execVfma (a b : Reg) (s : State) : Out := vop (.vfma a b) 0x07 a b s

/-- R208 vabs. -/
def execVabs (a b : Reg) (s : State) : Out := vop (.vabs a b) 0x08 a b s

/-- R208 vneg. -/
def execVneg (a b : Reg) (s : State) : Out := vop (.vneg a b) 0x09 a b s

/-- R208 vsqrt. -/
def execVsqrt (a b : Reg) (s : State) : Out := vop (.vsqrt a b) 0x0A a b s

/-- R208 vcvt. -/
def execVcvt (a b : Reg) (s : State) : Out := vop (.vcvt a b) 0x0B a b s

/-- R210 vand. -/
def execVand (a b : Reg) (s : State) : Out := vop (.vand a b) 0x10 a b s

/-- R210 vor. -/
def execVor (a b : Reg) (s : State) : Out := vop (.vor a b) 0x11 a b s

/-- R210 vxor. -/
def execVxor (a b : Reg) (s : State) : Out := vop (.vxor a b) 0x12 a b s

/-- R210 vshl. -/
def execVshl (a b : Reg) (s : State) : Out := vop (.vshl a b) 0x13 a b s

/-- R210 vshr. -/
def execVshr (a b : Reg) (s : State) : Out := vop (.vshr a b) 0x14 a b s

/-- R211 vsum. -/
def execVsum (a b : Reg) (s : State) : Out := vop (.vsum a b) 0x18 a b s

/-- R211 vrmax. -/
def execVrmax (a b : Reg) (s : State) : Out := vop (.vrmax a b) 0x19 a b s

/-- R211 vrmin. -/
def execVrmin (a b : Reg) (s : State) : Out := vop (.vrmin a b) 0x1A a b s

/-- R211 vsumsq. -/
def execVsumsq (a b : Reg) (s : State) : Out := vop (.vsumsq a b) 0x1B a b s

/-- R95 vexp. -/
def execVexp (a b : Reg) (s : State) : Out := vop (.vexp a b) 0x20 a b s

/-- R96 vlog. -/
def execVlog (a b : Reg) (s : State) : Out := vop (.vlog a b) 0x21 a b s

/-- R97 vrcp. -/
def execVrcp (a b : Reg) (s : State) : Out := vop (.vrcp a b) 0x22 a b s

/-- R97 vrsqrt. -/
def execVrsqrt (a b : Reg) (s : State) : Out := vop (.vrsqrt a b) 0x23 a b s

/-- R98 vtanh. -/
def execVtanh (a b : Reg) (s : State) : Out := vop (.vtanh a b) 0x24 a b s

/-- R98 vsilu. -/
def execVsilu (a b : Reg) (s : State) : Out := vop (.vsilu a b) 0x25 a b s

/-- R98 vgelu. -/
def execVgelu (a b : Reg) (s : State) : Out := vop (.vgelu a b) 0x26 a b s

end Sys2Proof.Machine
end

