-- ==== Sys2Proof/Machine/Copy.lean ====
section
/-! DEFINITION. The tensor copy engine (10 R224 to R239): commands, checks, the walk of a box one element at a time,
completion. Which of a core's operations goes on is open (R171). -/

namespace Sys2Proof.Machine

/-! The register bank (R224). -/

def CopyOp.reg (o : CopyOp) (n : Nat) : Word := o.regs.getD n 0#64

def CopyOp.src (o : CopyOp) : Word := o.reg 0
def CopyOp.dst (o : CopyOp) : Word := o.reg 1
def CopyOp.ctl (o : CopyOp) : Word := o.reg 3

/-- Bk, the box extents (R225). -/
def CopyOp.extent (o : CopyOp) (i : Nat) : Nat :=
  (if i < 4 then bitsAt (o.reg 2) (16 * i) 16 else bitsAt o.ctl 0 16) + 1

/-- Nk, the tensor extents; 0 stands for 2^32. -/
def CopyOp.bound (o : CopyOp) (i : Nat) : Nat :=
  let v := bitsAt (o.reg (12 + i / 2)) (32 * (i % 2)) 32
  if v = 0 then 2 ^ 32 else v

/-- Ok, the box origin. -/
def CopyOp.origin (o : CopyOp) (i : Nat) : Int :=
  if i < 2 then signedBits 32 (bitsAt (o.reg 15) (32 * i) 32) else signedBits 21 (bitsAt (o.reg 16) (21 * (i - 2)) 21)

def CopyOp.srcStride (o : CopyOp) (i : Nat) : Int := (o.reg (3 + i)).toInt
def CopyOp.dstStride (o : CopyOp) (i : Nat) : Int := (o.reg (7 + i)).toInt
def CopyOp.srcMode (o : CopyOp) : BitVec 2 := o.ctl.extractLsb' 16 2
def CopyOp.dstMode (o : CopyOp) : BitVec 2 := o.ctl.extractLsb' 18 2
def CopyOp.srcSwizzle (o : CopyOp) : Nat := bitsAt o.ctl 20 2
def CopyOp.dstSwizzle (o : CopyOp) : Nat := bitsAt o.ctl 22 2
def CopyOp.fill (o : CopyOp) : Nat := bitsAt o.ctl 24 2

def isReduce (cmd : Nat) : Bool := decide (0x10 ≤ cmd)
def isMulticast (cmd : Nat) : Bool := cmd == 2

/-- Format codes of the two pointers. -/
def CopyOp.srcFormat (o : CopyOp) : Nat := bitsAt o.src 58 6
def CopyOp.dstFormat (o : CopyOp) : Nat := bitsAt o.dst 58 6

/-- The destination type that a cpred names: FP32 or BF16. -/
def reduceType (cmd : Nat) : Nat := if cmd % 2 = 0 then 5 else 4

/-- Bytes of one walk element: a super-block for FP4, a byte that holds the half for INT4. -/
def walkBytes (f : Nat) : Nat :=
  match f with
  | 1 => 48 | 4 => 2 | 5 => 4 | 6 => 8 | _ => 1

/-- Walk elements in dimension 0. -/
def CopyOp.extent0 (o : CopyOp) : Nat := if o.srcFormat = 1 then o.extent 0 / 64 else o.extent 0

def CopyOp.elements (o : CopyOp) : Nat := o.extent0 * o.extent 1 * o.extent 2 * o.extent 3 * o.extent 4

/-- Elements that one walk step of dimension 0 covers. -/
def CopyOp.step0 (o : CopyOp) : Nat := if o.srcFormat = 1 then 64 else 1

/-- The walk coordinates i0 to i4 of a walk number; i0 counts elements. -/
def CopyOp.coords (o : CopyOp) (n : Nat) : List Nat :=
  let n1 := n / o.extent0
  let n2 := n1 / o.extent 1
  let n3 := n2 / o.extent 2
  [o.step0 * (n % o.extent0), n1 % o.extent 1, n2 % o.extent 2, n3 % o.extent 3, n3 / o.extent 3]

/-- The source coordinates c0 to c4. -/
def CopyOp.sourceCoords (o : CopyOp) (n : Nat) : List Int :=
  (upTo 5).map fun i => o.origin i + ((o.coords n).getD i 0 : Nat)

def CopyOp.inBounds (o : CopyOp) (n : Nat) : Bool :=
  (upTo 5).all fun i => let c := (o.sourceCoords n).getD i 0; decide (0 ≤ c) && decide (c < (o.bound i : Nat))

/-- The byte distance of an element from its pointer, and the upper half of the byte for INT4 (R225). -/
def walkPlace (f : Nat) (stride : Nat → Int) (c : List Int) : Int × Bool :=
  let outer := ((upTo 4).map fun i => c.getD (i + 1) 0 * stride (i + 1)).foldl (· + ·) 0
  match f with
  | 1 => (48 * (c.getD 0 0 / 64 + outer), false)
  | 8 => ((c.getD 0 0 + outer) / 2, (c.getD 0 0 + outer) % 2 == 1)
  | f => ((walkBytes f : Nat) * (c.getD 0 0 + outer), false)

def CopyOp.sourcePlace (o : CopyOp) (n : Nat) : Int × Bool := walkPlace o.srcFormat o.srcStride (o.sourceCoords n)

def CopyOp.destPlace (o : CopyOp) (n : Nat) : Int × Bool :=
  walkPlace o.srcFormat o.dstStride ((o.coords n).map fun (i : Nat) => (i : Int))

/-! Swizzles (R227). -/

def swizzle (code off : Nat) : Nat :=
  if code = 0 then off
  else
    let w := code + 1
    let f := off / 2 ^ (w + 4) % 2 ^ w
    Nat.xor off (f * 16)

/-- The pieces of an element of n bytes: its offsets and sizes. A super-block has three of 16 bytes, since it is aligned to
16 (R81) and its bytes may lie in two pages, two units of 256 bytes or three places of a swizzle. -/
def elementPieces (n : Nat) : List (Nat × Nat) := if n ≤ 16 then [(0, n)] else [(0, 16), (16, 16), (32, 16)]

/-- The bytes of an element, from its pieces' cells and sizes, lowest first. -/
def readPieces (m : List Host.Cell) : List (Nat × Nat) → Nat
  | [] => 0
  | (cell, n) :: l => readBytes m cell n + 256 ^ n * readPieces m l

def writePieces (m : List Host.Cell) : List (Nat × Nat) → Nat → List Host.Cell
  | [], _ => m
  | (cell, n) :: l, v => writePieces (writeBytes m cell n (v % 256 ^ n)) l (v / 256 ^ n)

/-! Translation for the engines (R228, R234, R407 to R409): the core's TLB, or a walk that enters its leaf there. -/

/-- A walk from the ASID table to its end; a walk takes at most seven reads. -/
def walkAll (s : State) : Nat → Walk → Option TlbEntry
  | 0, _ => none
  | n + 1, w =>
    match walkStep s w with
    | .absent => none
    | .pointer l e => walkAll s n { w with level := l, entry := some e }
    | .leaf e => some (walkEntry s w e)

/-- The entry for an address, and the state with the TLB that holds it. -/
def engineEntryFor (s : State) (core : Nat) (asid : BitVec 16) (ea : Nat) : Option (State × TlbEntry) :=
  match tlbFind (s.core core) asid ea with
  | some t => some (s, t)
  | none =>
    let w := Walk.start (BitVec.ofNat 64 ea) 0 asid 0#16
    (walkAll s 8 w).map fun t => (tlbInstall s core t, t)

/-- Where one access of an engine goes: the code of R234 that ends the operation, or the place. -/
inductive EngineAt where
  | fail (code : Nat)
  | at (s : State) (p : Place)

def engineTranslate (s : State) (core : Nat) (asid : BitVec 16) (ea : Int) (kind : Nat) (mode : BitVec 2) : EngineAt :=
  if ea < 0 ∨ (2 : Int) ^ 51 ≤ ea then .fail 2
  else match engineEntryFor s core asid ea.toNat with
    | none => .fail 10
    | some (s, t) =>
      if leafIlv t.leaf != (mode == 1#2) then .fail 2
      else if (leafReason t.leaf core kind).isSome then .fail 10
      else .at s (leafPlace s t.level t.leaf ea.toNat)

/-- What the copy engine's translation of an address comes to: a code, one more step of a walk, or the place. -/
inductive CopyAt where
  | fail (code : Nat)
  | wait (s : State)
  | at (p : Place)

/-- The copy engine's walk makes one load at a time (R408, R409): it takes a walker of the die, or waits for one; it begins
again where its die has taken a presume since it began; it waits at a page that is being given (R425). none: the walk
for the address has ended absent. -/
def engineWalk (s : State) (core : Nat) (asid : BitVec 16) (ea : Nat) : Option State :=
  let die := dieOf core
  let put := fun (s : State) (w : Option Walk) => s.setCore core { s.core core with walk := w }
  match (s.core core).walk with
  | none =>
    if 96 ≤ walkersBusy s die then some s
    else some (put s (some (Walk.start (BitVec.ofNat 64 ea) 0 asid (s.die die).prcnt)))
  | some w => match walkTurn s core w with
    | .on w => some (put s (some w))
    | .filled s => some (put s none)
    | .absent => if w.asid == asid && w.va.toNat == ea then none else some (put s none)

/-- The walk that ended absent gives its walker back. -/
def dropWalk (s : State) (core : Nat) : State := s.setCore core { s.core core with walk := none }

/-- One address of the copy engine in a translated mode. -/
def copyTranslate (s : State) (core : Nat) (asid : BitVec 16) (ea : Int) (kind : Nat) (mode : BitVec 2) : CopyAt :=
  if ea < 0 ∨ (2 : Int) ^ 51 ≤ ea then .fail 2
  else match tlbFind (s.core core) asid ea.toNat with
    | none => match engineWalk s core asid ea.toNat with
      | some s => .wait s
      | none => .fail 10
    | some t =>
      if leafIlv t.leaf != (mode == 1#2) then .fail 2
      else if (leafReason t.leaf core kind).isSome then .fail 10
      else .at (leafPlace s t.level t.leaf ea.toNat)

/-- A side of the copy, for a buffer: its core and buffer code, from a here or glob pointer. -/
def bufferSide (core : Nat) (mode : BitVec 2) (p : Word) : Nat × Nat × Nat :=
  if mode = 3#2 then (core, bitsAt p 20 2, bitsAt p 0 20)
  else (coreAt (bitsAt p 49 2) (bitsAt p 45 4) (bitsAt p 40 5), bitsAt p 38 2, bitsAt p 0 38)

/-- The pointer of a buffer side names an existing core and buffer. -/
def bufferSideExists (s : State) (mode : BitVec 2) (p : Word) : Bool :=
  if mode = 3#2 then bitsAt p 22 30 == 0 && bitsAt p 20 2 != 3
  else p.getLsbD 51 && decide (bitsAt p 45 4 < 14) && decide (bitsAt p 40 5 < 16) && !s.dieRetired (bitsAt p 49 2) &&
    bitsAt p 38 2 != 3

/-! The checks of a start (R234). -/

/-- The cores that a cpmc selects (R230), in the order of DMASK's bits: die-local row and column. -/
def selectedPlaces (sync : Word) : List (Nat × Nat) :=
  ((upTo 16).filter fun j => sync.getLsbD (32 + j)).map fun j => (bitsAt sync 48 4 + j / 4, bitsAt sync 52 5 + j % 4)

def onMesh (p : Nat × Nat) : Bool := decide (p.1 < 14) && decide (p.2 < 16)

def selectedCores (core : Nat) (sync : Word) : List Nat :=
  ((selectedPlaces sync).filter onMesh).map fun p => coreAt (dieOf core) p.1 p.2

/-- The lowest and the highest value of a sum over dimensions 1 to 4, from the coordinates' ranges. -/
def strideLow (stride : Nat → Int) (lo hi : Nat → Int) : Int :=
  ((upTo 4).map fun i => min (lo (i + 1) * stride (i + 1)) (hi (i + 1) * stride (i + 1))).foldl (· + ·) 0

def strideHigh (stride : Nat → Int) (lo hi : Nat → Int) : Int :=
  ((upTo 4).map fun i => max (lo (i + 1) * stride (i + 1)) (hi (i + 1) * stride (i + 1))).foldl (· + ·) 0

/-- The distances of the first and last byte of a side's elements. -/
def sideSpan (f : Nat) (stride : Nat → Int) (lo hi : Nat → Int) : Int × Int :=
  let a := strideLow stride lo hi
  let b := strideHigh stride lo hi
  match f with
  | 1 => (48 * (lo 0 / 64 + a), 48 * (hi 0 / 64 + b) + 47)
  | 8 => ((lo 0 + a) / 2, (hi 0 + b) / 2)
  | f => let n := walkBytes f; ((n : Int) * (lo 0 + a), (n : Int) * (hi 0 + b) + (n - 1 : Nat))

/-- The in-bounds coordinates of a dimension, lowest and highest. -/
def CopyOp.sourceLow (o : CopyOp) (i : Nat) : Int := max 0 (o.origin i)
def CopyOp.sourceHigh (o : CopyOp) (i : Nat) : Int := min ((o.bound i : Nat) : Int) (o.origin i + (o.extent i : Nat)) - 1

/-- No element is in bounds. -/
def CopyOp.sourceEmpty (o : CopyOp) : Bool := (upTo 5).any fun i => decide (o.sourceHigh i < o.sourceLow i)

/-- A span beyond the buffer. -/
def beyond (core buffer off : Nat) (span : Int × Int) : Bool :=
  decide ((off : Int) + span.1 < 0) || decide ((bufferSize core buffer : Int) ≤ (off : Int) + span.2)

/-- The element of a translated side whose page the start tests: the first one that the walk will access. -/
def CopyOp.firstInBounds (o : CopyOp) : List Int := (upTo 5).map o.sourceLow

/-- An address of a translated side that is none; the layout of a first page the start has tested as it looked it up, and a page
that cannot be translated is met while the copy runs (R234). -/
def beyondPages (ea : Int) : Bool := decide (ea < 0) || decide ((2 : Int) ^ 51 ≤ ea)

/-- The address of a side's first element in a translated mode: of the source the first in bounds, of a cpred destination
its own. -/
def CopyOp.firstSource (o : CopyOp) : Int := addrOf o.src + (walkPlace o.srcFormat o.srcStride o.firstInBounds).1

def CopyOp.firstDest (o : CopyOp) : Int :=
  if isReduce o.cmd then
    addrOf o.dst + (walkPlace o.dstFormat o.dstStride ((upTo 5).map fun i => o.sourceLow i - o.origin i)).1
  else addrOf o.dst

/-- The first pages that the start looks up, each with the mode of its side. -/
def CopyOp.firstPages (o : CopyOp) : List (Int × BitVec 2) :=
  let source := if o.srcMode.toNat < 2 ∧ !o.sourceEmpty then [(o.firstSource, o.srcMode)] else []
  let dest := if o.dstMode.toNat < 2 ∧ !isMulticast o.cmd ∧ !(isReduce o.cmd && o.sourceEmpty) then
      [(o.firstDest, o.dstMode)] else []
  (source ++ dest).filter fun x => !beyondPages x.1

def CopyOp.sourceKind : Nat := kindLOAD
def CopyOp.destKind (o : CopyOp) : Nat := if isReduce o.cmd then kindRMW else kindSTORE

def sourceSpaceFails (s : State) (core : Nat) (o : CopyOp) : Bool :=
  if o.sourceEmpty then (decide (2 ≤ o.srcMode.toNat) && !bufferSideExists s o.srcMode o.src)
  else if 2 ≤ o.srcMode.toNat then
    let b := bufferSide core o.srcMode o.src
    !bufferSideExists s o.srcMode o.src ||
      beyond b.1 b.2.1 b.2.2 (sideSpan o.srcFormat o.srcStride o.sourceLow o.sourceHigh)
  else beyondPages o.firstSource

def destSpaceFails (s : State) (core : Nat) (o : CopyOp) : Bool :=
  let span := sideSpan o.srcFormat o.dstStride (fun _ => 0) (fun i => ((o.extent i : Nat) : Int) - 1)
  if isReduce o.cmd then
    decide (2 ≤ o.dstMode.toNat) || (!o.sourceEmpty && beyondPages o.firstDest)
  else if isMulticast o.cmd then
    o.dstMode != 3#2 || !bufferSideExists s o.dstMode o.dst ||
      (selectedCores core o.sync).any fun c => beyond c (bitsAt o.dst 20 2) (bitsAt o.dst 0 20) span
  else if 2 ≤ o.dstMode.toNat then
    let b := bufferSide core o.dstMode o.dst
    !bufferSideExists s o.dstMode o.dst || beyond b.1 b.2.1 b.2.2 span
  else beyondPages o.firstDest

def copyTypeFails (o : CopyOp) : Bool :=
  if isReduce o.cmd then (o.srcFormat != 5 && o.srcFormat != 4) || o.dstFormat != reduceType o.cmd
  else o.srcFormat != o.dstFormat

def strideFails (v : Int) : Bool := decide (v < -(2 ^ 39)) || decide (2 ^ 39 - 1 < v)

def copyShapeFails (o : CopyOp) : Bool :=
  let mult := if o.srcFormat = 1 then 64 else if o.srcFormat = 8 then 2 else 1
  bitsAt o.ctl 26 38 != 0 || bitsAt (o.reg 14) 32 32 != 0 || (o.reg 16).getLsbD 63 ||
    ((upTo 4).any fun i => strideFails (o.srcStride (i + 1)) || strideFails (o.dstStride (i + 1))) ||
    o.extent 0 % mult != 0 || o.origin 0 % mult != 0 || o.bound 0 % mult != 0

def fillFails (o : CopyOp) : Bool :=
  !isReduce o.cmd && (decide (2 ≤ o.fill) || (o.fill == 1 && (o.srcFormat == 0 || o.srcFormat == 7 || o.srcFormat == 8)))

def swizzleFails (o : CopyOp) : Bool :=
  (o.srcSwizzle != 0 && decide (o.srcMode.toNat < 2)) || (o.dstSwizzle != 0 && decide (o.dstMode.toNat < 2))

def syncBar (v : Word) : Bool := v.getLsbD 1
def syncIrq (v : Word) : Bool := v.getLsbD 0
def syncScope (v : Word) : Nat := bitsAt v 2 3
def syncIndex (v : Word) : Nat := bitsAt v 5 6

def syncFails (o : CopyOp) : Bool :=
  let v := o.sync
  bitsAt v 57 7 != 0 || bitsAt v 11 21 != 0 ||
    (syncBar v && decide (barrierCount (syncScope v) ≤ syncIndex v)) ||
    (if isMulticast o.cmd then bitsAt v 32 16 == 0 || !(selectedPlaces v).all onMesh else bitsAt v 32 25 != 0)

def copyAlignFails (p : Word) : Bool :=
  addrOf p % (match bitsAt p 58 6 with
    | 1 => 16
    | f => walkBytes f) != 0

/-- A side breaks the allow-list of R132 for the engine (bad: the code of its forbidden buffer, 0 W, 2 C), or names a core
outside the partition. -/
def sidePermFails (s : State) (core : Nat) (asid : BitVec 16) (mode : BitVec 2) (p : Word) (bad : Nat) : Bool :=
  decide (2 ≤ mode.toNat) && ((bufferSide core mode p).2.1 == bad ||
    (mode == 2#2 && !inPartition s asid (bufferSide core mode p).1))

def copyPermFails (s : State) (core : Nat) (asid : BitVec 16) (o : CopyOp) : Bool :=
  sidePermFails s core asid o.srcMode o.src 0 || sidePermFails s core asid o.dstMode o.dst 2 ||
    (isMulticast o.cmd && (selectedCores core o.sync).any fun c => !inPartition s asid c)

/-- R234: the rules that are tested before the first access, in their order; 0 for none. -/
def copyStartCode (s : State) (core : Nat) (o : CopyOp) : Nat :=
  let asid := (s.thr o.key).asid
  firstNonzero [
    flagCode 1 (!tagOk o.src || !tagOk o.dst),
    flagCode 2 (o.badLayout || sourceSpaceFails s core o || destSpaceFails s core o),
    flagCode 3 (copyTypeFails o),
    flagCode 4 (copyShapeFails o),
    flagCode 5 (fillFails o),
    flagCode 6 (swizzleFails o),
    flagCode 7 (syncFails o),
    flagCode 8 (copyAlignFails o.src || copyAlignFails o.dst),
    flagCode 9 (copyPermFails s core asid o)]

/-! The walk. -/

/-- The fill value of an element (R226). -/
def fillValue (f fill : Nat) : Nat :=
  if fill = 0 then 0
  else match f with
    | 1 => (2 ^ 96 - 1) * 2 ^ 256
    | 2 => 0x80
    | 3 => 0x80
    | 4 => 0x7FC0
    | 5 => 0x7FC00000
    | 6 => 0x7FF8000000000000
    | _ => 0

/-- What an element access at a side meets: a failing code, a walk, a refusal with its address, or the cells and sizes of
its pieces. -/
inductive WalkAt where
  | fail (code : Nat)
  | wait (s : State)
  | refused (cause : BitVec 4) (ea : Word)
  | at (pieces : List (Nat × Nat))

/-- A buffer access of the engine in a core's buffer. -/
def bufferWalk (s : State) (home : Nat) (asid : BitVec 16) (mode : BitVec 2) (buffer off code n : Nat) (reads : Bool)
    (ea : Word) : WalkAt :=
  let pieces := (elementPieces n).map fun x => (bufferCell home buffer 0 + swizzle code (off + x.1), x.2)
  match pieces.filterMap fun x => homeRefusal s home mode asid reads x.1 (x.1 + x.2 - 1) with
  | c :: _ => .refused c ea
  | [] => .at pieces

/-- A translated access: each piece by the page and the home it lies in. -/
def pagedWalk (s : State) (core : Nat) (asid : BitVec 16) (mode : BitVec 2) (ea : Int) (kind : Nat) :
    List (Nat × Nat) → WalkAt
  | [] => .at []
  | (off, n) :: l =>
    match copyTranslate s core asid (ea + off) kind mode with
    | .fail c => .fail c
    | .wait s => .wait s
    | .at q =>
      match homeRefusal s q.home mode asid (kind != kindSTORE) q.cell (q.cell + n - 1) with
      | some c => .refused c (BitVec.ofInt 64 (ea + off))
      | none => match pagedWalk s core asid mode ea kind l with
        | .at pieces => .at ((q.cell, n) :: pieces)
        | x => x

/-- The access to the element at a byte distance from the pointer of a side. -/
def sideWalk (s : State) (core : Nat) (asid : BitVec 16) (mode : BitVec 2) (p : Word) (dist : Int) (code n kind : Nat) :
    WalkAt :=
  if 2 ≤ mode.toNat then
    let b := bufferSide core mode p
    bufferWalk s b.1 asid mode b.2.1 ((b.2.2 : Int) + dist).toNat code n (kind != kindSTORE)
      (BitVec.ofInt 64 (formEa p dist))
  else pagedWalk s core asid mode (formEa p dist) kind (elementPieces n)

/-- The cell of an INT4 element's byte. -/
def pieceCell (pieces : List (Nat × Nat)) : Nat := (pieces.headD (0, 0)).1

/-- An element's bits at its pieces: for INT4 half a byte, of a super-block bytes 0 to 43 (R81). -/
def loadAt (m : List Host.Cell) (f : Nat) (pieces : List (Nat × Nat)) (upper : Bool) : Nat :=
  match f with
  | 8 => nibbleAt m (pieceCell pieces) upper
  | 1 => readPieces m pieces % 2 ^ 352
  | _ => readPieces m pieces

/-- Write an element's bits; bytes 44 to 47 of a super-block get zero (R81). -/
def storeAt (m : List Host.Cell) (f : Nat) (pieces : List (Nat × Nat)) (upper : Bool) (v : Nat) : List Host.Cell :=
  if f = 8 then writeNibble m (pieceCell pieces) upper v else writePieces m pieces v

/-- One more element written to a destination core. -/
def CopyOp.counted (o : CopyOp) (core : Nat) : CopyOp :=
  { o with written := tabSet o.written core (tabGet 0 o.written core + 1) }

def setCopy (s : State) (core : Nat) (o : CopyOp) : State :=
  let c := s.core core
  s.setCore core { c with copies := c.copies.map fun p => if p.id = o.id then o else p }

/-- The operation issues no further access: it ends with a code. -/
def failCopy (s : State) (core : Nat) (o : CopyOp) (code : Nat) : State :=
  setCopy (if code = 10 then dropWalk s core else s) core { o with err := code, done := true }

/-- A refused access takes a journal entry (R158, R234); with none free the operation holds the refusal until one is. -/
def refuseCopy (s : State) (core : Nat) (o : CopyOp) (x : CopyRefusal) : State :=
  match journalFree (s.core core) with
  | none => setCopy s core { o with refusal := some x }
  | some e =>
    failCopy (recordEngine s core e (engineEntry s o.key x.cause 1#3 x.mode x.size x.ea o.obj)) core
      { o with refusal := none } (if o.err = 12 then 12 else 11)

/-- The A-buffer banks that the pieces of an access use at a core (R134, R228). -/
def pieceBanks (core : Nat) (pieces : List (Nat × Nat)) : BitVec 16 :=
  pieces.foldl (fun m x => m ||| banksOf core x.1 x.2) 0#16

/-- The core whose buffer a side is in; a translated side uses no banks. -/
def sideCore (core : Nat) (mode : BitVec 2) (p : Word) : Nat := if mode.toNat < 2 then core else (bufferSide core mode p).1

/-- The value that goes to the destination: read from the source, as its banks are free, or the fill value. -/
inductive CopyRead where
  | fail (code : Nat)
  | wait (s : State)
  | refused (cause : BitVec 4) (ea : Word)
  | value (s : State) (v : Nat)

def copyRead (s : State) (core : Nat) (o : CopyOp) : CopyRead :=
  match o.value with
  | some v => .value s v
  | none =>
    if !o.inBounds o.next then .value s (fillValue o.srcFormat o.fill)
    else
      let p := o.sourcePlace o.next
      match sideWalk s core (s.thr o.key).asid o.srcMode o.src p.1 o.srcSwizzle (walkBytes o.srcFormat) kindLOAD with
      | .fail c => .fail c
      | .wait s => .wait s
      | .refused c ea => .refused c ea
      | .at pieces =>
        let home := sideCore core o.srcMode o.src
        match engineBanks s home (if o.srcMode.toNat < 2 then 0#16 else pieceBanks home pieces) with
        | none => .wait s
        | some s => .value s (loadAt s.mem o.srcFormat pieces p.2)

/-- The next element: nothing of it is read or sent yet. -/
def CopyOp.nextElement (o : CopyOp) : CopyOp := { o with next := o.next + 1, value := none, sent := 0 }

/-- cpmc: the writes of one element to the selected cores that have not got it, up to the first that refuses or whose banks are
not free. -/
def multicastWrites (o : CopyOp) (core : Nat) (v : Nat) (s : State) : List Nat → State
  | [] => setCopy s core o.nextElement
  | c :: cs =>
    let p := o.destPlace o.next
    match bufferWalk s c (s.thr o.key).asid 2#2 (bitsAt o.dst 20 2) ((bitsAt o.dst 0 20 : Int) + p.1).toNat o.dstSwizzle
        (walkBytes o.srcFormat) false (BitVec.ofInt 64 (formEa o.dst p.1)) with
    | .at pieces => (match engineBanks s c (pieceBanks c pieces) with
      | none => setCopy s core { o with value := some v }
      | some s => multicastWrites { o.counted c with sent := o.sent + 1 } core v
          { s with mem := storeAt s.mem o.srcFormat pieces p.2 v } cs)
    | .refused cause ea => refuseCopy s core o ⟨cause, 3#2, walkBytes o.srcFormat, ea⟩
    | .wait s => s
    | .fail code => failCopy s core o code

/-- cpred's step at the home (R233): the new bits and the flags. -/
def reduceElement (cmd : Nat) (f old v : Nat) : Nat × BitVec 5 :=
  let t := if reduceType cmd = 5 then Fmt.fp32 else Fmt.bf16
  let a := t.value old
  let b := elementValue f v
  let x := if cmd ≤ 0x11 then addVal nearest a b else if cmd ≤ 0x13 then (maxVal a b, 0#5) else (minVal a b, 0#5)
  let r := roundTo t nearest x.1
  (r.1, x.2 ||| r.2)

/-- The n-th element, of z bytes at a cell, ends a line whose bytes the operation has written one after the other: a
whole-line write (R463; log 26, DESIGN CHOICE). -/
def CopyOp.endsLine (o : CopyOp) (n z cell : Nat) : Bool :=
  64 % z == 0 && (cell + z) % 64 == 0 && decide (64 / z ≤ n + 1) &&
    (upTo (64 / z)).all fun j => (o.destPlace (n - j)).1 == (o.destPlace n).1 - (j * z : Nat)

/-- The byte distance of the destination's access for element n, scaled by the destination's type. -/
def CopyOp.destDist (o : CopyOp) (n : Nat) : Int :=
  if isReduce o.cmd then (walkPlace o.dstFormat o.dstStride ((o.coords n).map fun (i : Nat) => (i : Int))).1 else (o.destPlace n).1

/-- The destination access of one element. A cpred scales the destination's distances by the destination's type (log 37,
DESIGN CHOICE: R225 takes the element type from the source pointer, and does not speak of two types). -/
def copyWrite (s : State) (core : Nat) (o : CopyOp) (v : Nat) : State :=
  let p := o.destPlace o.next
  let n := walkBytes (if isReduce o.cmd then o.dstFormat else o.srcFormat)
  match sideWalk s core (s.thr o.key).asid o.dstMode o.dst (o.destDist o.next) o.dstSwizzle n o.destKind with
  | .fail c => failCopy s core o c
  | .wait s => setCopy s core { o with value := some v }
  | .refused c ea => refuseCopy s core o ⟨c, o.dstMode, n, ea⟩
  | .at pieces =>
    let home := sideCore core o.dstMode o.dst
    match engineBanks s home (if o.dstMode.toNat < 2 then 0#16 else pieceBanks home pieces) with
    | none => setCopy s core { o with value := some v }
    | some s =>
    let o' := (o.counted core).nextElement
    if isReduce o.cmd then
      let r := reduceElement o.cmd o.srcFormat (readPieces s.mem pieces) v
      setCopy { s with mem := writePieces s.mem pieces r.1 } core { o' with flags := o.flags ||| r.2 }
    else
      let cell := pieceCell pieces
      let s := if o.srcFormat ≠ 8 ∧ o.endsLine o.next n cell then s.whole (cell + n - 64) 64 else s
      setCopy { s with mem := storeAt s.mem o.srcFormat pieces p.2 v } core o'

/-- A side of a copy whose next translation waits for the end of a give (R425). -/
def sideGiving (s : State) (asid : BitVec 16) (mode : BitVec 2) (p : Word) (dist : Int) : Bool :=
  decide (mode.toNat < 2) && givingAt s asid (formEa p dist).toNat

def copyGiving (s : State) (o : CopyOp) : Bool :=
  let asid := (s.thr o.key).asid
  (o.inBounds o.next && sideGiving s asid o.srcMode o.src (o.sourcePlace o.next).1) ||
    sideGiving s asid o.dstMode o.dst (o.destDist o.next)

/-- The home of a side's access, as far as its translation is known. -/
def sideHome (s : State) (core : Nat) (asid : BitVec 16) (mode : BitVec 2) (p : Word) (dist : Int) : Option Nat :=
  if 2 ≤ mode.toNat then some (bufferSide core mode p).1
  else
    let ea := (formEa p dist).toNat
    (tlbFind (s.core core) asid ea).map fun t => (leafPlace s t.level t.leaf ea).home

/-- The ports that the present element's data pass, from the source's home by the engine to the destination's; none while a side
is not translated yet. A cpmc's destinations lie in the engine's own die (R230). -/
def copyWay (s : State) (core : Nat) (o : CopyOp) : List (Nat × Nat) :=
  let asid := (s.thr o.key).asid
  let source := if o.inBounds o.next then sideHome s core asid o.srcMode o.src (o.sourcePlace o.next).1 else some core
  let dest := if isMulticast o.cmd then some core else sideHome s core asid o.dstMode o.dst (o.destDist o.next)
  match source, dest with
  | some a, some b => hops a core ++ hops core b
  | _, _ => []

/-- The flits that element n of z bytes begins, 64 bytes each (R434). -/
def elementFlits (z n : Nat) : Nat := ((n + 1) * z + 63) / 64 - (n * z + 63) / 64

/-- The present element's data pass between the dies, as flits of class 4 (R440). -/
def passData (s : State) (core : Nat) (o : CopyOp) : Passage :=
  let n := elementFlits (walkBytes o.srcFormat) o.next
  let way := copyWay s core o
  if n = 0 || way = [] then .arrives s else pass s (.copyOpComplete core o.id) way 4 n

/-- The data of a running operation may be on their way. -/
def copyMoves (s : State) : Event → Bool
  | .copyOpComplete core id => (s.core core).copies.any fun o => o.id == id && !o.done
  | _ => false

/-- One element of a running operation (R226, R231 to R233). A page that is being given holds it back (R425), and so do a port on
its way and a bank. -/
def copyElement (s : State) (core : Nat) (o : CopyOp) : State :=
  if o.refusal.isSome then (o.refusal.map (refuseCopy s core o)).getD s
  else if o.elements ≤ o.next then setCopy s core { o with done := true }
  else if copyGiving s o then s
  else if isReduce o.cmd && !o.inBounds o.next then setCopy s core { o with next := o.next + 1 }
  else match passData s core o with
  | .waits s => s
  | .arrives s => match copyRead s core o with
    | .fail c => failCopy s core o c
    | .wait s => s
    | .refused c ea => refuseCopy s core o ⟨c, o.srcMode, walkBytes o.srcFormat, ea⟩
    | .value s v =>
      if isMulticast o.cmd then multicastWrites o core v s ((selectedCores core o.sync).drop o.sent) else copyWrite s core o v

/-- One turn of a running operation; its way between dies begins anew with each element. -/
def copyTurn (s : State) (core : Nat) (o : CopyOp) : State :=
  let s' := copyElement s core o
  if ((s'.core core).copies.any fun p => p.id == o.id && p.next == o.next && !p.done) then s'
  else dropTransit s' (.copyOpComplete core o.id)

/-! Completion (R235, R236). -/

/-- Bytes of n walk elements at one destination core. -/
def writtenBytes (o : CopyOp) (n : Nat) : Nat :=
  if isReduce o.cmd then walkBytes o.dstFormat * n
  else if o.srcFormat = 8 then (n + 1) / 2 else walkBytes o.srcFormat * n

def CopyOp.bytes (o : CopyOp) : Nat := (o.written.map fun x => writtenBytes o x.2).sum

def completionWord (o : CopyOp) : Word :=
  BitVec.ofNat 64 ((if o.err = 0 then 2 else 3) * 2 ^ 62 + o.err * 2 ^ 58 +
    (if isReduce o.cmd then o.flags.toNat else 0) * 2 ^ 53 + o.bytes % 2 ^ 48)

/-- The cores around which the operation's bytes are retired, with their bytes. -/
def retireCores (core : Nat) (o : CopyOp) : List (Nat × Nat) :=
  if isMulticast o.cmd then
    (selectedCores core o.sync).map fun c => (c, writtenBytes o (tabGet 0 o.written c))
  else [(core, o.bytes)]

def retireCopy (asid : BitVec 16) (o : CopyOp) (s : State) : List (Nat × Nat) → State
  | [] => s
  | (c, n) :: l =>
    retireCopy asid o (retireBytes s c asid (syncScope o.sync) (syncIndex o.sync) n (o.err != 0)) l

/-- The four steps of R235. -/
def completeCopy (s : State) (core : Nat) (o : CopyOp) : State :=
  let s := if syncBar o.sync && decide (syncIndex o.sync < barrierCount (syncScope o.sync)) then
      retireCopy (s.thr o.key).asid o s (retireCores core o) else s
  let s := if o.obj = 0#64 then s
    else { s with mem := writeWord s.mem (bufferCell core 1 (bitsAt o.obj 0 20)) (completionWord o) }
  let s := engineDone s o.key (syncIrq o.sync) o.obj 1#3
  let c := s.core core
  let rest := c.copies.filter fun p => p.id != o.id
  s.setCore core { c with copies := rest, walk := if rest = [] then none else c.walk }

/-! Events. -/

/-- The start looks up the first page of each translated side (R234), one load of a walk at a time: none once it has. -/
def startProbe (s : State) (core : Nat) (o : CopyOp) : Option State :=
  match o.firstPages[o.probed]? with
  | none => none
  | some (ea, mode) =>
    let asid := (s.thr o.key).asid
    let done := fun (s : State) (bad : Bool) =>
      setCopy s core { o with probed := o.probed + 1, badLayout := o.badLayout || bad }
    match tlbFind (s.core core) asid ea.toNat with
    | some t => some (done s (leafIlv t.leaf != (mode == 1#2)))
    | none => match engineWalk s core asid ea.toNat with
      | some s => some s
      | none => some (done (dropWalk s core) false)

/-- COPY_OP_START (R226, R234): one of the core's operations that can go on is checked, or handles its next element; the
engine goes on while one is not done. -/
def execCopyOpStart (core : Nat) (s : State) : Out :=
  let live := (s.core core).copies.filter fun o => !o.done
  match chooseFrom s (live.filter fun o => o.started || forkReady s o.key o.fork) with
  | none => if live = [] then .next s else .next (s.later (.copyOpStart core))
  | some o =>
    let s := s.tick
    let s := if o.started then copyTurn s core o
      else match startProbe s core o with
      | some s => s
      | none =>
        let code := copyStartCode s core o
        setCopy s core { o with started := true, err := code, done := code != 0 }
    if (s.core core).copies.any fun p => p.id == o.id && p.done then .next (s.later (.copyOpComplete core o.id))
    else .next (s.later (.copyOpStart core))

/-- COPY_OP_COMPLETE (R235): a PERM failure enters the journal first, and waits for a free entry. -/
def execCopyOpComplete (core id : Nat) (s : State) : Out :=
  match findFirst (fun (o : CopyOp) => o.id == id && o.done) (s.core core).copies with
  | none => .next s
  | some o =>
    if o.err ≠ 9 then .next (completeCopy s core o)
    else match journalFree (s.core core) with
      | none => .next (s.later (.copyOpComplete core id))
      | some e =>
        let source := sidePermFails s core (s.thr o.key).asid o.srcMode o.src 0
        let p := if source then o.src else o.dst
        let mode := if source then o.srcMode else o.dstMode
        let size := walkBytes (if source then o.srcFormat else o.dstFormat)
        .next (completeCopy (recordEngine s core e
          (engineEntry s o.key 4#4 1#3 mode size (BitVec.ofNat 64 (addrOf p)) o.obj)) core o)

/-! Commands (R229, R238) and completion objects (R237). -/

/-- The check of a completion object pointer (R229): the TVAL of the trap, if any. -/
def objectTrap (a : Word) : Option Word :=
  if !tagOk a then some a
  else if bitsAt a 22 30 ≠ 0 ∨ bitsAt a 20 2 ≠ 1 ∨ bitsAt a 0 3 ≠ 0 ∨ 2 ^ 19 < bitsAt a 0 20 + 8 then
    some (BitVec.ofNat 64 (addrOf a))
  else none

def objectCell (k : Nat) (a : Word) : Nat := bufferCell (coreOf k) 1 (bitsAt a 0 20)

/-- A copy command of thread k. -/
def copyCommand (s : State) (k cmd : Nat) (a b : Word) (fork : List Nat) : CmdResult :=
  let core := coreOf k
  let c := s.core core
  match (if a = 0#64 then none else objectTrap a) with
  | some v => .trap kindADDRESS 0 v
  | none =>
    if decide (512 ≤ c.copies.length) || !admits c 6 3 then .wait
    else match (if a = 0#64 then some s else settleHere s k (objectCell k a) 8) with
    | none => .wait
    | some s =>
      let s := if a = 0#64 then s
        else { s with mem := writeWord s.mem (objectCell k a) 0x4000000000000000#64 }
      let c := s.core core
      let o := { id := s.nonce, key := k, cmd := cmd, obj := a, sync := b, regs := (s.thr k).copyRegs, fork := fork,
                 started := false, probed := 0, refusal := none, next := 0, value := none, sent := 0,
                 badLayout := false, written := [], flags := 0#5, err := 0, done := false : CopyOp }
      .taken (((s.setCore core { c with copies := c.copies ++ [o] }).later (.copyOpStart core)).tick)

/-- Cancel the operations of a list (R238): they complete as CANCELLED; one that holds a refusal completes once that is in the
journal (R158, R235). -/
def cancelCopies (core : Nat) (s : State) : List CopyOp → State
  | [] => s
  | o :: os =>
    if o.done then cancelCopies core s os
    else if o.refusal.isSome then cancelCopies core (setCopy s core { o with err := 12 }) os
    else cancelCopies core (completeCopy s core { o with err := 12, done := true }) os

/-- cpcan of thread k. -/
def copyCancel (s : State) (k : Nat) (a b : Word) : CmdResult :=
  let core := coreOf k
  let mine := (s.core core).copies.filter fun o => o.key == k
  if bitsAt b 1 63 ≠ 0 then .trap kindADDRESS 0 b
  else if b.getLsbD 0 then .taken (cancelCopies core s mine)
  else match (if a = 0#64 then none else objectTrap a) with
    | some v => .trap kindADDRESS 0 v
    | none => .taken (cancelCopies core s (mine.filter fun o => o.obj == a))

/-- A copy command issued by the thread whose opportunity it is. -/
def copyOp (i : Instr) (cmd : Nat) (a b : Reg) (s : State) : Out :=
  issue i s fun s =>
    finishCommand s (copyCommand s s.cur cmd (readReg s s.cur a) (readReg s s.cur b) (forkOf s s.cur))

/-- R231 cpbox. -/
def execCpbox (a b : Reg) (s : State) : Out := copyOp (.cpbox a b) 0x01 a b s

/-- R232 cpmc. -/
def execCpmc (a b : Reg) (s : State) : Out := copyOp (.cpmc a b) 0x02 a b s

/-- R233 cpred.add.f32. -/
def execCpredAddF32 (a b : Reg) (s : State) : Out := copyOp (.cpredAddF32 a b) 0x10 a b s

/-- R233 cpred.add.bf16. -/
def execCpredAddBf16 (a b : Reg) (s : State) : Out := copyOp (.cpredAddBf16 a b) 0x11 a b s

/-- R233 cpred.max.f32. -/
def execCpredMaxF32 (a b : Reg) (s : State) : Out := copyOp (.cpredMaxF32 a b) 0x12 a b s

/-- R233 cpred.max.bf16. -/
def execCpredMaxBf16 (a b : Reg) (s : State) : Out := copyOp (.cpredMaxBf16 a b) 0x13 a b s

/-- R233 cpred.min.f32. -/
def execCpredMinF32 (a b : Reg) (s : State) : Out := copyOp (.cpredMinF32 a b) 0x14 a b s

/-- R233 cpred.min.bf16. -/
def execCpredMinBf16 (a b : Reg) (s : State) : Out := copyOp (.cpredMinBf16 a b) 0x15 a b s

/-- R238 cpcan. -/
def execCpcan (a b : Reg) (s : State) : Out :=
  issue (.cpcan a b) s fun s => finishCommand s (copyCancel s s.cur (readReg s s.cur a) (readReg s s.cur b))

/-- R237: the trap of a completion object operand, 0 included. -/
def withObject (s : State) (a : Reg) (go : Nat → Out) : Out :=
  let av := readReg s s.cur a
  match objectTrap av with
  | some v => finishTrap s kindADDRESS 0 v
  | none => go (objectCell s.cur av)

/-- R237 cpstat: the object as it stands at issue, read over the here path. -/
def execCpstat (d a : Reg) (s : State) : Out :=
  issue (.cpstat d a) s fun s => withObject s a fun cell =>
    match settleHere s s.cur cell 8 with
    | none => forfeit s
    | some s => finishWrite s d (readWord s.mem cell)

/-- An event instruction has issued: its window opens, and the event is looked for from now on (R36, R39). -/
def finishEvent (s : State) (i : Instr) (d : Reg) (holds : Bool) (a b : Word) : Out :=
  let k := s.cur
  let w := newWindow s d (lookaheadOf i) true holds i a b .pending
  .next (retireTo (s.tick.later (.longLatencyResultArrival k w.id)) k ((s.thr k).pc + 4#64) [w])

/-- R237 cpwait. -/
def execCpwait (d a : Reg) (lk : BitVec 4) (s : State) : Out :=
  issue (.cpwait d a lk) s fun s => withObject s a fun _ =>
    finishEvent s (.cpwait d a lk) d false (readReg s s.cur a) 0#64

/-- The event of cpwait; its close reads the object. -/
def cpwaitEvent (s : State) (k : Nat) (w : Window) : Option Result :=
  if bitsAt (readWord s.mem (objectCell k w.a)) 62 2 = 1 then none else some (.object (objectCell k w.a))

end Sys2Proof.Machine
end

