-- ==== Sys2Proof/Machine/Matrix.lean ====
section
/-! DEFINITION. The matrix engine (11 R240 to R256, 04 R89 to R92): the operand latch, tiles, the gang, the drain. A core
runs its queue in order; the gang of a quad joins the four. -/

namespace Sys2Proof.Machine

/-! Geometry (R240). -/

def matRows (core : Nat) : Nat := if isPrompt core then 128 else 64
def matCols (core : Nat) : Nat := if isPrompt core then 32 else 16
def quarterRows (core : Nat) : Nat := matRows core / 4
def tileSize (core : Nat) : Nat := 4 * matRows core * matCols core

/-- The four cores of a die-local quad. -/
def quadCores (die quad : Nat) : List Nat := (upTo 4).map fun j => coreAt die (quad / 4) (4 * (quad % 4) + j)

/-! Elements (R242). -/

/-- The element types of the matrix unit. -/
def matType (f : Nat) : Bool := f == 1 || f == 2 || f == 3 || f == 4 || f == 7

/-- The byte distance of element k of row r from a pointer, its first byte; a super-block for FP4. -/
def matDist (f : Nat) (stride : Int) (r k : Nat) : Int :=
  if f = 1 then 48 * ((k / 64 : Nat) + r * stride) else (walkBytes f : Nat) * ((k : Int) + r * stride)

/-- A cell of a here-form pointer. -/
def hereCell (core : Nat) (p : Word) (dist : Int) : Nat :=
  bufferCell core (bitsAt p 20 2) ((bitsAt p 0 20 : Int) + dist).toNat

/-- n bytes at a distance lie in the pointer's buffer. -/
def hereInside (core : Nat) (p : Word) (dist : Int) (n : Nat) : Bool :=
  let off := (bitsAt p 0 20 : Int) + dist
  decide (0 ≤ off) && decide (off + n ≤ (bufferSize core (bitsAt p 20 2) : Int))

/-! Checks (R245). -/

/-- A pointer with the buffer its role requires, and the bytes it reaches as (distance, length) pairs. -/
structure MatPtr where
  p : Word
  buffer : Nat
  reach : List (Int × Nat)

/-- SPACE, with PERM at its place. -/
def matSpace (core : Nat) (q : MatPtr) : Nat :=
  let b := bitsAt q.p 20 2
  if bitsAt q.p 22 30 ≠ 0 ∨ b = 3 then 2
  else if b ≠ q.buffer then 6
  else if q.reach.all fun x => hereInside core q.p x.1 x.2 then 0 else 2

/-- The first rule that fails, from its parts: TAG and SPACE of every pointer, then the rest. -/
def matCode (core : Nat) (ps : List MatPtr) (type shape align round : Bool) : Nat :=
  firstNonzero ([flagCode 1 (ps.any fun q => !tagOk q.p)] ++ ps.map (matSpace core) ++
    [flagCode 3 type, flagCode 4 shape, flagCode 5 align, flagCode 7 round])

def ptrFormat (p : Word) : Nat := bitsAt p 58 6
def tilePtr (core : Nat) (p : Word) : MatPtr := ⟨p, 2, [(0, tileSize core)]⟩
def tileShapeFails (core : Nat) (p : Word) : Bool := bitsAt p 0 20 % tileSize core != 0
def tileAlignFails (p : Word) : Bool := bitsAt p 0 20 % 4 != 0

/-! mgath (R246). -/

def gathK0 (o : MatOp) : Nat := bitsAt o.b 0 16
def gathLen (o : MatOp) : Nat := bitsAt o.b 16 16

/-- The index vector of a gather. -/
def gathIndex (s : State) (core : Nat) (o : MatOp) : List Nat :=
  (upTo (quarterRows core)).map fun t => readBytes s.mem (hereCell core o.a (2 * t : Nat)) 2

/-- The multiple and the limit of K values by latch type. -/
def gathMultiple (f : Nat) : Nat := if f = 1 then 64 else 8
def gathLimit (f : Nat) : Nat := if f = 1 then 512 else if f = 4 then 128 else 256

def MatOp.reg (o : MatOp) (n : Nat) : Word := o.regs.getD n 0#64

/-- The bytes of elements k0 to k0 + len - 1 of row r. -/
def rowReach (f : Nat) (stride : Int) (r k0 len : Nat) : Int × Nat :=
  if f = 1 then (matDist f stride r k0, 48 * ((k0 + len + 63) / 64 - k0 / 64))
  else (matDist f stride r k0, walkBytes f * len)

def gathCode (s : State) (core : Nat) (o : MatOp) : Nat :=
  let ma := o.reg 0
  let f := ptrFormat ma
  let index : MatPtr := ⟨o.a, 1, [(0, 2 * quarterRows core)]⟩
  let rows := if matSpace core index = 0 then (gathIndex s core o).filter (· != 0xFFFF) else []
  matCode core [index, ⟨ma, 1, rows.map fun r => rowReach f (o.reg 1).toInt r (gathK0 o) (gathLen o)⟩]
    (ptrFormat o.a != 0 || !matType f)
    (bitsAt o.b 32 32 != 0 || strideFails (o.reg 1).toInt || gathLen o < gathMultiple f ||
      decide (gathLimit f < gathLen o) || gathLen o % gathMultiple f != 0 || gathK0 o % gathMultiple f != 0)
    (bitsAt o.a 0 20 % 8 != 0 || copyAlignFails ma) false

/-- A row of n super-blocks keeps the codes and scales of its elements: the latch holds no other byte (R81, R257). -/
def elementsOnly (f row : Nat) : Nat → Nat
  | 0 => if f = 1 then 0 else row
  | n + 1 =>
    if f = 1 then row % 2 ^ 352 + 2 ^ 384 * elementsOnly f (row / 2 ^ 384) n else row

/-- One latch row: its bytes as a number. -/
def gathRow (s : State) (core : Nat) (o : MatOp) (r : Nat) : Nat :=
  if r = 0xFFFF then 0
  else
    let ma := o.reg 0
    let x := rowReach (ptrFormat ma) (o.reg 1).toInt r (gathK0 o) (gathLen o)
    elementsOnly (ptrFormat ma) (readBytes s.mem (hereCell core ma x.1) x.2) (gathLen o / 64)

/-- The A-buffer banks of a gather (R134, R244): of its index vector and of the rows that it names. -/
def gathBanks (s : State) (core : Nat) (o : MatOp) : BitVec 16 :=
  let ma := o.reg 0
  (gathIndex s core o).foldl (fun m r =>
    if r = 0xFFFF then m
    else
      let x := rowReach (ptrFormat ma) (o.reg 1).toInt r (gathK0 o) (gathLen o)
      m ||| banksOf core (hereCell core ma x.1) x.2) (banksOf core (hereCell core o.a 0) (2 * quarterRows core))

/-- The gather: on a failure the quarter is left invalid. -/
def runGather (s : State) (core : Nat) (o : MatOp) (code : Nat) : State :=
  let c := s.core core
  if code ≠ 0 then s.setCore core { c with latchValid := false }
  else s.setCore core { c with
    latchValid := true, latchType := ptrFormat (o.reg 0), latchKlen := gathLen o
    latchRows := (gathIndex s core o).map (gathRow s core o) }

/-! mzero, mband (R250, R251). -/

def zeroCode (core : Nat) (o : MatOp) : Nat :=
  matCode core [tilePtr core o.a] (ptrFormat o.a != 5 && ptrFormat o.a != 0) (tileShapeFails core o.a)
    (tileAlignFails o.a) false

def runZero (s : State) (core : Nat) (o : MatOp) : State :=
  { s with mem := writeBytes s.mem (hereCell core o.a 0) (tileSize core) 0 }

def bandCount (core : Nat) : Nat := matCols core + matRows core / 64

/-- The halfwords of a scale table. -/
def bandTable (s : State) (core : Nat) (o : MatOp) : List Nat :=
  (upTo (bandCount core)).map fun j => readBytes s.mem (hereCell core o.a (2 * j : Nat)) 2

def bandCode (s : State) (core : Nat) (o : MatOp) : Nat :=
  let q : MatPtr := ⟨o.a, 0, [(0, 2 * bandCount core)]⟩
  matCode core [q] (ptrFormat o.a != 0)
    (matSpace core q == 0 && ((bandTable s core o).take (matCols core)).any fun h => decide (4096 ≤ h))
    (bitsAt o.a 0 20 % 8 != 0) false

def runBand (s : State) (core : Nat) (o : MatOp) : State :=
  s.setCore core { s.core core with bands := bandTable s core o }

/-- The column scale and the band scale in force (R251). -/
def columnScale (c : Core) (j : Nat) : Nat := if c.bands = [] then 0x780 else c.bands.getD j 0
def bandScale (core : Nat) (c : Core) (i : Nat) : Nat :=
  if c.bands = [] then 0x3F80 else c.bands.getD (matCols core + i / 64) 0

/-! mdrain (R252, R92). -/

def drainI32 (o : MatOp) : Bool := o.b.getLsbD 25
def drainScl (o : MatOp) : Bool := o.b.getLsbD 24
def drainIrq (o : MatOp) : Bool := o.b.getLsbD 23
def drainRnd (o : MatOp) : Nat := bitsAt o.b 20 3
def drainSrc (o : MatOp) : Nat := bitsAt o.b 0 20

def drainTypeFails (o : MatOp) : Bool :=
  let f := ptrFormat o.a
  if drainI32 o then !(f == 7 || f == 5) || drainScl o else !(f == 5 || f == 4 || f == 2 || f == 3)

def drainCode (core : Nat) (o : MatOp) : Nat :=
  let size := walkBytes (ptrFormat o.a)
  let src : MatPtr := ⟨BitVec.ofNat 64 (0x200000 + drainSrc o), 2, [(0, tileSize core)]⟩
  matCode core [⟨o.a, 2, [(0, size * matRows core * matCols core)]⟩, src] (drainTypeFails o)
    (bitsAt o.b 26 38 != 0 || drainSrc o % tileSize core != 0) (copyAlignFails o.a) (decide (4 < drainRnd o))

/-- The scaled accumulator (R92): a NaN wins, then a column scale of zero. -/
def drainScaled (acc : Val) (col band : Nat) : Val × BitVec 5 :=
  let b := Fmt.bf16.value band
  let x := mulVal acc b
  if acc.isNan || b.isNan || col == 0xFFF then (.nan, 0#5)
  else if x.1.isNan then x
  else match acc with
    | .fin _ _ => if col = 0 then (.fin false (.rat 0 1), 0#5) else mulVal x.1 (scaleVal col)
    | _ => mulVal x.1 (scaleVal col)

/-- The code of drain element (i, j) from the bits of the tile element, and its flags. -/
def drainElement (s : State) (core : Nat) (o : MatOp) (i j bits : Nat) : Nat × BitVec 5 :=
  let v := if drainI32 o then intVal (signedBits 32 bits) else Fmt.fp32.value bits
  let c := s.core core
  let x := if drainScl o then drainScaled v (columnScale c j) (bandScale core c i) else (v, 0#5)
  let mode := BitVec.ofNat 3 (drainRnd o)
  let u := if mode = 4#3 then drawAt s o.key o.seed o.n (matCols core * i + j) else 0#32
  let r := roundElement (ptrFormat o.a) ⟨mode, u⟩ x.1
  (r.1, x.2 ||| r.2)

/-- Write a row of codes of a size, from a cell on. -/
def writeCodes (m : List Host.Cell) (cell size : Nat) : List Nat → List Host.Cell
  | [] => m
  | v :: vs => writeCodes (writeBytes m cell size v) (cell + size) size vs

/-- Row i of the drain: the row is read in full before it is written. -/
def drainRow (core : Nat) (o : MatOp) (s : State) (i : Nat) : State × BitVec 5 :=
  let ns := matCols core
  let size := walkBytes (ptrFormat o.a)
  let src := bufferCell core 2 (drainSrc o + 4 * ns * i)
  let rs := (upTo ns).map fun j => drainElement s core o i j (readBytes s.mem (src + 4 * j) 4)
  ({ s with mem := writeCodes s.mem (hereCell core o.a (size * ns * i : Nat)) size (rs.map (·.1)) },
    rs.foldl (fun f r => f ||| r.2) 0#5)

def drainRows (core : Nat) (o : MatOp) : State × BitVec 5 → List Nat → State × BitVec 5
  | st, [] => st
  | st, i :: is => let r := drainRow core o st.1 i; drainRows core o (r.1, st.2 ||| r.2) is

/-! mma (R249, R89 to R91). -/

def mmaBk0 (o : MatOp) : Nat := bitsAt o.b 0 16
def mmaZero (o : MatOp) : Bool := o.b.getLsbD 16
def isMma (cmd : Nat) : Bool := 0x10 ≤ cmd && cmd ≤ 0x13

/-- The element types of a form (R248). -/
def mmaTypeOk (cmd f : Nat) : Bool :=
  match cmd with
  | 0x10 => f == 1 | 0x11 => f == 2 || f == 3 | 0x12 => f == 4 | _ => f == 7

/-- Each slice's own checks, after the joint ones (R248, R249). -/
def mmaCode (core : Nat) (o : MatOp) (klen : Nat) : Nat :=
  let mb := o.reg 2
  let f := ptrFormat mb
  let cols := (upTo (matCols core)).map fun j => rowReach f (o.reg 3).toInt j (mmaBk0 o) klen
  matCode core [tilePtr core o.a, ⟨mb, 0, cols⟩]
    ((if o.cmd = 0x13 then ptrFormat o.a != 0 else ptrFormat o.a != 5) || !mmaTypeOk o.cmd f)
    (bitsAt o.b 17 47 != 0 || strideFails (o.reg 3).toInt || mmaBk0 o % (if o.cmd = 0x10 then 64 else 8) != 0 ||
      tileShapeFails core o.a)
    (tileAlignFails o.a || copyAlignFails mb) false

/-- Element k of a row held as bytes from element 0 on: its code, without the scale. -/
def rowElement (f row k : Nat) : Nat :=
  if f = 1 then row / 2 ^ (384 * (k / 64) + 4 * (k % 64)) % 16
  else row / 2 ^ (8 * walkBytes f * k) % 2 ^ (8 * walkBytes f)

/-- The block scale of the block that begins at element k of a row. -/
def rowScale (row k : Nat) : Nat := row / 2 ^ (384 * (k / 64) + 256 + 12 * (k % 64 / 8)) % 4096

/-- A data code's value without its scale. -/
def plainValue (f code : Nat) : Val := if f = 1 then Fmt.fp4.value code else elementValue f code

/-- The exact sum of the products of elements k to k + n - 1. -/
def productSum (fa fb ra rb k : Nat) : Nat → Val
  | 0 => .fin false (.rat 0 1)
  | n + 1 =>
    (addVal nearest (productSum fa fb ra rb k n)
      (mulVal (plainValue fa (rowElement fa ra (k + n))) (plainValue fb (rowElement fb rb (k + n)))).1).1

/-- The scaled sum of one block of 8 (R89). -/
def blockSum (fa fb ra rb k : Nat) : Val :=
  let w := productSum fa fb ra rb k 8
  if fa = 1 then
    let sc := rowScale ra k
    if sc = 0xFFF then .nan else if sc = 0 then .fin false (.rat 0 1) else (mulVal (scaleVal sc) w).1
  else w

/-- w of R89 for a list of blocks. -/
def groupSum (fa fb ra rb : Nat) : List Nat → Val
  | [] => .fin false (.rat 0 1)
  | k :: ks => (addVal nearest (blockSum fa fb ra rb k) (groupSum fa fb ra rb ks)).1

/-- One group of up to 32 elements added into a float accumulator: its bits and the group rounding flags NX and OF. -/
def floatGroup (fa fb ra rb acc : Nat) (ks : List Nat) : Nat × BitVec 5 :=
  let w := groupSum fa fb ra rb ks
  let w := if w.isZero then .fin false (.rat 0 1) else w
  let rw := roundTo .fp32 nearest w
  let r := roundTo .fp32 nearest (addVal nearest (Fmt.fp32.value acc) (Fmt.fp32.value rw.1)).1
  (r.1, (rw.2 ||| r.2) &&& (flagNX ||| flagOF))

/-- One group added into an integer accumulator (R91). -/
def intGroup (ra rb acc : Nat) (ks : List Nat) : Nat × BitVec 5 :=
  let one := fun k => intCode 7 (rowElement 7 ra k) * intCode 7 (rowElement 7 rb k)
  let sum := (ks.map fun k => ((upTo 8).map fun i => one (k + i)).foldl (· + ·) 0).foldl (· + ·) 0
  let v := signedBits 32 acc + sum
  if v < -(2 ^ 31) then (2 ^ 31, flagOF)
  else if 2 ^ 31 - 1 < v then (2 ^ 31 - 1, flagOF)
  else ((v % 2 ^ 32).toNat, 0#5)

/-- The groups of a pass of klen elements: the block starts of group g. -/
def groupBlocks (klen g : Nat) : List Nat := ((upTo 4).map fun b => 32 * g + 8 * b).filter (· < klen)

/-- The pass over all groups of one tile element. -/
def passGroups (cmd fa fb ra rb klen : Nat) : Nat × BitVec 5 → List Nat → Nat × BitVec 5
  | st, [] => st
  | st, g :: gs =>
    let r := if cmd = 0x13 then intGroup ra rb st.1 (groupBlocks klen g)
      else floatGroup fa fb ra rb st.1 (groupBlocks klen g)
    passGroups cmd fa fb ra rb klen (r.1, st.2 ||| r.2) gs

/-- Column j of B as a row of bytes from element BK0 on. -/
def mmaColumn (s : State) (core : Nat) (o : MatOp) (klen j : Nat) : Nat :=
  let mb := o.reg 2
  let x := rowReach (ptrFormat mb) (o.reg 3).toInt j (mmaBk0 o) klen
  readBytes s.mem (hereCell core mb x.1) x.2

/-- One row of the tile: row i of the latch against all columns. -/
def mmaRow (core : Nat) (o : MatOp) (fa klen latchRow : Nat) (cols : List Nat) (s : State) (i : Nat) :
    State × BitVec 5 :=
  let cell := hereCell core o.a (4 * matCols core * i : Nat)
  let rs := cols.mapIdx fun j col =>
    passGroups o.cmd fa (ptrFormat (o.reg 2)) latchRow col klen
      (if mmaZero o then 0 else readBytes s.mem (cell + 4 * j) 4, 0#5) (upTo ((klen + 31) / 32))
  ({ s with mem := writeCodes s.mem cell 4 (rs.map (·.1)) }, rs.foldl (fun f r => f ||| r.2) 0#5)

def mmaRows (core : Nat) (o : MatOp) (fa klen : Nat) (cols : List Nat) : State × BitVec 5 → List (Nat × Nat) →
    State × BitVec 5
  | st, [] => st
  | st, (i, row) :: rs =>
    let r := mmaRow core o fa klen row cols st.1 i
    mmaRows core o fa klen cols (r.1, st.2 ||| r.2) rs

/-- The pass of one slice over the four quarters' rows. -/
def runMma (s : State) (core : Nat) (o : MatOp) (fa klen : Nat) (rows : List Nat) : State × BitVec 5 :=
  mmaRows core o fa klen ((upTo (matCols core)).map (mmaColumn s core o klen)) (s, 0#5) (rows.mapIdx fun i r => (i, r))

/-! The queue (R243, R244). -/

def setMat (s : State) (core : Nat) (o : MatOp) : State :=
  let c := s.core core
  s.setCore core { c with matQueue := c.matQueue.map fun p => if p.id = o.id then o else p }

/-- A matrix command of thread k, with the rounding seed that it issues under (R287). -/
def matrixCommand (s : State) (k cmd : Nat) (a b : Word) (n : BitVec 32) (fork : List Nat) (seed : Word) : CmdResult :=
  let core := coreOf k
  let c := s.core core
  if !admits c 7 1 then .wait
  else
    let o := { id := s.nonce, key := k, cmd := cmd, a := a, b := b, n := n, seed := seed, regs := (s.thr k).matRegs, fork := fork,
               started := false, err := 0, flags := 0#5 : MatOp }
    .taken (((s.setCore core { c with matQueue := c.matQueue ++ [o] }).later (.matrixCmdStart core)).tick)

/-- A command that has started and come to an end, with its code and flags; its completion follows. -/
def endMat (s : State) (core : Nat) (o : MatOp) (err : Nat) (flags : BitVec 5) : State :=
  (setMat s core { o with started := true, err := err, flags := flags }).later (.matrixCmdComplete core)

/-- An mgath that fails leaves the quarter with valid = 0 (R246). -/
def spoilLatch (s : State) (core : Nat) (o : MatOp) : State :=
  if o.cmd = 0x01 then s.setCore core { s.core core with latchValid := false } else s

/-- Some core of the quad hosts a context other than the issuer's (R247). -/
def gangForeign (s : State) (core : Nat) (asid : BitVec 16) : Bool :=
  (quadCores (dieOf core) (quadOf core)).any fun c =>
    (s.core c).residence != .free && (s.core c).ctxAsid != asid

/-- An mgang at the head, with the commands behind it (R247). -/
def startGang (s : State) (core : Nat) (o : MatOp) : List MatOp → State
  | [] => s.later (.matrixCmdStart core)
  | m :: _ =>
    if !isMma m.cmd then endMat (setMat (spoilLatch s core m) core { m with started := true, err := 8 }) core o 8 0#5
    else if gangForeign s core (s.thr o.key).asid then
      endMat (setMat s core { m with started := true, err := 9 }) core o 9 0#5
    else if !forkReady s m.key m.fork then s.later (.matrixCmdStart core)
    else
      s.setCore core { s.core core with arrived := true }

/-- A command at the head that is no mgang. -/
def startMat (s : State) (core : Nat) (o : MatOp) : State :=
  match o.cmd with
  | 0x01 =>
    let c := gathCode s core o
    if c ≠ 0 then endMat (runGather s core o c) core o c 0#5
    else match engineBanks s core (gathBanks s core o) with
      | none => s.later (.matrixCmdStart core)
      | some s => endMat (runGather s core o 0) core o 0 0#5
  | 0x08 => let c := zeroCode core o; endMat (if c = 0 then runZero s core o else s) core o c 0#5
  | 0x09 =>
    let c := drainCode core o
    if c ≠ 0 then endMat s core o c 0#5
    else let r := drainRows core o (s, 0#5) (upTo (matRows core)); endMat r.1 core o 0 r.2
  | 0x0A => let c := bandCode s core o; endMat (if c = 0 then runBand s core o else s) core o c 0#5
  | _ => endMat s core o 8 0#5

/-- MATRIX_CMD_START (R244, R245): the command at the head of a core's queue starts, once the one before it has
completed and its fork has drained; none of a pre-empted residence does (R256). -/
def execMatrixCmdStart (core : Nat) (s : State) : Out :=
  match (s.core core).matQueue with
  | [] => .next s
  | o :: os =>
    if (s.core core).arrived then .next s
    else if o.started || opHalts s o.key || !forkReady s o.key o.fork then .next (s.later (.matrixCmdStart core))
    else if o.cmd = 0x02 then .next (startGang s core o os)
    else .next (startMat s core o)

/-! The gang's release (R247, R248). -/

/-- A completion in MSTATUS: its flags, and its code where it is the first to fail (R254). -/
def accrueMstatus (v : Word) (o : MatOp) : Word :=
  let v := v ||| o.flags.setWidth 64
  if o.err = 0 ∨ bitsAt v 8 4 ≠ 0 then v else v ||| BitVec.ofNat 64 (o.cmd * 2 ^ 24 + o.err * 2 ^ 8)

/-- The mma that follows the mgang at a core's head. -/
def gangMma (s : State) (core : Nat) : Option MatOp := ((s.core core).matQueue.drop 1).head?

/-- The joint check: 9 GANG, 3 TYPE, 0. -/
def jointCode (s : State) (cs : List Nat) : Nat :=
  let quarters := cs.map fun c => ((s.core c).latchValid, (s.core c).latchType, (s.core c).latchKlen)
  let cmds := cs.map fun c => ((gangMma s c).map MatOp.cmd).getD 0
  let q := quarters.headD (false, 0, 0)
  if quarters.any (fun x => !x.1 || x != q) || cmds.any (· != cmds.headD 0) then 9
  else if !mmaTypeOk (cmds.headD 0) q.2.1 then 3
  else 0

/-- The ended command at the head leaves the queue (R253, R254). -/
def completeMat (s : State) (core : Nat) (o : MatOp) : State :=
  let c := s.core core
  let s := s.setCore core { c with matQueue := c.matQueue.filter fun p => p.id != o.id }
  let s := s.setThr o.key { s.thr o.key with mstatus := accrueMstatus (s.thr o.key).mstatus o }
  engineDone s o.key (o.cmd == 0x09 && drainIrq o) (BitVec.ofNat 64 (addrOf o.a)) 2#3

/-- One slice at the release: its mgang completes, and its mma runs. -/
def releaseSlice (joint fa klen : Nat) (rows : List Nat) (s : State) (core : Nat) : State :=
  match gangMma s core with
  | none => s
  | some m =>
    let code := if joint ≠ 0 then joint else mmaCode core m klen
    let r := if code = 0 then runMma s core m fa klen rows else (s, 0#5)
    let s := setMat r.1 core { m with started := true, err := code, flags := r.2 }
    let s := s.setCore core { s.core core with arrived := false }
    match (s.core core).matQueue.head? with
    | some g => completeMat s core g
    | none => s

/-- GANG_RELEASE: if the four cores of the quad are still arrived, every mgang completes and the four mmas run; the joint
operation ends later, in one step. -/
def execGangRelease (die quad : Nat) (s : State) : Out :=
  let cs := quadCores die quad
  if !cs.all fun c => (s.core c).arrived then .next s
  else
    let q := s.core (cs.headD 0)
    let rows := cs.flatMap fun c => (s.core c).latchRows
    let s := cs.foldl (releaseSlice (jointCode s cs) q.latchType q.latchKlen rows) s
    .next (cs.foldl (fun s c => s.later (.matrixCmdComplete c)) s)

/-! Completion (R253, R254). -/

/-- The pointer that PERM names. -/
def matPermPointer (core : Nat) (o : MatOp) : Word :=
  match o.cmd with
  | 0x01 => if matSpace core ⟨o.a, 1, []⟩ = 6 then o.a else o.reg 0
  | 0x0A => o.a
  | 0x08 => o.a
  | 0x09 => o.a
  | _ => if matSpace core ⟨o.a, 2, []⟩ = 6 then o.a else o.reg 2

/-- The ended commands at the head of a queue complete one after the other: an mma that ended with its mgang completes
right after it. -/
def completeHead (core : Nat) : Nat → State → State
  | 0, s => s.later (.matrixCmdStart core)
  | n + 1, s =>
    match (s.core core).matQueue with
    | [] => s
    | o :: _ =>
      if !o.started then s.later (.matrixCmdStart core)
      else if o.err = 6 then
        match journalFree (s.core core) with
        | none => s.later (.matrixCmdComplete core)
        | some e =>
          let p := matPermPointer core o
          completeHead core n (completeMat (recordEngine s core e
            (engineEntry s o.key 4#4 2#3 3#2 (walkBytes (ptrFormat p)) (BitVec.ofNat 64 (addrOf p)) o.a)) core o)
      else completeHead core n (completeMat s core o)

/-- A kill removes commands (R245, R256): each fails with CANCELLED and leaves the queue. -/
def cancelMats (core : Nat) (s : State) (os : List MatOp) : State :=
  os.foldl (fun s o => completeMat (spoilLatch s core o) core { o with err := 10 }) s

/-- The kill of thread k (R247, R256): its queued commands fail, an arrived mgang of it is withdrawn, and the mma behind that
mgang fails with it. An arrived mgang of another thread whose mma is removed is tested again with what then follows it
(log 37, DESIGN CHOICE). -/
def cancelMatrix (s : State) (k : Nat) : State :=
  let core := coreOf k
  let c := s.core core
  let mine := c.matQueue.filter fun o => o.key == k && !o.started
  let head := if c.arrived then c.matQueue.head? else none
  let behind := match head with
    | some g => if g.key = k then (c.matQueue.drop 1).head?.toList.filter fun m => m.key != k else []
    | none => []
  let gone := mine ++ behind
  let pair := head.toList ++ (if c.arrived then (c.matQueue.drop 1).head?.toList else [])
  if gone = [] then s
  else
    let s := if pair.any fun o => gone.any fun x => x.id == o.id then
        (s.setCore core { c with arrived := false }).later (.matrixCmdStart core)
      else s
    cancelMats core s gone

/-- The head of a core's queue is the mma of a released gang: one that ends otherwise, with SEQ or with its mgang, has ended
with code 8, or leaves together with the mgang before it. -/
def jointHead (s : State) (core : Nat) : Bool :=
  ((s.core core).matQueue.head?).any fun o => o.started && isMma o.cmd && o.err != 8

/-- A slice has to wait for a free journal entry. -/
def sliceWaits (s : State) (core : Nat) : Bool :=
  ((s.core core).matQueue.head?).any fun o => o.err == 6 && (journalFree (s.core core)).isNone

/-- MATRIX_CMD_COMPLETE (R253): a PERM failure enters the journal first, and waits for a free entry. The slices of a gang
complete in one step (R247). -/
def execMatrixCmdComplete (core : Nat) (s : State) : Out :=
  let slices := (quadCores (dieOf core) (quadOf core)).filter (jointHead s)
  if !slices.contains core then .next (completeHead core 2 s)
  else if slices.any (sliceWaits s) then .next (s.later (.matrixCmdComplete core))
  else .next (slices.foldl (fun s c => completeHead c 1 s) s)

/-! Instructions (R243, R255). -/

/-- A matrix command issued by the thread whose opportunity it is. -/
def matrixOp (i : Instr) (cmd : Nat) (a b : Reg) (s : State) : Out :=
  issue i s fun s =>
    finishCommand s (matrixCommand s s.cur cmd (readReg s s.cur a) (readReg s s.cur b) 0#32 (forkOf s s.cur)
      (s.core (coreOf s.cur)).rseed)

/-- R246 mgath. -/
def execMgath (a b : Reg) (s : State) : Out := matrixOp (.mgath a b) 0x01 a b s

/-- R247 mgang. -/
def execMgang (s : State) : Out := matrixOp .mgang 0x02 10#5 10#5 s

/-- R250 mzero. -/
def execMzero (a : Reg) (s : State) : Out := matrixOp (.mzero a) 0x08 a 10#5 s

/-- R252 mdrain: it takes a counter value (R243). -/
def execMdrain (a b : Reg) (s : State) : Out :=
  issue (.mdrain a b) s fun s =>
    finishCounted s (matrixCommand s s.cur 0x09 (readReg s s.cur a) (readReg s s.cur b) (s.thr s.cur).seq
      (forkOf s s.cur) (s.core (coreOf s.cur)).rseed)

/-- R251 mband. -/
def execMband (a : Reg) (s : State) : Out := matrixOp (.mband a) 0x0A a 10#5 s

/-- R249 mma.f4. -/
def execMmaF4 (a b : Reg) (s : State) : Out := matrixOp (.mmaF4 a b) 0x10 a b s

/-- R249 mma.f8. -/
def execMmaF8 (a b : Reg) (s : State) : Out := matrixOp (.mmaF8 a b) 0x11 a b s

/-- R249 mma.bf16. -/
def execMmaBf16 (a b : Reg) (s : State) : Out := matrixOp (.mmaBf16 a b) 0x12 a b s

/-- R249 mma.i8. -/
def execMmaI8 (a b : Reg) (s : State) : Out := matrixOp (.mmaI8 a b) 0x13 a b s

/-- The matrix busy count of a thread. -/
def matrixBusy (s : State) (k : Nat) : Nat := ((s.core (coreOf k)).matQueue.filter fun o => o.key == k).length

/-- R255 mwait. -/
def execMwait (d a : Reg) (lk : BitVec 4) (s : State) : Out :=
  issue (.mwait d a lk) s fun s => finishEvent s (.mwait d a lk) d false (readReg s s.cur a) 0#64

/-- The event of mwait; its close reads MSTATUS, and clears it if a[0]. -/
def mwaitEvent (s : State) (k : Nat) (w : Window) : Option Result :=
  if matrixBusy s k = 0 then some (.mstatus (w.a.getLsbD 0)) else none

end Sys2Proof.Machine
end

