-- ==== Sys2Proof/Machine/Meadow.lean ====
section
/-! DEFINITION. The Meadow (12 R258 to R278): plots, the controller, settling, samples and their certified bounds,
saturation, calibration. Amplitudes are integers in units of 2^-32 full scale; what the real network and converter add to the
programmed ones are free values (log 3, 4, DESIGN CHOICE). -/

namespace Sys2Proof.Machine

def State.plot (s : State) (die p : Nat) : Plot := tabGet Plot.reset (s.die die).plots p
def State.setPlot (s : State) (die p : Nat) (x : Plot) : State :=
  s.setDie die { s.die die with plots := tabSet (s.die die).plots p x }

/-! The programmed network (R261, R262). -/

def plotIntegrators (x : Plot) : Nat := if x.join then 128 else 64
def plotMultipliers (x : Plot) : Nat := if x.join then 512 else 256

def sourceONE : Nat := 0xFE
def routeNone : Nat := 0xFF

/-- A multiplier's coefficient code as an integer. -/
def codeInt (v : Nat) : Int := signedBits 12 v

/-- Integrator i is in use: some multiplier has source x_i or destination i. -/
def usesIntegrator (x : Plot) (i : Nat) : Bool := x.routes.any fun r => r.2.1 == i || r.2.2 == i

def usedSet (x : Plot) : List Nat := (upTo (plotIntegrators x)).filter (usesIntegrator x)

/-- 2048 × K_ij (R262). -/
def kSum (x : Plot) (i j : Nat) : Int :=
  ((x.routes.filter fun r => r.2.1 == j && r.2.2 == i).map fun r => codeInt (tabGet 0 x.codes r.1)).foldl (· + ·) 0

/-- The margin of row i. -/
def rowMargin (x : Plot) (used : List Nat) (i : Nat) : Int :=
  -(kSum x i i) - (((used.filter (· != i)).map fun j => ((kSum x i j).natAbs : Int)).foldl (· + ·) 0)

def leastOf : List Int → Int
  | [] => 0
  | [v] => v
  | v :: vs => min v (leastOf vs)

/-- DMARG and the set in use, recomputed (R262). -/
def Plot.recomputed (x : Plot) : Plot :=
  let used := usedSet x
  { x with inUse := used, dmarg := leastOf (used.map (rowMargin x used)) }

/-! The exact settled state (R263): the one solution of K x = -k. -/

/-- A row p, r of a system of equations, its right side last, eliminates the first unknown of another row. -/
def eliminate (p : Rat) (r : List Rat) : List Rat → List Rat
  | [] => []
  | q :: t => (t.zip r).map fun x => x.1 - q / p * x.2

/-- The solution of n equations, each the coefficients of its unknowns and then its right side. Under strict dominance no
first coefficient becomes 0. -/
def solve : Nat → List (List Rat) → List Rat
  | n + 1, (p :: r) :: rows =>
    let xs := solve n (rows.map (eliminate p r))
    ((r.getLastD 0 - ((r.zip xs).map fun x => x.1 * x.2).sum) / p) :: xs
  | _, _ => []

/-- x* at integrator i, in full scale (R263). -/
def settled (x : Plot) (i : Nat) : Rat :=
  let row := fun (j : Nat) => x.inUse.map (fun k => (kSum x j k : Rat)) ++ [-(kSum x j sourceONE : Rat)]
  (solve x.inUse.length (x.inUse.map row)).getD (x.inUse.idxOf i) 0

/-! The amplitudes (R261). -/

/-- ONE, and the 1.25 full scale of R277. -/
def fullScale : Int := 2 ^ 32
def saturated (v : Int) : Bool := decide (5 * 2 ^ 30 ≤ v.natAbs)

/-- The value within b of 0 that is nearest to v. -/
def withinAbs (b : Nat) (v : Int) : Int := max (-(b : Int)) (min b v)

/-- An error of the real network: the figure of the last calibration bounds it (R271, R276); before the first, nothing does. -/
def Plot.error (x : Plot) (figure : Nat) (v : Int) : Int := if x.calValid then withinAbs (figure * 2 ^ 12) v else v

/-- A source: ONE, or the state of an integrator. -/
def Plot.source (x : Plot) (j : Nat) : Int := if j = sourceONE then fullScale else tabGet 0 x.states j

/-- y_i: the gain times the sum of the multipliers whose destination is i (R261). -/
def Plot.summer (x : Plot) (n i : Nat) : Int :=
  2 ^ x.gain * ((((x.routes.filter fun r => r.2.2 == i).map fun r =>
    codeInt (tabGet 0 x.codes r.1) * x.source r.2.1).sum) / 2048) + x.error (x.eta.toNat * 2 ^ x.gain) (Config.summerError n i)

/-- The greatest magnitude of a summer's output. -/
def Plot.steepest (x : Plot) (n : Nat) : Nat := (x.inUse.map fun i => (x.summer n i).natAbs).foldl max 0

/-- How far one ns of dx/dt = y / τ takes an integrator from the straight line y / τ. At most 8 multipliers of at most 1 feed a
summer (R261), so that y changes at most 8 G times as fast as the states; the movement is then within 8 G / τ of the steepest one,
and the error of the network, which may change within the ns, and the rounding come to it. -/
def Plot.bend (x : Plot) (n : Nat) : Nat :=
  let tau := 250 * 2 ^ x.tau
  8 * 2 ^ x.gain * x.steepest n / (tau * tau) + x.eta.toNat * 2 ^ (13 + x.gain) / tau + 3

/-- One ns of dx_i/dt = y_i / τ, where τ is 250 × 2^TAU ns (R261, R269). -/
def Plot.moved (x : Plot) (n : Nat) : Plot :=
  { x with states := x.inUse.foldl (fun t i =>
      tabSet t i (tabGet 0 x.states i + x.summer n i / (250 * 2 ^ x.tau) + withinAbs (x.bend n) (Config.drift n i))) x.states }

/-- What saturates (R277): whether it is a summer, and its index. -/
def Plot.excess (x : Plot) (n : Nat) : List (Bool × Nat) :=
  (x.inUse.filter fun i => saturated (tabGet 0 x.states i)).map (false, ·) ++
    (x.inUse.filter fun i => saturated (x.summer n i)).map (true, ·)

/-- Every in-use integrator has |dx_i/dt| = |y_i| / τ below THR × 2^-20 full scale per µs (R271). -/
def Plot.below (x : Plot) (n thr : Nat) : Bool := x.inUse.all fun i => decide ((x.summer n i).natAbs < thr * 2 ^ (10 + x.tau))

/-- The integrators take their initial values (R268, R270). -/
def Plot.loaded (x : Plot) : Plot := { x with states := x.inits.map fun v => (v.1, codeInt v.2 * 2 ^ 21) }

/-! Waiters (R271, R272). -/

/-- Every waiter of a list returns a status. -/
def wakePlot (s : State) (status : Nat) : List PlotWaiter → State
  | [] => s
  | w :: ws => wakePlot (arrive s w.key w.wid (.one (BitVec.ofNat 64 status))) status ws

/-- All waiters of a plot wake with a status, and the plot is left as x without them. -/
def wakeAll (s : State) (die p : Nat) (x : Plot) (status : Nat) : State :=
  wakePlot (s.setPlot die p { x with waiters := [] }) status x.waiters

def stSETTLED : Nat := 0
def stTIMEOUT : Nat := 1
def stSATURATED : Nat := 2
def stNOTRUN : Nat := 3
def stSTOPPED : Nat := 4
def stNONE : Nat := 15

/-- The hold windows of the waiters restart. -/
def Plot.restarted (x : Plot) : Plot := { x with waiters := x.waiters.map fun w => { w with run := 0 } }

/-- A reset of the plot (R270); clr clears its configuration. -/
def Plot.discharged (x : Plot) (clr : Bool) : Plot :=
  let x := { x with state := .idle, satpend := false, settle := stNONE, dmarg := 0, states := [] }
  if clr then { x with routes := [], codes := [], inits := [], tau := 0, gain := 0, inUse := [] } else x

/-! MPLOT (R259). -/

/-- A write that MPLOTp refuses. -/
def mplotRefused (s : State) (die p : Nat) (v : Word) : Bool :=
  let odd := p % 2 == 1
  (v.getLsbD 30 && odd) ||
    (v.getLsbD 30 && (s.plot die (p + 1)).valid) ||
    (v.getLsbD 31 && odd && (s.plot die (p - 1)).join)

def mplotWord (x : Plot) : Word :=
  BitVec.ofNat 64 ((if x.valid then 2 ^ 31 else 0) + (if x.join then 2 ^ 30 else 0) + x.asid.toNat)

/-- One plot reset by an MPLOT write: its waiters wake with STOPPED. -/
def mplotReset (s : State) (die p : Nat) : State :=
  let x := s.plot die p
  wakeAll s die p { x.discharged true with writes := x.writes + 1 } stSTOPPED

/-- MPLOT_WRITE (R259): the plot, and its partner when JOIN changes, are reset with CLR. -/
def writeMplot (s : State) (die p : Nat) (v : Word) : State :=
  let change := (s.plot die p).join != v.getLsbD 30
  let s := mplotReset s die p
  let s := s.setPlot die p { s.plot die p with
    valid := v.getLsbD 31, join := v.getLsbD 30, asid := v.extractLsb' 0 16 }
  if change then mplotReset s die (p + 1) else s

def execMplotWrite (die p : Nat) (v : Word) (s : State) : Out := .next (writeMplot s die p v)

/-- Ownership by a thread of the context on a compute core (R260). -/
def ownsPlot (s : State) (asid : BitVec 16) (die p : Nat) : Bool :=
  let x := s.plot die p
  x.valid && x.asid == asid && !(p % 2 == 1 && (s.plot die (p - 1)).join)

/-- The MPLOT writes that the plot and its joined partner have had. -/
def plotWrites (s : State) (die p : Nat) : Nat × Nat :=
  ((s.plot die p).writes, if (s.plot die p).join then (s.plot die (p + 1)).writes else 0)

/-! Operand checks that do not depend on the plot (R265, R268, R269, R271, R273). -/

/-- Bits of a outside the fields of a mask. -/
def fieldBits (a mask : Word) : Bool := (a &&& ~~~mask) == 0#64

def meadowFirst (a : Word) : Nat := bitsAt a 16 9
def meadowCount (a : Word) : Nat := bitsAt a 8 2 + 1
def meadowField (b : Word) (j : Nat) : Nat := bitsAt b (16 * j) 16

/-- The bits of b above the last field are 0. -/
def upperZero (a b : Word) : Bool := b.toNat / 2 ^ (16 * meadowCount a) == 0

def routeListed (f : Nat) : Bool :=
  let src := f % 256
  let dst := f / 256
  (src < 128 || src == sourceONE || src == routeNone) && (dst < 128 || dst == routeNone)

/-- The a bits each instruction uses, and its own operand rules. -/
def meadowOperands (op : MeadowOp) (a b : Word) : Bool :=
  match op with
  | .cfg => fieldBits a 0x01FF0307#64 && upperZero a b && ((upTo (meadowCount a)).all fun j => routeListed (meadowField b j))
  | .coef => fieldBits a 0x11FF0307#64 && upperZero a b && ((upTo (meadowCount a)).all fun j => decide (meadowField b j < 4096))
  | .scale => fieldBits a 7#64 && b.toNat / 64 == 0 && !b.getLsbD 3 && bitsAt b 0 3 != 7
  | .run => fieldBits a 0x1007#64
  | .hold => fieldBits a 7#64
  | .reset => fieldBits a 0x1007#64
  | .stat _ => fieldBits a 0x37#64
  | .settle _ => fieldBits a 7#64 && bitsAt b 52 12 == 0 && bitsAt b 0 16 != 0 && bitsAt b 16 16 != 0 && bitsAt b 32 20 != 0
  | .sample _ => fieldBits a 7#64 && bitsAt b 7 57 == 0

/-- The routes after an acfg's fields, each applied to its multiplier. -/
def setRoutes (routes : Tab (Nat × Nat)) (b : Word) (first : Nat) : List Nat → Tab (Nat × Nat)
  | [] => routes
  | j :: js =>
    let f := meadowField b j
    let rest := routes.filter fun r => r.1 != first + j
    setRoutes (if f = 0xFFFF then rest else rest ++ [(first + j, (f % 256, f / 256))]) b first js

/-- The values after an acoef's fields. -/
def setValues (t : Tab Nat) (b : Word) (first : Nat) : List Nat → Tab Nat
  | [] => t
  | j :: js => setValues (tabSet t (first + j) (meadowField b j)) b first js

/-- The checks of acfg and acoef that depend on the plot as it stands (R268). -/
def fieldsFit (x : Plot) (op : MeadowOp) (a b : Word) : Bool :=
  let first := meadowFirst a
  let n := meadowCount a
  match op with
  | .cfg =>
    decide (first + n ≤ plotMultipliers x) &&
      ((upTo n).all fun j =>
        let f := meadowField b j
        (f % 256 < plotIntegrators x || sourceONE ≤ f % 256) && (f / 256 < plotIntegrators x || f / 256 == routeNone)) &&
      (let rs := setRoutes x.routes b first (upTo n)
       (upTo (plotIntegrators x)).all fun i => decide ((rs.filter fun r => r.2.2 == i).length ≤ 8))
  | .coef => decide (first + n ≤ if a.getLsbD 28 then plotIntegrators x else plotMultipliers x)
  | _ => true

/-! Issue (R264 to R266, R277). -/

/-- A Meadow instruction at issue: the trap of an operand, the MEADOW trap of SATPEND, or the request on its way. -/
inductive MeadowIssue where
  | operand
  | saturated (plot : Nat)
  | send (r : MeadowReq)

/-- The MEADOW trap waits for an instruction that passes all its checks: with SATPEND set those that depend on the routes in
force are made at issue (R268, R277; log 38, DEDUCED). -/
def meadowIssue (s : State) (k : Nat) (op : MeadowOp) (a b : Word) (alone : Bool) : MeadowIssue :=
  let die := dieOf (coreOf k)
  let p := bitsAt a 0 3
  let x := s.plot die p
  let asid := (s.thr k).asid
  let beyond := match op with
    | .sample _ => decide (plotIntegrators x ≤ bitsAt b 0 7)
    | _ => false
  if isSystem (coreOf k) || !ownsPlot s asid die p || !meadowOperands op a b || beyond then .operand
  else if x.satpend then (if fieldsFit x op a b then .saturated p else .operand)
  else .send { key := k, asid := asid, die := die, plot := p, op := op, a := a, b := b, writes := plotWrites s die p,
               alone := alone }

def clearSatpend (s : State) (die p : Nat) : State := s.setPlot die p { s.plot die p with satpend := false }

/-- A Meadow instruction of the thread whose opportunity it is: the checks, then go with the request. -/
def meadowGo (s : State) (op : MeadowOp) (a b : Word) (go : MeadowReq → Out) : Out :=
  let k := s.cur
  match meadowIssue s k op a b false with
  | .operand => finishTrap s kindADDRESS 0 a
  | .saturated p => finishTrap (clearSatpend s (dieOf (coreOf k)) p) kindMEADOW p 0#64
  | .send r => go r

/-- A command that the thread waits for before it has issued (R266, R268). -/
def meadowCommand (i : Instr) (op : MeadowOp) (d : Reg) (a b : Reg) (s : State) : Out :=
  issue i s fun s =>
    meadowGo s op (readReg s s.cur a) (readReg s s.cur b) fun r =>
      .next ((s.setThr s.cur { s.thr s.cur with hold := .answer d }).later (.meadowApply r))

/-- The register code that discards (R33). -/
def regZR : Reg := 10#5

/-- R268 acfg. -/
def execAcfg (a b : Reg) (s : State) : Out := meadowCommand (.acfg a b) .cfg regZR a b s

/-- R268 acoef. -/
def execAcoef (a b : Reg) (s : State) : Out := meadowCommand (.acoef a b) .coef regZR a b s

/-- R269 ascale. -/
def execAscale (a b : Reg) (s : State) : Out := meadowCommand (.ascale a b) .scale regZR a b s

/-- R270 arun. -/
def execArun (a : Reg) (s : State) : Out := meadowCommand (.arun a) .run regZR a regZR s

/-- R270 ahold. -/
def execAhold (a : Reg) (s : State) : Out := meadowCommand (.ahold a) .hold regZR a regZR s

/-- R270 areset. -/
def execAreset (a : Reg) (s : State) : Out := meadowCommand (.areset a) .reset regZR a regZR s

/-- R276 astat. -/
def execAstat (d a : Reg) (s : State) : Out := meadowCommand (.astat d a) (.stat d) d a regZR s

/-! The controller's step (R266 to R273, R276). -/

def stateCode : PlotState → Nat
  | .idle => 0 | .running => 1 | .held => 2 | .saturated => 3

/-- astat's report (R276). -/
def astatWord (s : State) (die p sel : Nat) : Word :=
  let x := s.plot die p
  let bit := fun (b : Bool) (n : Nat) => if b then 2 ^ n else 0
  match sel with
  | 0 => BitVec.ofNat 64 ((x.dmarg % 2 ^ 16).toNat * 2 ^ 48 + x.inUse.length * 2 ^ 40 + x.settle * 2 ^ 24 +
      bit (s.die die).blocked 16 + bit x.satpend 15 + stateCode x.state * 2 ^ 12 + bit x.satsum 7 + x.satix)
  | 1 => BitVec.ofNat 64 (x.ea.toNat * 2 ^ 32 + x.eta.toNat * 2 ^ 16 + bit x.calFault 2 + bit x.stale 1 +
      bit x.calValid 0)
  | 2 => x.tset
  | _ => x.theld

/-- A write of routes, codes or scales applied (R270). -/
def Plot.written (x : Plot) : Plot :=
  match x.state with
  | .running => ({ x.recomputed with settle := stNONE }).restarted
  | .held => { x.recomputed with settle := stNONE }
  | _ => x

/-- The plot with an instruction that changes its configuration. -/
def Plot.configured (x : Plot) (op : MeadowOp) (a b : Word) : Plot :=
  let n := upTo (meadowCount a)
  match op with
  | .cfg => ({ x with routes := setRoutes x.routes b (meadowFirst a) n }).written
  | .coef =>
    if a.getLsbD 28 then ({ x with inits := setValues x.inits b (meadowFirst a) n }).written
    else ({ x with codes := setValues x.codes b (meadowFirst a) n }).written
  | .scale => ({ x with tau := bitsAt b 0 3, gain := bitsAt b 4 2 }).written
  | _ => x

/-- arun applied (R270): the integrators start from their initial values, or with RELOAD = 0 go on from their held states. -/
def Plot.released (x : Plot) (reload : Bool) : Plot :=
  let run := fun (x : Plot) => { x.recomputed with settle := stNONE, state := .running }
  match x.state with
  | .idle => run x.loaded
  | .held => run (if reload then x.loaded else x)
  | _ => x

/-- The state lay outside the converter's range (R273). -/
def clipped (v : Int) : Bool := decide (v < -fullScale) || decide (fullScale - 2 ^ 19 < v)

/-- The exact bound e of a sample (R273) as a fraction; none: +∞. -/
def sampleBound (s : State) (x : Plot) (i : Nat) : Option (Nat × Nat) :=
  if x.state != .held || x.settle != stSETTLED || decide (x.dmarg ≤ 0) || clipped (tabGet 0 x.states i) ||
      !x.inUse.contains i || x.calFault || x.stale || decide (10000000 < (s.time - x.freeze).toNat) then none
  else
    let ea := max x.eaThen.toNat x.ea.toNat
    let eta := max x.etaThen.toNat x.eta.toNat
    let thr := bitsAt x.theld 0 16
    -- in units of 2^-22 full scale: tau × theta / G = 2^TAU × THR / 2^GAIN, each of the others times 4
    let num := 2 ^ x.tau * thr + 4 * eta * 2 ^ x.gain
    let den := 2 ^ x.gain * x.dmarg.toNat
    -- e = (2^8 + 4 EA + 2048 × num / den) × 2^-22
    some ((256 + 4 * ea) * den + 2048 * num, den * 2 ^ 22)

/-- e as FP32 bits, rounded up. -/
def boundCode : Option (Nat × Nat) → Nat
  | none => 0x7F800000
  | some e => (roundTo .fp32 ⟨3#3, 0#32⟩ (.fin false (.rat e.1 e.2))).1

/-- The converter's code for the state of integrator i, before any bound is looked at; a discharged plot reads 0. -/
def adcCode (x : Plot) (die p i : Nat) : Int :=
  if x.state = .idle then 0
  else
    let v := tabGet 0 x.states i
    max (-8192) (min 8191 ((v + x.error x.ea.toNat (Config.adcError die p i v) + 2 ^ 18) / 2 ^ 19))

/-- The code nearest to n whose value n × 2^-13 lies within e of x* (R274), among those of the converter (R273). -/
def certifiedCode (x : Plot) (i : Nat) (n : Int) : Option (Nat × Nat) → Int
  | none => n
  | some e =>
    let b : Rat := e.1 / e.2
    max (-8192) (min 8191 (max ((settled x i - b) * 2 ^ 13).ceil (min ((settled x i + b) * 2 ^ 13).floor n)))

/-- The pair of a sample (R273): the converter's code, which a finite bound certifies (R274), and the bound. -/
def samplePair (s : State) (x : Plot) (die p i : Nat) : Word × Word :=
  let e := sampleBound s x i
  let n := certifiedCode x i (adcCode x die p i) e
  let v := (roundTo .fp32 nearest (.fin (decide (n < 0)) (.rat n.natAbs (2 ^ 13)))).1
  (BitVec.ofNat 64 v, BitVec.ofNat 64 (boundCode e))

/-- The thread goes on after a command: the command has issued now, and d is written if it is an astat. -/
def meadowDone (s : State) (r : MeadowReq) (v : Word) : State :=
  let t := s.thr r.key
  match r.alone, t.hold with
  | false, .answer d => retire (writeReg (s.setThr r.key { t with hold := .none }) r.key d v) r.key
  | _, _ => s

/-- An acfg or acoef that does not fit is not applied: the exact trap of R268. -/
def meadowRefused (s : State) (r : MeadowReq) : State :=
  if r.alone then s else exactTrap (s.setThr r.key { s.thr r.key with hold := .none }) r.key kindADDRESS 0 r.a

/-- What an instruction that the controller does not apply gives (R266). -/
def meadowVoid (s : State) (r : MeadowReq) : State :=
  match r.op with
  | .settle w => arrive s r.key w (.one (BitVec.ofNat 64 stSTOPPED))
  | .sample w => arrive s r.key w (.two 0#64 0x7F800000#64)
  | _ => meadowDone s r 0#64

/-- asettle reaches the plot (R270, R271). -/
def startSettle (s : State) (r : MeadowReq) (w : Nat) : State :=
  let x := s.plot r.die r.plot
  let give := fun (n : Nat) => arrive s r.key w (.one (BitVec.ofNat 64 n))
  match x.state with
  | .idle => give stNOTRUN
  | .saturated => give stSATURATED
  | .held => give (if x.settle = stSETTLED then stSETTLED else stNOTRUN)
  | .running => s.setPlot r.die r.plot { x with waiters := x.waiters ++ [⟨r.key, w, r.b, 0, 0⟩] }

/-- An instruction that passed the checks is applied. -/
def meadowApplied (s : State) (r : MeadowReq) : State :=
  let x := s.plot r.die r.plot
  match r.op with
  | .settle w => startSettle s r w
  | .sample w => let v := samplePair s x r.die r.plot (bitsAt r.b 0 7); arrive s r.key w (.two v.1 v.2)
  | .stat _ => meadowDone s r (astatWord s r.die r.plot (bitsAt r.a 4 2))
  | .run => meadowDone (s.setPlot r.die r.plot (x.released (r.a.getLsbD 12))) r 0#64
  | .hold =>
    match x.state with
    | .running => meadowDone (wakeAll s r.die r.plot { x with
        state := .held, settle := stNONE, freeze := s.time, tset := s.time } stSTOPPED) r 0#64
    | _ => meadowDone s r 0#64
  | .reset => meadowDone (wakeAll s r.die r.plot (x.discharged (r.a.getLsbD 12)) stSTOPPED) r 0#64
  | op =>
    if fieldsFit x op r.a r.b then meadowDone (s.setPlot r.die r.plot (x.configured op r.a r.b)) r 0#64
    else meadowRefused s r

/-- The controller takes one instruction (R266): it checks the ownership again, and the MPLOT writes. A retired die takes
none (R492). -/
def meadowTaken (s : State) (r : MeadowReq) : State :=
  if s.dieRetired r.die then s
  else if !ownsPlot s r.asid r.die r.plot || plotWrites s r.die r.plot != r.writes then meadowVoid s r
  else meadowApplied s r

/-- An instruction reaches the controller; during a calibration block it waits there, in the order of arrival (R278). -/
def meadowReaches (s : State) (r : MeadowReq) : State :=
  let d := s.die r.die
  if d.blocked then s.setDie r.die { d with blockHeld := d.blockHeld ++ [r] } else meadowTaken s r

/-- MEADOW_APPLY (R266). -/
def execMeadowApply (r : MeadowReq) (s : State) : Out := .next (meadowReaches s r)

/-- The number under which State.ranks keeps a plot (R266). -/
def plotRank (die p : Nat) : Nat := 2 ^ 16 + 8 * die + p

/-- The plot has met the instruction in this ck. -/
def plotMet (s : State) (r : MeadowReq) : State := { s with ranks := tabSet s.ranks (plotRank r.die r.plot) (1 + r.key) }

/-- A Meadow command of thread k that a rep has reissued is on its way. -/
def meadowOf (k : Nat) : Event → Option MeadowReq
  | .meadowApply r => if r.key = k then some r else none
  | _ => none

/-- The Meadow commands of a thread that are on their way reach the controller, in its issue order (R266). -/
def meadowArrives (s : State) (k : Nat) : State :=
  (s.work.filterMap (meadowOf k)).foldl (fun s r => meadowReaches (plotMet s r) r) { s with work := s.work.filter fun e => (meadowOf k e).isNone }

/-- asettle and asample are applied as they issue, behind the commands of their thread that a rep has reissued (R266); in a
calibration block their thread sleeps until its end (R278). -/
def meadowAtIssue (s : State) (r : MeadowReq) (w : Window) : State :=
  let s := meadowArrives s r.key
  let s := retireTo s.tick r.key ((s.thr r.key).pc + 4#64) [w]
  let s := plotMet s r
  let s := if (s.die r.die).blocked then s.setThr r.key { s.thr r.key with hold := .block } else s
  meadowReaches s r

/-- R271 asettle. -/
def execAsettle (d a b : Reg) (lk : BitVec 4) (s : State) : Out :=
  issue (.asettle d a b lk) s fun s =>
    let av := readReg s s.cur a
    let bv := readReg s s.cur b
    meadowGo s (.settle s.nonce) av bv fun r =>
      .next (meadowAtIssue s r (newWindow s d lk true false (.asettle d a b lk) av bv .pending))

/-- R273 asample. -/
def execAsample (d a b : Reg) (lk : BitVec 4) (s : State) : Out :=
  issue (.asample d a b lk) s fun s =>
    let av := readReg s s.cur a
    let bv := readReg s s.cur b
    meadowGo s (.sample s.nonce) av bv fun r =>
      .next (meadowAtIssue s r (newWindow s d lk false false (.asample d a b lk) av bv .pending))

/-- A thread that a calibration block held goes on. -/
def unblockThread (s : State) (k : Nat) : State :=
  let t := s.thr k
  if t.hold = .block then s.setThr k { t with hold := .none } else s

/-- A calibration block ends: the instructions that waited are applied in the order of arrival (R266, R278). -/
def endBlock (s : State) (die : Nat) : State :=
  let d := s.die die
  d.blockHeld.foldl (fun s r => meadowTaken (unblockThread s r.key) r)
    (s.setDie die { d with blocked := false, blockHeld := [] })

/-! What happens at an edge of the shared clock (R270 to R272, R277, R278). -/

/-- SETTLE_FREEZE: a waiter's test has passed, and the plot freezes: the waiters whose hold is complete return SETTLED,
the others STOPPED. The plot records the word with the smallest THR among them. -/
def leastThr : List PlotWaiter → Option PlotWaiter
  | [] => none
  | w :: ws =>
    match leastThr ws with
    | none => some w
    | some v => if bitsAt w.word 0 16 ≤ bitsAt v.word 0 16 then some w else some v

def holdDone (w : PlotWaiter) : Bool := decide (bitsAt w.word 16 16 ≤ w.run)

def execSettleFreeze (die p _key _wid : Nat) (s : State) : Out :=
  let x := s.plot die p
  match x.state, leastThr (x.waiters.filter holdDone) with
  | .running, some w =>
    let y := { x with
      state := .held, settle := stSETTLED, tset := s.time, theld := w.word, freeze := s.time, eaThen := x.ea,
      etaThen := x.eta, waiters := [] }
    .next (wakePlot (wakePlot (s.setPlot die p y) stSETTLED (x.waiters.filter holdDone)) stSTOPPED
      (x.waiters.filter fun w => !holdDone w))
  | _, _ => .next s

/-- A waiter's timeout has been reached. -/
def timedOut (w : PlotWaiter) : Bool := decide (bitsAt w.word 32 20 * 1000 ≤ w.edges)

/-- SETTLE_TIMEOUT: the waiter returns TIMEOUT, and the plot keeps running. -/
def execSettleTimeout (die p key wid : Nat) (s : State) : Out :=
  let x := s.plot die p
  match findFirst (fun (w : PlotWaiter) => w.key == key && w.wid == wid && timedOut w) x.waiters with
  | some w =>
    .next (wakePlot (s.setPlot die p { x with
      settle := stTIMEOUT, tset := s.time, waiters := x.waiters.filter (· != w) }) stTIMEOUT [w])
  | none => .next s

/-- PLOT_SATURATION (R277). -/
def execPlotSaturation (die p : Nat) (sum : Bool) (ix : Nat) (s : State) : Out :=
  let x := s.plot die p
  match x.state with
  | .running =>
    .next (wakeAll s die p { x with
      state := .saturated, satpend := true, settle := stSATURATED, satsum := sum, satix := ix, tset := s.time,
      freeze := s.time } stSATURATED)
  | _ => .next s

/-- CALIBRATION_START (R278): the die's plots are blocked, and the hold windows restart. -/
def execCalibrationStart (die : Nat) (s : State) : Out :=
  let d := s.die die
  .next (s.setDie die { d with blocked := true, plots := d.plots.map fun x => (x.1, x.2.restarted) })

/-- The new figures of one plot; a FAULT is logged in CHKDIE.MFAULT (R465). -/
def calibratePlot (die : Nat) (s : State) (p : Nat) : State :=
  let ea := Config.calEA s.nonce
  let eta := Config.calETA s.nonce
  let bad := decide (64 < ea.toNat) || decide (256 < eta.toNat)
  let s := s.tick.setPlot die p { s.plot die p with ea := ea, eta := eta, calValid := true, stale := false, calFault := bad }
  let d := s.die die
  if bad then (s.setDie die { d with mfault := d.mfault ||| (1#8 <<< p) }).raised (.mfault die p) else s

/-- CALIBRATION_END (R275, R278). -/
def execCalibrationEnd (die : Nat) (s : State) : Out :=
  if !(s.die die).blocked then .next s
  else
    let s := (upTo 8).foldl (calibratePlot die) s
    .next (endBlock (s.setDie die { s.die die with calibrated := s.time }) die)

/-- CALIBRATION_STALE (R278). -/
def execCalibrationStale (die : Nat) (s : State) : Out :=
  .next ((upTo 8).foldl (fun s p => s.setPlot die p { s.plot die p with stale := true }) s)

/-- The waiters of a plot are tested at an edge (R271): those whose hold is complete before those that time out (R272). -/
def testWaiters (die : Nat) (s : State) (p : Nat) : State :=
  let x := s.plot die p
  let ws := x.waiters.map fun w =>
    { w with run := (if x.below s.nonce (bitsAt w.word 0 16) then w.run + 1 else 0), edges := w.edges + 1 }
  let s := s.setPlot die p { x with waiters := ws }
  let s := (ws.filter holdDone).foldl (fun s w => s.now (.settleFreeze die p w.key w.wid)) s
  (ws.filter timedOut).foldl (fun s w => s.now (.settleTimeout die p w.key w.wid)) s

/-- A running plot at an edge: its integrators move, and it may saturate (R277; which of several parts is recorded the
manual does not say: log 4, DESIGN CHOICE); then come the settle tests, unless a block starts (R270). The steps that follow from
the edge are queued in their order. -/
def plotEdge (die : Nat) (starts : Bool) (s : State) (p : Nat) : State :=
  match (s.plot die p).state with
  | .running =>
    let x := (s.plot die p).moved s.nonce
    let s := s.tick.setPlot die p x
    let ex := x.excess s.nonce
    let s := match ex[Config.choice s.nonce % ex.length]? with
      | some (sum, ix) => s.now (.plotSaturation die p sum ix)
      | none => s
    (if starts then s else testWaiters die s p).tick
  | _ => s

/-- The edge of a die at shared-clock count T: calibration, then the plots unless they are blocked. The start of a block
comes after saturation and before the settle tests (R270). -/
def meadowEdge (s : State) (die : Nat) : State :=
  let t := s.time.toNat
  let at0 := (t + 10000000 - 2500000 * die) % 10000000
  let d := s.die die
  let s := if decide (d.calibrated.toNat + 20000000 ≤ t) && (upTo 8).any fun p => !(s.plot die p).stale
    then s.now (.calibrationStale die) else s
  if d.blocked then (if at0 = 20000 then s.now (.calibrationEnd die) else s)
  else
    let starts := at0 == 0
    let s := (upTo 8).foldl (plotEdge die starts) s
    if starts then s.now (.calibrationStart die) else s

end Sys2Proof.Machine
end

