-- ==== Sys2Proof/Machine/Group.lean ====
section
/-! DEFINITION. Groups (15 R321 to R324), thread names, messages and dead letters (R325 to R335), the group instructions
(R336 to R340), and levelling (R341 to R343). -/

namespace Sys2Proof.Machine

/-- The lowest free entry of a die's table. -/
def freeGroup (s : State) (die : Nat) : Option Nat :=
  findFirst (fun i => (tabGet Group.reset (s.die die).groups i).state == .free) (upTo 1024)

/-- A group's entry in use (R321, R379, R388): DHEIR, AREA and ARRN start anew. -/
def newGroup (gen : BitVec 4) (asid : BitVec 16) (whole msgirq : Bool) (live home : Nat) (kernel : Option Nat) : Group :=
  { Group.reset with
    state := .active, gen := gen, used := true, asid := asid, whole := whole, msgirq := msgirq, live := live,
    home := home, kernel := kernel }

/-! Handler events (R189). -/

/-- A handler event of a kind enters a compute core's queue, or is lost. -/
def enterHev (s : State) (core kind info : Nat) : State :=
  let c := s.core core
  if isSystem core then s
  else if 32 ≤ c.hevq.length then s.setCore core { c with hevLost := true }
  else
    let w := BitVec.ofNat 64 (kind * 2 ^ 60 + (if c.hevLost then 2 ^ 59 else 0) + info % 2 ^ 59)
    s.setCore core { c with hevq := c.hevq ++ [w], hevLost := false }

/-! Threads of a group. -/

/-- A thread that has not ended. -/
def Thread.lives (t : Thread) : Bool := t.sstate != .empty && t.sstate != .ended

/-- A user slot of a compute core. -/
def userKey (k : Nat) : Bool := !isSystem (coreOf k) && decide (slotOf k < 7)

/-- The keys of a group's live threads in slots. -/
def groupKeys (s : State) (g : BitVec 16) : List Nat :=
  (s.threads.filter fun x => userKey x.1 && x.2.lives && x.2.group == g).map (·.1)

/-- Steps under way that will answer a thread (R338, R432). -/
def answersTo (k : Nat) : Event → Bool
  | .groupKillArrival key _ _ _ => key == k
  | .killThreadArrival key _ _ _ => key == k
  | .slotwRequest key _ _ _ => key == k
  | .qcfgRequest key _ _ _ _ => key == k
  | .ctxsaveRequest r => r.key == k
  | .saveImageWrite r => r.key == k
  | .ctxloadRequest r => r.key == k
  | .meadowApply r => r.key == k && !r.alone
  | .giveRequest r => r.key == k
  | .giveEvent r => r.key == k
  | .answerArrival _ key _ _ => key == k
  | _ => false

/-- A migration packet of a thread is under way (R301). -/
def packetOf (k : Nat) : Event → Bool
  | .migrationPacketArrival p _ => p.src == k
  | .migrationRefusalReturn p _ => p.src == k
  | _ => false

/-- The migration packet of a thread is in flight, or waits in its destination's queue 3. -/
def inFlight (s : State) (k : Nat) : Bool :=
  s.work.any (packetOf k) || s.cores.any fun x => x.2.packets.any (·.src == k)

/-- Steps that end with the thread: its walk, the send of its packet, its lrws that have not reached their home, its
repetition sequence. -/
def endsWith (k : Nat) : Event → Bool
  | .walkEnd key => key == k
  | .migrationSend key _ _ => key == k
  | .repReissue key => key == k
  | .remoteRequestArrival r => r.key == k && r.op == .lrw
  | _ => false

/-! The end of a thread (R323, R324, R338). -/

/-- LIVE of a group, with the count in its kernel's record (R307, R322). -/
def setLive (s : State) (g : BitVec 16) (n : Nat) : State :=
  let x := s.group g
  let s := s.setGroup g { x with live := n }
  match x.kernel with
  | none => s
  | some ix =>
    let r := s.record (groupDie g) ix
    if r.used && r.group == g then s.setRecord (groupDie g) ix { r with live := n } else s

/-- The kernel of a group drains (R308); a kill gives the cause. -/
def kernelDrains (s : State) (g : BitVec 16) (killed : Bool) : State :=
  match (s.group g).kernel with
  | none => s
  | some ix =>
    let r := s.record (groupDie g) ix
    if r.used && r.group == g && (r.state == .placing || r.state == .running) then
      s.setRecord (groupDie g) ix { r with state := .draining, cause := if killed then 1 else r.cause }
    else s

/-- The group begins to drain: conveyance follows (R381), and the end at an edge (R314). -/
def startDraining (s : State) (g : BitVec 16) (killed : Bool) : State :=
  (kernelDrains (s.setGroup g { s.group g with state := .draining, killed := killed }) g killed).later (.conveyanceStart g)

/-- A thread of a group has ended: LIVE of a DRAINING group falls, an ACTIVE one takes the act at its next edge (R323). -/
def memberEnds (s : State) (g : BitVec 16) (a : GroupAct) : State :=
  let x := s.group g
  if !s.groupHeld g then s
  else if x.state == .active then s.setGroup g { x with acts := x.acts ++ [a] }
  else setLive s g (x.live - 1)

/-- The list entry of a cancelled operation (R388). -/
def cancelledEntry (eng bytes : Nat) (w : Word) : Word × Word :=
  (BitVec.ofNat 64 (8 * 2 ^ 60 + eng * 2 ^ 48 + bytes % 2 ^ 48), w)

/-- What a thread's cancelled operations enter in their group's list, with their issue numbers. -/
def cancelledOps (s : State) (k : Nat) : List (Nat × Word × Word) :=
  let c := s.core (coreOf k)
  ((c.vecQueue.filter fun o => o.key == k && !o.done).map fun o =>
    (o.id, cancelledEntry 0 0 (BitVec.ofNat 64 (0x100000 + o.block)))) ++
  ((c.reps.filter fun r => r.key == k).map fun r => (r.id, cancelledEntry 5 0 0#64)) ++
  ((c.copies.filter fun o => o.key == k && !o.done).map fun o =>
    (o.id, cancelledEntry 1 ((o.written.map fun x => writtenBytes o x.2).sum) o.obj)) ++
  ((c.matQueue.filter fun o => o.key == k && !o.started).map fun o => (o.id, cancelledEntry 2 0 o.a))

/-- Put an operation into a list in issue order. -/
def insertOp (x : Nat × Word × Word) : List (Nat × Word × Word) → List (Nat × Word × Word)
  | [] => [x]
  | y :: ys => if y.1 ≤ x.1 then y :: insertOp x ys else x :: y :: ys

/-- The engine operations of a thread are cancelled (R223, R239, R256), and its group notes them. -/
def cancelEngines (s : State) (k : Nat) : State :=
  let core := coreOf k
  let g := (s.thr k).group
  let ops := cancelledOps s k
  let s := if s.groupHeld g then
      s.setGroup g { s.group g with cancelled := ops.foldl (fun l x => insertOp x l) (s.group g).cancelled }
    else s
  let s := cancelCopies core s ((s.core core).copies.filter fun o => o.key == k)
  let c := s.core core
  cancelMatrix (s.setCore core { c with
    vecQueue := c.vecQueue.filter fun o => o.key != k || o.done
    reps := c.reps.filter fun r => r.key != k }) k

/-- The reservation-table entries in which a thread still waits leave their queues, everywhere. -/
def leaveQueues (s : State) (k : Nat) : State :=
  let mine := fun (r : Request) => r.key == k
  { s with cores := s.cores.map fun x => (x.1, { x.2 with
      resv := x.2.resv.filter fun e => !(e.waiting.any mine)
      resvHeld := x.2.resvHeld.filter fun r => !mine r }) }

/-- The lrws of a thread that wait or are on their way, by access number. -/
def waitingLrws (s : State) (k : Nat) : List Nat :=
  (s.cores.flatMap fun x => (x.2.resv.filterMap Reservation.waiting ++ x.2.resvHeld).filterMap fun r =>
    if r.key = k then some r.aid else none) ++
  (s.work.filterMap fun e => match e with
    | .remoteRequestArrival r => if r.key = k ∧ r.op = .lrw then some r.aid else none
    | _ => none)

/-- The fault-queue entry of a thread is freed with no release (R415). -/
def dropFault (s : State) (k : Nat) : State :=
  let d := dieOf (coreOf k)
  s.setDie d { s.die d with faults := (s.die d).faults.filter fun e => e.key != k }

/-- What remains of a Meadow instruction whose thread k ends: no waiter and no sample, and no thread waits for a command
(R279). -/
def leftBy (k : Nat) (r : MeadowReq) : Option MeadowReq :=
  if r.key ≠ k then some r
  else match r.op with
    | .settle _ => none
    | .sample _ => none
    | _ => some { r with alone := true }

/-- A thread waits at no barrier object, plot or promise word any more. -/
def dropWaiters (s : State) (k : Nat) : State :=
  { s with
    work := s.work.map fun e => match e with
      | .meadowApply r => .meadowApply ((leftBy k r).getD r)
      | _ => e
    barriers := s.barriers.map fun x => (x.1, { x.2 with waiters := x.2.waiters.filter fun w => w.key != k })
    dies := s.dies.map fun x => (x.1, { x.2 with
      blockHeld := x.2.blockHeld.filterMap (leftBy k)
      plots := x.2.plots.map fun y => (y.1, { y.2 with waiters := y.2.waiters.filter fun w => w.key != k }) })
    awaiters := s.awaiters.filter fun w => w.key != k }

/-- What the end of a thread is for its group. -/
def actOf (t : Thread) : GroupAct := if t.lossCause = 0 then .exit else .loss t.tnum t.lossCause

/-- A thread ends under a kill or a loss (R323, R324): its windows are discarded, its engine work and its waiting lrws
are cancelled, the slot becomes ENDED, and vacates once its accesses have been performed (R338). -/
def endThread (s : State) (k : Nat) : State :=
  let t := s.thr k
  if !t.lives then s
  else
    let s := cancelEngines s k
    let gone := waitingLrws s k
    let s := dropWaiters s k
    let s := leaveQueues { s with work := s.work.filter fun e => !endsWith k e } k
    let s := if t.sstate == .pagewait then dropFault s k else s
    let c := s.core (coreOf k)
    let s := s.setCore (coreOf k) { c with tpend := c.tpend &&& ~~~(1#7 <<< slotOf k) }
    let t := s.thr k
    let s := s.setThr k { t with
      sstate := .ended, windows := [], frozen := [], held := [], posted := [], hold := .none, walk := none, rewalk := none,
      sleep := none, killed := false, outst := t.outst.filter fun o => !gone.contains o.aid }
    (if userKey k then memberEnds s t.group (actOf t) else s).later (.slotVacate k)

/-- Whether a core's residence lets group events act on its threads (R288). -/
def residenceRuns (s : State) (core : Nat) : Bool := (s.core core).residence == .running

/-- A kill reaches one thread of the group (R323): a thread that sleeps or is parked ends at once, a thread in flight or
in a residence that does not run is marked. -/
def killThread (s : State) (k : Nat) : State :=
  let t := s.thr k
  let s := s.setThr k { t with killed := true }
  if !residenceRuns s (coreOf k) || inFlight s k then s
  else if t.sstate != .run || asleep s k || (s.thr k).hold != .none then s.now (.threadEnd k)
  else s

/-- An accepted kill of a group (R323): a kernel still PLACING holds it (R308). -/
def killGroup (s : State) (g : BitVec 16) : State :=
  let held := (s.group g).kernel.any fun ix =>
    let r := s.record (groupDie g) ix
    r.used && r.group == g && r.state == .placing
  if held then
    match (s.group g).kernel with
    | some ix => s.setRecord (groupDie g) ix { s.record (groupDie g) ix with killHeld := true }
    | none => s
  else (groupKeys s g).foldl killThread (startDraining s g true)

/-- MEMBERLOST's INFO (R333). -/
def lostInfo (g tnum : BitVec 16) (cause : Nat) (whole : Bool) : Nat :=
  g.toNat + tnum.toNat * 2 ^ 16 + cause * 2 ^ 32 + (if whole then 2 ^ 35 else 0)

/-- A group takes an act at an edge (R323): LIVE falls; an ACTIVE group notes a loss, and drains with its last thread or,
whole or none, with any. -/
def takeAct (g : BitVec 16) (s : State) (a : GroupAct) : State :=
  let x := s.group g
  let spent := fun (s : State) => if x.live - 1 == 0 then startDraining s g false else s
  if !s.groupHeld g then s
  else
    let s := setLive s g (x.live - 1)
    if x.state != .active then s
    else match a with
      | .exit => spent s
      | .loss tnum cause =>
        let s := enterHev s x.home 3 (lostInfo g tnum cause x.whole)
        if x.whole then killGroup s g else spent (s.setGroup g { s.group g with lost := x.lost + 1 })

/-- What a group takes at a shared-clock edge, losses before exits (R323). -/
def groupEdge (s : State) (g : BitVec 16) : State :=
  let x := s.group g
  let isExit := fun (a : GroupAct) => a == .exit
  (x.acts.filter (!isExit ·) ++ x.acts.filter isExit).foldl (takeAct g) (s.setGroup g { x with acts := [] })

/-- The groups of a die. -/
def dieGroups (s : State) (die : Nat) : List (BitVec 16) :=
  ((s.die die).groups.filter fun x => x.2.state != .free).map fun x => groupNumber die x.1 x.2.gen

/-- A thread is to end as a member loss (R324): causes 1 CHECKER, 2 SSTATE, 3 KILL. One that is already ending keeps its
ending. -/
def markLost (s : State) (k cause : Nat) : State :=
  let t := s.thr k
  if t.killed then s else s.setThr k { t with killed := true, lossCause := cause }

/-- A member loss ends the thread now. -/
def loseNow (s : State) (k cause : Nat) : State := endThread (markLost s k cause) k

/-- A member loss, which is held while the thread's residence does not run or its packet is in flight (R288). -/
def loseThread (s : State) (k cause : Nat) : State :=
  if !residenceRuns s (coreOf k) || inFlight s k then markLost s k cause else loseNow s k cause

/-- THREAD_END (R323): the thread of a killed group meets its ending. -/
def execThreadEnd (k : Nat) (s : State) : Out := .next (endThread s k)

/-! Messages (R325 to R330). -/

/-- The named slot holds a thread of the generation and context. -/
def namedThread (s : State) (n : Nat) (asid : BitVec 16) : Bool :=
  let t := s.thr (nameKey n)
  userKey (nameKey n) && t.lives && t.gen == nameGen n && t.asid == asid && (s.core (nameCore n)).health == .good &&
    !s.dieRetired (dieOf (nameCore n))

/-- The MSG latch bit of a thread, and its pending bit when its group enabled it (R328, R335). -/
def tellThread (s : State) (cls : Nat) (k : Nat) : State :=
  let t := (s.thr k).latched latchMSG
  let irq := s.groupHeld t.group && (s.group t.group).msgirq
  s.setThr k (if irq then { t with uip := t.uip ||| 4#3, argMsg := BitVec.ofNat 64 cls } else t)

def setInbox (c : Core) (cls : Nat) (l : List Msg) : Core := { c with inbox := tabSet c.inbox cls l }

/-- An address in a save area: a lin page of the system context. -/
def areaReach (s : State) (core : Nat) (ea : Nat) (kind : Nat) : Option Place :=
  match engineTranslate s core 0#16 (ea : Int) kind 0#2 with
  | .fail _ => none
  | .at _ p =>
    match homeRefusal s p.home 0#2 0#16 (kind != kindSTORE) p.cell p.cell with
    | some _ => none
    | none => some p

/-- Append an entry to the saved inbox of a save area (R297): none while it is full or cannot be reached. -/
def appendSaved (s : State) (core : Nat) (area : Nat) (m : Msg) : Option State :=
  match areaReach s core (area + 0x48) kindSTORE with
  | none => none
  | some h =>
    let head := readBytes s.mem h.cell 2
    let count := readBytes s.mem (h.cell + 2) 2
    if 256 ≤ count then none
    else match areaReach s core (area + 0x2000 + 64 * ((head + count) % 256)) kindSTORE with
      | none => none
      | some p =>
        some { s.whole p.cell 64 with mem := writeBytes (writeWords s.mem p.cell (msgWords m)) (h.cell + 2) 2 (count + 1) }

/-- The entry at the end of an inbox, with its place in the order of arrival. -/
def enterInbox (s : State) (core cls : Nat) (m : Msg) : State :=
  let c := s.core core
  (s.setCore core (setInbox c cls (inboxOf c cls ++ [{ m with seq := s.nonce }]))).tick

/-- Where an arriving entry ends (R328). -/
inductive Fate where
  | placed (s : State)
  | back
  | stale

/-- An entry of the saved inbox that has found no room yet (R297). -/
def savedBehind (core cls : Nat) : Event → Bool
  | .inboxResend m _ => m.seq != 0 && msgCore m == core && msgClass m == cls
  | _ => false

def placeMessage (s : State) (m : Msg) : Fate :=
  let core := (msgCore m)
  let c := s.core core
  if nameSystem (msgTo m) then
    if 64 ≤ (inboxOf c (msgClass m)).length then .back
    else
      let s := enterInbox s core (msgClass m) m
      .placed (s.setThr (8 * core) ((s.thr (8 * core)).latched latchMSG))
  else if namedThread s (msgTo m) m.asid then
    if m.seq = 0 && s.work.any (savedBehind core (msgClass m)) then .back
    else if admits c (msgClass m) 1 then
      .placed (tellThread (enterInbox s core (msgClass m) m) (msgClass m) (nameKey (msgTo m)))
    else .back
  else match divertOf c m.asid with
    | none => .stale
    | some i =>
      match appendSaved s core ((c.diverts.getD i ⟨false, 0#16, 0#36⟩).addr.toNat * 2 ^ 16) m with
      | some s => .placed s
      | none => .back

/-- An entry at its addressee's core; a refused one stays at the head of its sender's queue, and is sent again no sooner than
64 ck later (R365). -/
def deliver (s : State) (m : Msg) : Out :=
  match placeMessage s m with
  | .placed s => .next s
  | .back => .next (s.sooner (.inboxResend m (if m.seq = 0 then s.ck + 64 else s.ck)))
  | .stale => .next (s.later (.staleResponse m))

/-- MESSAGE_ARRIVAL (R328). -/
def execMessageArrival (m : Msg) (s : State) : Out := deliver s m

/-- INBOX_RESEND (R365): the entry at the head of the sender's outbound queue is sent again. -/
def execInboxResend (m : Msg) (s : State) : Out := deliver s m

/-- Messages in the order of their arrival. -/
def insertBySeq (m : Msg) : List Msg → List Msg
  | [] => [m]
  | x :: xs => if m.seq < x.seq then m :: x :: xs else x :: insertBySeq m xs

/-- The entries of a core's inboxes that have a property, oldest first. -/
def inboxEntries (c : Core) (p : Msg → Bool) : List Msg :=
  ((upTo 3).flatMap fun cls => (inboxOf c cls).filter p).foldl (fun l m => insertBySeq m l) []

/-- The inboxes without those. -/
def inboxWithout (c : Core) (p : Msg → Bool) : Core :=
  (upTo 3).foldl (fun c cls => setInbox c cls ((inboxOf c cls).filter (!p ·))) c

/-- The entries that address a slot's thread are returned as stale, oldest first (R329). -/
def returnStale (s : State) (k : Nat) : State :=
  let name := (nameWord k (s.thr k).gen).toNat
  let c := s.core (coreOf k)
  let mine := fun (m : Msg) => msgTo m == name
  { s.setCore (coreOf k) (inboxWithout c mine) with work := s.work ++ (inboxEntries c mine).map Event.staleResponse }

/-! Threads of a switched-out residence (R287, R291). -/

/-- Where a save area holds a doubleword. -/
def savedCell (s : State) (core area off : Nat) (kind : Nat) : Option Nat := (areaReach s core (area + off) kind).map Place.cell

/-- A save of a core's residence to an area is under way or stands stopped: the threads are in their slots still. -/
def Core.savesTo (c : Core) (area : Word) : Bool :=
  (c.residence == .preempting || c.residence == .migratingOut) && c.area == area

/-- The save areas that hold threads of a context, each with a core: those of the DIVERT entries whose save is complete, and
those of the loads that have not read their image yet (R287, R295, R296). -/
def savedAreas (s : State) (asid : BitVec 16) : List (Nat × Word) :=
  let loading := (s.cores.filter fun x => x.2.residence == .resuming &&
    (savedCell s x.1 x.2.area.toNat 0 kindSTORE).any fun cell =>
      (readWord s.mem cell).extractLsb' 32 16 == asid).map fun x => (x.1, x.2.area)
  let saved := s.cores.flatMap fun x => (upTo 8).filterMap fun i =>
    let d := x.2.diverts.getD i ⟨false, 0#16, 0#36⟩
    let area := BitVec.ofNat 64 (d.addr.toNat * 2 ^ 16)
    if d.valid && d.asid == asid && !x.2.savesTo area && loading.all (·.2 != area) then some (x.1, area) else none
  saved ++ loading

/-- The saved live threads of a context: group, TNUM, and the cell of the record's first doubleword. -/
def savedRecords (s : State) (asid : BitVec 16) : List (BitVec 16 × Nat × Nat) :=
  (savedAreas s asid).flatMap fun x => (upTo 7).filterMap fun j =>
    match savedCell s x.1 x.2.toNat (0x100 + 0x400 * j) kindSTORE with
    | none => none
    | some cell =>
      let w := readWord s.mem cell
      if w.getLsbD 63 && decide (bitsAt w 58 3 < 3) then some (w.extractLsb' 32 16, bitsAt w 16 16, cell) else none

/-- Those of a group. -/
def savedThreads (s : State) (g asid : BitVec 16) : List (Nat × Nat) :=
  ((savedRecords s asid).filter fun x => x.1 == g).map (·.2)

/-- What is kept beside a saved thread's record. -/
def noteSaved (s : State) (asid g tnum : BitVec 16) (f : SavedArgs → SavedArgs) : State :=
  { s with savedArgs := s.savedArgs.map fun x => if x.asid == asid && x.group == g && x.tnum == tnum then f x else x }

/-- A saved thread's record takes event-latch and pending bits, and what p1 will be is noted. -/
def tellSaved (s : State) (g : BitVec 16) (x : Nat × Nat) (latch ip : Word) (f : SavedArgs → SavedArgs) : State :=
  let put := fun (s : State) (off : Nat) (v : Word) =>
    { s with mem := writeWord s.mem (x.2 + off) (readWord s.mem (x.2 + off) ||| v) }
  noteSaved (put (put s 0xA0 latch) 0x68 ip) (s.group g).asid g (BitVec.ofNat 16 x.1) f

/-! Dead letters (R332). -/

/-- The heir at the end of a chain (R380): the group itself when its entry holds it ACTIVE, else the DHEIR of a group
that drains or was freed. -/
def resolveHeir (s : State) : Nat → Option (BitVec 16) → Option (BitVec 16)
  | 0, _ => none
  | _ + 1, none => none
  | n + 1, some h =>
    if s.groupHeld h && (s.group h).state == .active then some h
    else if s.groupHeld h || s.groupLast h then resolveHeir s n (s.group h).dheir
    else none

def countDropped (s : State) (die : Nat) : State :=
  s.setDie die { s.die die with dlcnt := (s.die die).dlcnt + 1#32 }

/-- A saved thread's MSG latch bit, and its pending bit when the group enabled it. -/
def tellSavedMsg (s : State) (g : BitVec 16) (cls : Nat) (x : Nat × Nat) : State :=
  if (s.group g).msgirq then tellSaved s g x 0x800000000#64 0x40#64 fun y => { y with msg := BitVec.ofNat 64 cls }
  else tellSaved s g x 0x800000000#64 0#64 id

/-- A letter enters a group's queue, or is dropped at a full one; its live threads, in slots or saved, learn of it. -/
def fileLetter (s : State) (core : Nat) (g : BitVec 16) (m : Msg) : State :=
  let x := s.group g
  if 8 ≤ x.letters.length then countDropped (s.setGroup g { x with dlovf := true }) (dieOf core)
  else
    let s := s.setGroup g { x with letters := x.letters ++ [m] }
    let s := (groupKeys s g).foldl (fun s k => tellThread s (msgClass m) k) s
    (savedThreads s g x.asid).foldl (fun s y => tellSavedMsg s g (msgClass m) y) s

/-- DEADLETTER's INFO (R333). -/
def letterInfo (m : Msg) : Nat := (msgSender m).toNat + (msgTo m) * 2 ^ 16 + (msgClass m) * 2 ^ 38

/-- From step 2 of R332: the sending group's heir, or the letter is heirless. -/
def passLetter (s : State) (core : Nat) (m : Msg) : State :=
  let next := if s.groupHeld (msgSender m) || s.groupLast (msgSender m) then (s.group (msgSender m)).dheir else none
  match resolveHeir s 4 next with
  | some h => fileLetter s core h m
  | none => enterHev (countDropped s (dieOf core)) core 2 (letterInfo m)

def placeLetter (s : State) (core : Nat) (m : Msg) : State :=
  if isSystem core then countDropped s 0
  else if s.groupHeld (msgSender m) then fileLetter s core (msgSender m) m
  else passLetter s core m

/-- STALE_RESPONSE (R332): the letter comes back to the sending core with DEAD set. -/
def execStaleResponse (m : Msg) (s : State) : Out :=
  .next (placeLetter s m.src { m with w0 := m.w0 ||| 0x8000000#64 })

/-! A slot becomes EMPTY (R288, R329, R338). -/

/-- Whether the residence still has threads: parked slots count as ended (R460). -/
def residenceEmpty (s : State) (core : Nat) : Bool :=
  (upTo 7).all fun j =>
    let t := s.thr (8 * core + j)
    t.sstate == .empty || (t.sstate == .ended && (s.core core).parked.getLsbD j)

/-- The last user thread ends or leaves: RUNNING becomes LOADED (R288). -/
def settleResidence (s : State) (core : Nat) : State :=
  let c := s.core core
  if c.residence == .running && residenceEmpty s core then s.setCore core { c with residence := .loaded } else s

/-- The slot holds no thread any more; its generation stays. -/
def emptySlotNow (s : State) (k : Nat) : State :=
  let s := returnStale s k
  settleResidence (s.setThr k { Thread.empty with gen := (s.thr k).gen }) (coreOf k)

/-- The accesses and engine work of an ended thread are over. -/
def drained (s : State) (k : Nat) : Bool :=
  (s.thr k).outst == [] && enginesIdle s k && !(s.work.any (answersTo k)) && !(s.due.any (answersTo k)) &&
    s.cores.all fun x => x.2.gives.all (·.key != k) && x.2.giveHeld.all (·.key != k)

/-- SLOT_VACATE (R338): a slot whose PARKED bit is set waits until system software clears it (R460). -/
def execSlotVacate (k : Nat) (s : State) : Out :=
  if (s.thr k).sstate != .ended then .next s
  else if !drained s k || (userKey k && (s.core (coreOf k)).parked.getLsbD (slotOf k)) then
    .next (s.later (.slotVacate k))
  else if userKey k then .next (emptySlotNow s k) else .next s

/-! A new thread (R280, R310, R337). -/

/-- The starting state of a thread in a slot: the generation rises, everything but what is given is 0. -/
def startThread (s : State) (k : Nat) (asid group tnum : BitVec 16) (pinned : Bool) (pc : Word)
    (args : List Word) (p8 : Word) : State :=
  let core := coreOf k
  let s := s.setThr k { Thread.empty with
    sstate := .run, gen := (s.thr k).gen + 1#8, pinned := pinned, asid := asid, group := group, tnum := tnum, pc := pc
    p := #v[args.getD 0 0#64, args.getD 1 0#64, args.getD 2 0#64, args.getD 3 0#64, 0#64, 0#64, 0#64, 0#64, p8, 0#64]
    fresh := true }
  s.setCore core { s.core core with residence := .running }

/-- The frame pointer of R310 and R337: a format-0 glob pointer to an A-buffer offset of the core. -/
def framePointer (core off : Nat) : Word := BitVec.ofNat 64 (bufferCell core 1 off - 2 ^ 53)

/-! Instructions (R337 to R340). -/

/-- R338 exit: the slot vacates once its accesses and engine work are over. -/
def execExit (s : State) : Out :=
  issue .exit s fun s =>
    let k := s.cur
    let s := dropWaiters s k
    let t := s.thr k
    let s := s.setThr k { t with
      sstate := .ended, windows := [], frozen := [], held := [], posted := [], sleep := none, killed := false }
    .next ((if userKey k then memberEnds s t.group .exit else s).later (.slotVacate k))

/-- The cores of a SCOPE unit around a core, from it on in ascending order, wrapping (R337). -/
def scopeCores (core scope : Nat) : List Nat :=
  let all := match scope with
    | 1 => [core]
    | 2 => (dieCores (dieOf core)).filter fun c => quadOf c == quadOf core
    | _ => dieCores (dieOf core)
  (all.filter fun c => decide (core ≤ c)) ++ (all.filter fun c => decide (c < core))

/-- EMPTY user slots of a core. -/
def emptySlots (s : State) (core : Nat) : List Nat :=
  ((upTo 7).filter (slotOpen s core)).map (8 * core + ·)

/-- A core that takes spawned threads: its residence of the context is LOADED or RUNNING. -/
def hostsResidence (s : State) (asid : BitVec 16) (core : Nat) : Bool :=
  let c := s.core core
  c.health == .good && c.ctxAsid == asid && (c.residence == .loaded || c.residence == .running)

/-- One round of the deal: one slot of each core that still has one, up to n. -/
def dealRound : Nat → List (List Nat) → List Nat × List (List Nat) × Nat
  | n, [] => ([], [], n)
  | 0, ls => ([], ls, 0)
  | n + 1, [] :: ls =>
    let r := dealRound (n + 1) ls
    (r.1, [] :: r.2.1, r.2.2)
  | n + 1, (k :: ks) :: ls =>
    let r := dealRound n ls
    (k :: r.1, ks :: r.2.1, r.2.2)

/-- Slots for n threads, dealt in rounds over the cores; at most 7 rounds are possible. -/
def dealSlots : Nat → Nat → List (List Nat) → List Nat
  | 0, _, _ => []
  | fuel + 1, n, ls =>
    if n = 0 then []
    else let r := dealRound n ls; r.1 ++ dealSlots fuel r.2.2 r.2.1

/-- Create the threads of a spawn: thread number t and on. -/
def spawnThreads (asid g : BitVec 16) (pinned : Bool) (pc : Word) (args : List Word) (frame : Nat) (s : State) :
    Nat → List Nat → State
  | _, [] => s
  | t, k :: ks =>
    let p8 := framePointer (coreOf k) (524288 - 64 * frame * slotOf k)
    spawnThreads asid g pinned pc args frame
      (startThread s k asid g (BitVec.ofNat 16 t) pinned pc (BitVec.ofNat 64 t :: args) p8) (t + 1) ks

/-- Reserved fields and SCOPE of spawn's b. -/
def spawnOk (b : Word) : Bool :=
  bitsAt b 27 37 == 0 && bitsAt b 22 2 == 0 && bitsAt b 11 1 == 0 && bitsAt b 6 2 == 0 && decide (1 ≤ bitsAt b 8 3) &&
    decide (bitsAt b 8 3 ≤ 3)

/-- A refusal: status in the low bits under bit 63. -/
def refusedWord (status : Nat) : Word := BitVec.ofNat 64 (2 ^ 63 + status)

/-- The step of a spawn of thread k: the new state and the result. -/
def spawnGroup (s : State) (k : Nat) (a b : Word) : State × Word :=
  let core := coreOf k
  let t := s.thr k
  let die := dieOf core
  let n := bitsAt b 0 6 + 1
  let cand := (scopeCores core (bitsAt b 8 3)).filter (hostsResidence s t.asid)
  let slots := cand.map (emptySlots s)
  if isSystem core then (s, refusedWord 3)
  else if (slots.map List.length).sum < n then (s, refusedWord 2)
  else match freeGroup s die with
    | none => (s, refusedWord 1)
    | some ix =>
      let gen := (tabGet Group.reset (s.die die).groups ix).gen
      let g := groupNumber die ix gen
      let s := s.setGroup g (newGroup gen t.asid (b.getLsbD 24) (b.getLsbD 26) n core none)
      (spawnThreads t.asid g (b.getLsbD 25) a [t.p[1], t.p[2], t.p[3]] (bitsAt b 12 10) s 0 (dealSlots 8 n slots),
        g.setWidth 64)

/-- R337 spawn: the group is created at issue, and its number arrives later (log 12, DEDUCED). -/
def execSpawn (d a b : Reg) (lk : BitVec 4) (s : State) : Out :=
  issue (.spawn d a b lk) s fun s =>
    let k := s.cur
    let av := readReg s k a
    let bv := readReg s k b
    if bitsAt av 52 12 ≠ 0 ∨ bitsAt av 0 2 ≠ 0 then operandTrap s av
    else if !spawnOk bv then operandTrap s bv
    else afterAccesses s <|
      let r := spawnGroup s k av bv
      finishLong r.1 (.spawn d a b lk) d (.one r.2)

/-- The context that a group instruction names in its upper field (R327, R339): a device thread names its own. -/
def namedAsid (s : State) (k : Nat) (field : BitVec 16) : Option (BitVec 16) :=
  if isSystem (coreOf k) then (if field = 0#16 then none else some field)
  else (if field = 0#16 then some (s.thr k).asid else none)

/-- A guest-view thread acts for its virtual function alone (R476). -/
def guestOwns (s : State) (k : Nat) (asid : BitVec 16) : Bool :=
  match (s.thr k).view with
  | .guest v => vfHolds (vfAt s v) asid
  | _ => true

/-- R339 kill: the request goes to the group's home core, or to the named thread's. -/
def execKill (d a b : Reg) (s : State) : Out :=
  issue (.kill d a b) s fun s =>
    let k := s.cur
    let av := readReg s k a
    let bv := readReg s k b
    match namedAsid s k (bv.extractLsb' 16 16) with
    | none => operandTrap s bv
    | some asid =>
      if bitsAt bv 1 15 ≠ 0 ∨ bitsAt bv 32 32 ≠ 0 then operandTrap s bv
      else if bv.getLsbD 0 then
        if bitsAt av 22 42 ≠ 0 ∨ !nameOk (bitsAt av 0 22) then operandTrap s av
        else .next ((awaitAnswer s d).later (.killThreadArrival k d asid (av.extractLsb' 0 22)))
      else if bitsAt av 16 48 ≠ 0 then operandTrap s av
      else .next ((awaitAnswer s d).later (.groupKillArrival k d asid (av.extractLsb' 0 16)))

/-- GROUP_KILL_ARRIVAL (R323, R339): the answer goes before the ending, which the issuer itself may meet. -/
def execGroupKillArrival (key : Nat) (d : Reg) (asid group : BitVec 16) (s : State) : Out :=
  let x := s.group group
  if !s.groupHeld group ∨ x.asid ≠ asid ∨ !guestOwns s key asid then .next (answer s key d 1#64)
  else if x.state = .draining then .next (answer s key d 2#64)
  else .next (killGroup (answer s key d 0#64) group)

/-- KILL_THREAD_ARRIVAL (R339): the thread is lost with cause KILL; one that could issue ends at its next opportunity. -/
def execKillThreadArrival (key : Nat) (d : Reg) (asid : BitVec 16) (name : BitVec 22) (s : State) : Out :=
  let k := nameKey name.toNat
  let t := s.thr k
  let fits := userKey k && !nameSystem name.toNat && t.sstate != .empty && t.gen == nameGen name.toNat &&
    t.asid == asid && guestOwns s key asid && !s.dieRetired (dieOf (coreOf k))
  if !fits then .next (answer s key d 1#64)
  else if t.sstate = .ended then .next (answer s key d 2#64)
  else .next (killThread (markLost (answer s key d 0#64) k 3) k)

/-! send (R327). -/

/-- The operand checks of send on a. -/
def sendOk (s : State) (k : Nat) (a : Word) : Bool :=
  let cls := bitsAt a 24 3
  bitsAt a 48 16 == 0 && bitsAt a 27 5 == 0 && bitsAt a 22 2 == 0 && decide (cls ≤ 2) &&
    !(cls == 0 && userKey k && (s.core (coreOf k)).ctxClass != 0#2) && nameOk (bitsAt a 0 22)

/-- The places of n doublewords from an address of a lin page on, for a thread: the first reach that is no place stops
it. -/
def linWords (s : State) (k : Nat) (ea kind : Nat) : Nat → Except Reach (List Place)
  | 0 => .ok []
  | n + 1 =>
    match translated s (coreOf k) (s.thr k).asid ea kind (some false) with
    | .at p => (linWords s k (ea + 8) kind n).map (p :: ·)
    | r => .error r

/-- A format-0 pointer to n doublewords on a system core: aligned, translated. -/
def linPointer (s : State) (k : Nat) (b : Word) (kind n : Nat) : Except Reach (List Place) :=
  if bitsAt b 52 12 ≠ 0 ∨ bitsAt b 0 3 ≠ 0 ∨ bitsAt b 51 1 = 1 then .error (.trap kindADDRESS 0 b)
  else linWords s k (addrOf b) kind n

/-- The entry of a thread (R326). -/
def entryMessage (s : State) (k : Nat) (a : Word) (asid : BitVec 16) (payload : List Word) : Msg :=
  let t := s.thr k
  let name := (nameWord k t.gen).toNat
  { src := coreOf k, asid := asid
    w0 := BitVec.ofNat 64 (t.tnum.toNat * 2 ^ 48 + t.group.toNat * 2 ^ 32 + bitsAt a 24 3 * 2 ^ 24 + name)
    w1 := BitVec.ofNat 64 (bitsAt s.time 0 32 * 2 ^ 32 + bitsAt a 0 22)
    payload := payload, seq := 0 }

/-- The entry leaves for the addressee's core. -/
def sendEntry (s : State) (a : Word) (asid : BitVec 16) (payload : List Word) : Out :=
  finish (s.later (.messageArrival (entryMessage s s.cur a asid payload)))

/-- A store of a thread to a place, of a doubleword. -/
def placeStore (s : State) (k : Nat) (p : Place) (ea v : Word) (aid : Nat) : Request :=
  let t := s.thr k
  { key := k, aid := aid, wid := none, op := .store, cell := p.cell, size := 8, home := p.home, port := p.port, ea := ea,
    mode := p.mode, data := v, cmp := 0#64, asid := t.asid, group := t.group, tnum := t.tnum, jent := none }

/-- A load of a doubleword for a thread at a place. -/
def placeLoad (s : State) (k : Nat) (p : Place) (ea : Word) : Request :=
  { placeStore s k p ea 0#64 s.nonce with op := .load false }

/-- The loads of the doublewords at places, from an address on. -/
def placeLoads (s : State) (k : Nat) (ea : Word) : List Place → List Request
  | [] => []
  | p :: ps => placeLoad s k p ea :: placeLoads s k (ea + 8#64) ps

/-- The send of a system core (R327): its six loads go out, each with a journal entry where it is remote (R158), and the
entry waits in the core until they have been performed, behind the thread's earlier accesses to those doublewords. -/
def sendSystem (s : State) (a b : Word) (asid : BitVec 16) : Out :=
  let k := s.cur
  match linPointer s k b kindLOAD 6 with
  | .error r => withReach s kindLOAD (BitVec.ofNat 64 (addrOf b)) r fun _ => finish s
  | .ok ps => match takeEntries s (placeLoads s k (BitVec.ofNat 64 (addrOf b)) ps) with
    | none => forfeit s
    | some x => finish (x.1.later (.payloadRead (entryMessage s k a asid []) x.2))

/-- A load of a payload is performed: the word, or the cause of its refusal, with the journal entry freed or keeping the
refusal (R158, R159). -/
def payloadWord (s : State) (r : Request) : State × Option Word :=
  match refusal s r, r.jent with
  | none, none => (s, some (readWord s.mem r.cell))
  | none, some e => (setJournal s (coreOf r.key) e freeEntry, some (readWord s.mem r.cell))
  | some cause, j => match j.orElse fun _ => journalFree (s.core (coreOf r.key)) with
    | none => (s, none)
    | some e =>
      let s := recordRefusal s (coreOf r.key) e (entryOf s r) cause
      (postRefusal s r.key e, none)

/-- The words of a payload, none where a load was refused. -/
def payloadWords (s : State) : List Request → State × List (Option Word)
  | [] => (s, [])
  | r :: rs =>
    let x := payloadWord s r
    let y := payloadWords x.1 rs
    (y.1, x.2 :: y.2)

/-- The payload of a system core's send is read (R327): the entry leaves, or nothing is sent where a load was refused,
which is posted as an ld.d's is (log 13, DEDUCED). A local refusal waits for a free journal entry (R158). -/
def readPayload (s : State) (m : Msg) (rs : List Request) : State :=
  if rs.any fun r => r.jent.isNone && (refusal s r).isSome && (journalFree (s.core (coreOf r.key))).isNone then
    { s with work := .payloadRead m rs :: s.work }
  else
    let x := payloadWords s rs
    if x.2.all Option.isSome then x.1.sooner (.messageArrival { m with payload := x.2.filterMap id }) else x.1

/-- R327 send: on a compute core the payload is read at issue over the here path, behind the thread's earlier accesses
to its bytes over that path (R142, R149); the thread issues on. -/
def execSend (a b : Reg) (s : State) : Out :=
  issue (.send a b) s fun s =>
    let k := s.cur
    let av := readReg s k a
    let bv := readReg s k b
    if !sendOk s k av then operandTrap s av
    else match namedAsid s k (av.extractLsb' 32 16) with
      | none => operandTrap s av
      | some asid =>
        if (if isSystem (coreOf k) then bitsAt bv 51 13 != 0 || bitsAt bv 0 3 != 0 else !bufferOk bv 16 48) then
          operandTrap s bv
        else if 8 ≤ outbound s (coreOf k) (bitsAt av 24 3) then forfeit s
        else if isSystem (coreOf k) then sendSystem s av bv asid
        else match settleHere s k (bufferCellOf k bv) 48 with
        | none => forfeit s
        | some s => sendEntry s av asid (readWords s.mem (bufferCellOf k bv) 6)

/-! recv (R334). -/

/-- What a breach of recv's operands traps with, if any. -/
def recvOk (k : Nat) (a b : Word) : Bool :=
  bitsAt a 3 2 == 0 && bitsAt a 6 58 == 0 && a != 0#64 &&
    (if isSystem (coreOf k) then !a.getLsbD 5 && bitsAt b 52 12 == 0 && bitsAt b 0 3 == 0 && bitsAt b 51 1 == 0
     else bufferOk b 64 64)

/-- R334 recv: a buffer on a lin page is translated at issue, as STORE. -/
def execRecv (d a b : Reg) (lk : BitVec 4) (s : State) : Out :=
  issue (.recv d a b lk) s fun s =>
    let k := s.cur
    let av := readReg s k a
    let bv := readReg s k b
    let maskOk := bitsAt av 3 2 == 0 && bitsAt av 6 58 == 0 && av != 0#64 && !(isSystem (coreOf k) && av.getLsbD 5)
    if !recvOk k av bv then operandTrap s (if maskOk then bv else av)
    else if isSystem (coreOf k) then
      match linPointer s k bv kindSTORE 8 with
      | .error r => withReach s kindSTORE (BitVec.ofNat 64 (addrOf bv)) r fun _ => forfeit s
      | .ok _ => finishEvent s (.recv d a b lk) d false av bv
    else finishEvent s (.recv d a b lk) d false av bv

/-- The first entry of a thread in an inbox class. -/
def firstEntry (s : State) (k cls : Nat) : Option Msg :=
  let l := inboxOf (s.core (coreOf k)) cls
  if isSystem (coreOf k) then l.head?
  else findFirst (fun m => (msgTo m) == (nameWord k (s.thr k).gen).toNat) l

/-- The list without its first element equal to x. -/
def dropMsg (x : Msg) : List Msg → List Msg
  | [] => []
  | m :: ms => if m = x then ms else m :: dropMsg x ms

/-- The entry or letter that a recv takes now, with the state without it (R334). -/
def recvTakes (s : State) (k : Nat) (a : Word) : Option (State × Msg) :=
  let classes := (upTo 3).filter fun c => a.getLsbD c
  match classes.filterMap fun c => (firstEntry s k c).map fun m => (c, m) with
  | (c, m) :: _ =>
    let core := s.core (coreOf k)
    some (s.setCore (coreOf k) (setInbox core c (dropMsg m (inboxOf core c))), m)
  | [] =>
    let g := (s.thr k).group
    if a.getLsbD 5 && s.groupHeld g then
      match (s.group g).letters with
      | m :: ms => some (s.setGroup g { s.group g with letters := ms }, m)
      | [] => none
    else none

/-- Stores of a list of doublewords to places, numbered from aid on. -/
def placeStores (s : State) (k : Nat) (ea : Word) : Nat → List (Place × Word) → List Request
  | _, [] => []
  | aid, (p, v) :: xs => placeStore s k p ea v aid :: placeStores s k (ea + 8#64) (aid + 1) xs

/-- Store doublewords for a thread (R334): each is an access of its own on its way to its home; none while the journal has
too few free entries for the remote ones (R158). -/
def sendStores (s : State) (k : Nat) (ea : Word) (l : List (Place × Word)) : State :=
  (leaveStores s k (placeStores s k ea s.nonce l)).ticks l.length

/-- The doublewords of a buffer from a place on. -/
def doublewords (n : Nat) (p : Place) : List Place := (upTo n).map fun i => { p with cell := p.cell + 8 * i }

/-- The places of a buffer's n doublewords for a thread: in its A-buffer, or on the lin page of a system core, whose translation is
taken now, as the stores issue (R334, R420). -/
def bufferPlaces (s : State) (k : Nat) (b : Word) (n : Nat) : Except State (List Place) :=
  if isSystem (coreOf k) then (windowPlace s k (addrOf b) kindSTORE true).map (doublewords n)
  else .ok (doublewords n ⟨bufferCellOf k b, coreOf k, false, true, 3#2⟩)

/-- The event of recv: the entry or letter that it takes, the stores of its bytes, and d. While nothing is there, or the translation
of its buffer is not, it waits (log 13, DEDUCED). -/
def recvEvent (s : State) (k : Nat) (w : Window) : State × Option Word :=
  match recvTakes s k w.a with
  | none => (s, none)
  | some (s', m) => match bufferPlaces s k w.b 8 with
    | .error s => (s, none)
    | .ok ps => (sendStores s' k (BitVec.ofNat 64 (addrOf w.b)) (ps.zip (msgWords m)), some m.w0)

/-! gstat (R340). -/

/-- R340 gstat. -/
def execGstat (d a : Reg) (s : State) : Out :=
  issue (.gstat d a) s fun s =>
    let k := s.cur
    let av := readReg s k a
    let t := s.thr k
    if isSystem (coreOf k) ∨ bitsAt av 4 4 ≠ 0 ∨ bitsAt av 10 54 ≠ 0 ∨ 1 < bitsAt av 0 4 then operandTrap s av
    else
      let s := if av.getLsbD 8 && s.groupHeld t.group then
          s.setGroup t.group { s.group t.group with msgirq := av.getLsbD 9 }
        else s
      let x := s.group t.group
      let bit := fun (b : Bool) (n : Nat) => if b then 2 ^ n else 0
      finishWrite s d (BitVec.ofNat 64 (if bitsAt av 0 4 = 0 then
          t.group.toNat * 2 ^ 48 + t.tnum.toNat * 2 ^ 32 + (nameWord k t.gen).toNat
        else bit (x.state == .draining) 60 + bit x.whole 59 + bit x.msgirq 58 + bit x.dlovf 57 +
          x.letters.length * 2 ^ 48 + x.lost % 2 ^ 16 * 2 ^ 32 + x.live % 2 ^ 16 * 2 ^ 16 + t.group.toNat))

/-! Levelling (R341 to R343). -/

/-- A core's load. -/
def loadOf (s : State) (core : Nat) : Nat :=
  ((upTo 7).filter fun j =>
    let t := s.thr (8 * core + j)
    t.sstate == .run && !asleep s (8 * core + j)).length

/-- The cores that a core samples. -/
def sampledCores (s : State) (core : Nat) : List Nat :=
  let asid := (s.core core).ctxAsid
  (dieCores (dieOf core)).filter fun c =>
    isPrompt c == isPrompt core && (s.core c).residence == .running && (s.core c).ctxAsid == asid

/-- The lowest load of a sample, and its core; the first of the list on a tie. -/
def idlest : List (Nat × Nat) → Option (Nat × Nat)
  | [] => none
  | x :: xs => match idlest xs with
    | none => some x
    | some y => if x.2 ≤ y.2 then some x else some y

/-- CLUSLD (R341): before the first interval the reading core with load 0. -/
def clusldWord (s : State) (core : Nat) : Word :=
  let x := (idlest (s.core core).sample).getD (core, 0)
  BitVec.ofNat 64 (rowOf x.1 * 2 ^ 12 + colOf x.1 * 2 ^ 8 + x.2)

/-- Adjacent cores of the same cluster. -/
def neighbours (core : Nat) : List Nat :=
  (dieCores (dieOf core)).filter fun c => isPrompt c == isPrompt core && meshHops c core == 1

/-- The step that carries an entry that levelling ships from a core. -/
def shippedEntry (core : Nat) (x : Nat × Nat × List Word) : Event := .levelledEntryArrival x.1 x.2.1 core x.2.2

/-- The entries that levelling has removed enter the core's outbound queue of class 3 as far as it has room (R361). -/
def ship (s : State) (core : Nat) : State :=
  let c := s.core core
  let n := 8 - outbound s core 3
  { s.setCore core { c with shipping := c.shipping.drop n } with
    work := s.work ++ (c.shipping.take n).map (shippedEntry core) }

/-- Every core ships what waits: at the end of a ck. -/
def shipAll (s : State) : State := ((s.cores.filter fun x => x.2.shipping != []).map (·.1)).foldl ship s

/-- Remove a list's tail entries for the neighbour of the list's context that has the fewest (R342); what the outbound queue
cannot take yet waits for it (log 39, DESIGN CHOICE). An ORPHAN list keeps its entries and gets none (R368; log 37, DESIGN CHOICE
for the second). -/
def levelList (core : Nat) (s : State) (q : Nat) : State :=
  let c := s.core core
  let w := qcfgOf c q
  if qKind w ≠ 3 ∨ !qLevel w ∨ c.qorphan.getLsbD q then s
  else
    let near := (neighbours core).filter fun n =>
      let x := s.core n
      x.residence == .running && x.ctxAsid == qAsid w && x.levctl.getLsbD 0 && qKind (qcfgOf x q) == 3 &&
        qAsid (qcfgOf x q) == qAsid w && !x.qorphan.getLsbD q
    match idlest (near.map fun n => (n, occupancy (s.core n) q)) with
    | none => s
    | some (n, m) =>
      let have_ := occupancy c q
      if have_ < m + 2 then s
      else
        let rest := have_ - Nat.min ((have_ - m) / 2) 16
        let l := listOf c q
        ship (s.setCore core { setList c q (l.take rest) with
          shipping := c.shipping ++ (l.drop rest).map fun e => (n, q, e) }) core

/-- A thread that levelling may move (R343). -/
def movable (s : State) (k : Nat) : Bool :=
  let t := s.thr k
  t.sstate == .run && !asleep s k && t.hold == .none && !t.pinned && !t.uin && !t.killed &&
    t.windows.all (!·.event) && enginesIdle s k

/-- Thread levelling (R343). -/
def levelThread (s : State) (core : Nat) : State :=
  match idlest (s.core core).sample with
  | none => s
  | some (n, load) =>
    if n = core ∨ loadOf s core < load + 2 then s
    else match findFirst (movable s) ((upTo 7).map (8 * core + ·)) with
      | none => s
      | some k => beginMigration s k n .level

/-- BALANCING_INTERVAL (R341 to R343). -/
def execBalancingInterval (core : Nat) (s : State) : Out :=
  let sample := (sampledCores s core).map fun c => (c, loadOf s c)
  let s := s.setCore core { s.core core with sample := sample }
  let s := if (s.core core).levctl.getLsbD 0 then ((upTo 8).map (· + 8)).foldl (levelList core) s else s
  .next (if (s.core core).levctl.getLsbD 1 then levelThread s core else s)

end Sys2Proof.Machine
end

