-- ==== Sys2Proof/Machine/Estate.lean ====
section
/-! DEFINITION. Estates, heirs and conveyance (18 R376 to R399). -/

namespace Sys2Proof.Machine

/-! The estate tables (R376, R377). -/

def State.holding (s : State) (die ix : Nat) : Holding := tabGet Holding.reset (s.die die).estate ix
def State.setHolding (s : State) (die ix : Nat) (x : Holding) : State :=
  let d := s.die die
  s.setDie die { d with estate := tabSet d.estate ix x }

/-- The handle of an entry. -/
def handleOf (die ix : Nat) : Nat := die * 2 ^ 13 + ix

/-- The table and entry that a handle names. -/
def handleDie (h : Nat) : Nat := h / 2 ^ 13 % 4
def handleIndex (h : Nat) : Nat := h % 2 ^ 13

/-- The valid entries of a die's table, with their index. -/
def validHoldings (s : State) (die : Nat) : List (Nat × Holding) := (s.die die).estate.filter fun x => x.2.kind != 0

/-- A valid entry with a key and a context. -/
def keyHeld (s : State) (die : Nat) (key : Word) (asid : BitVec 16) : Bool :=
  (validHoldings s die).any fun x => x.2.key == key && x.2.asid == asid

/-- The lowest free entry. -/
def freeHolding (s : State) (die : Nat) : Option Nat := findFirst (fun i => (s.holding die i).kind == 0) (upTo 8192)

/-- A promise is registered (R378). -/
def promiseKnown (s : State) (key : Word) (asid : BitVec 16) : Bool :=
  (upTo 4).any fun die => (validHoldings s die).any fun x => x.2.kind == 3 && x.2.key == key && x.2.asid == asid

/-- RES: the holder group, or a thread of it, holds the reservation of a lock word. -/
def holdingRes (s : State) (x : Holding) : Bool :=
  x.kind == 1 && (match resvHead (s.core x.home) x.cell with
    | some r => r.waiting.isNone && r.asid == x.asid && r.group == x.holder
    | none => false)

/-- The unassigned bits and the TYPE of a handle word (R377): coordinates are 0 where R347 requires. -/
def handleWordOk (w : Word) : Bool :=
  match bitsAt w 60 4 with
  | 1 => bitsAt w 18 42 == 0 && bitsAt w 3 13 == 0
  | 2 => bitsAt w 22 38 == 0 && bitsAt w 4 7 == 0
  | 3 => bitsAt w 22 38 == 0 && bitsAt w 6 2 == 0 && barrierZeroes w
  | 4 => bitsAt w 52 8 == 0
  | _ => false

/-- The core of a QUEUE handle. -/
def handleCore (w : Word) : Nat := coreAt (bitsAt w 20 2) (bitsAt w 16 4) (bitsAt w 11 5)

/-- The object that a handle names exists and is the context's (R393). -/
def handleOwned (s : State) (asid : BitVec 16) (w : Word) : Bool :=
  match bitsAt w 60 4 with
  | 1 =>
    let p := s.plot (bitsAt w 16 2) (bitsAt w 0 3)
    !s.dieRetired (bitsAt w 16 2) && p.valid && p.asid == asid
  | 2 =>
    let q := qcfgOf (s.core (handleCore w)) (bitsAt w 0 4)
    decide (8 ≤ bitsAt w 0 4) && decide (bitsAt w 16 4 < 14) && decide (bitsAt w 11 5 < 16) &&
      !s.dieRetired (bitsAt w 20 2) && qKind q != 0 && qAsid q == asid
  | 3 => let x := s.barrier (barrierSelected w); barrierSelectOk s w && x.valid && x.asid == asid
  | _ =>
    match walkAll s 8 (Walk.start (BitVec.ofNat 64 (bitsAt w 0 52)) 0 asid 0#16) with
    | some t => t.base.toNat == bitsAt w 0 52
    | none => false

/-- Create an entry, for a group (R393): the new state and the entry handle, or the refusal. -/
def register (s : State) (die kind : Nat) (key : Word) (asid group : BitVec 16) (p : Option Place) : State × Word :=
  if keyHeld s die key asid then (s, refusedWord 2)
  else match freeHolding s die with
    | none => (s, refusedWord 1)
    | some ix =>
      let x := { kind := kind, key := key, asid := asid, holder := group, heir := none, bereaved := false, seq := s.nonce,
                 cell := (p.map Place.cell).getD 0, home := (p.map Place.home).getD 0 : Holding }
      ((s.setHolding die ix x).tick, BitVec.ofNat 64 (handleOf die ix))

/-! Operand checks (R393, R396, R397): every trap's TVAL is a. -/

/-- A lock or promise word's place: an R-format access of 8 bytes (R140), translated as a STORE; then the page is a lin one,
or an ilv one too. -/
def wordReach (s : State) (k : Nat) (i : Instr) (a : Word) (linOnly : Bool) : Reach :=
  match reachPlain s k a 8 kindSTORE (encode i) with
  | .trap kind d v => if kind = kindILLEGAL then .trap kind d v else .trap kind d a
  | .at p => if 2 ≤ p.mode.toNat || (linOnly && p.mode != 0#2) then .trap kindADDRESS 0 a else .at p
  | r => r

/-- Go on with the place of a word, or trap, fault or walk. -/
def withWord (s : State) (i : Instr) (a : Word) (linOnly : Bool) (go : Place → Out) : Out :=
  withReach s kindSTORE (BitVec.ofNat 64 (addrOf a)) (wordReach s s.cur i a linOnly) go

/-- The key of a word. -/
def wordKey (a : Word) : Word := BitVec.ofNat 64 (addrOf a)

/-! Instructions (R391 to R399). Each acts on the estate unit at issue; its result arrives later (log 12, DEDUCED). -/

/-- R393 hold. -/
def execHold (d a b : Reg) (lk : BitVec 4) (s : State) : Out :=
  issue (.hold d a b lk) s fun s =>
    let k := s.cur
    let av := readReg s k a
    let bv := readReg s k b
    let t := s.thr k
    let done := fun (r : State × Word) => finishLong r.1 (.hold d a b lk) d (.one r.2)
    if isSystem (coreOf k) then operandTrap s av
    else if bv = 1#64 then withWord s (.hold d a b lk) av false fun p =>
      done (register s (groupDie t.group) 1 (wordKey av) t.asid t.group (some p))
    else if bv = 2#64 ∧ handleWordOk av then
      if !handleOwned s t.asid av then done (s, refusedWord 3)
      else done (register s (groupDie t.group) 2 av t.asid t.group none)
    else operandTrap s av

/-- The estate unit reaches a word of a context: its home refuses no access of the unit to it (R159, R492; log 39, DESIGN CHOICE:
what a refused step of the unit does is not written beside the word left as it was). -/
def wordServed (s : State) (home : Nat) (asid : BitVec 16) (cell : Nat) : Bool :=
  (homeRefusal s home 0#2 asid true cell cell).isNone

/-- The word as the unit writes it, where its home serves it. -/
def serveWord (s : State) (home : Nat) (asid : BitVec 16) (cell : Nat) (v : Word) : State :=
  if wordServed s home asid cell then { s with mem := writeWord s.mem cell v } else s

/-- STATE of the promise word at an entry's place (R378). -/
def promiseState (s : State) (cell : Nat) : Nat := bitsAt (readWord s.mem cell) 61 3

/-- The step of unhold of thread k (R394): the status. -/
def unholdStep (s : State) (k h : Nat) : State × Nat :=
  let x := s.holding (handleDie h) (handleIndex h)
  let t := s.thr k
  if x.kind = 0 ∨ x.asid ≠ t.asid ∨ x.holder ≠ t.group then (s, 1)
  else if x.kind = 3 ∧ promiseState s x.cell = 0 then (s, 2)
  else (s.setHolding (handleDie h) (handleIndex h) Holding.reset, 0)

/-- R394 unhold. -/
def execUnhold (d a : Reg) (lk : BitVec 4) (s : State) : Out :=
  issue (.unhold d a lk) s fun s =>
    let k := s.cur
    let av := readReg s k a
    if isSystem (coreOf k) ∨ bitsAt av 15 49 ≠ 0 then operandTrap s av
    else
      let r := unholdStep s k (bitsAt av 0 15)
      finishLong r.1 (.unhold d a lk) d (.one (BitVec.ofNat 64 r.2))

/-- The step of heir of thread k (R395). -/
def heirStep (s : State) (k : Nat) (a b : Word) : State × Nat :=
  let t := s.thr k
  let h := bitsAt a 0 15
  let x := s.holding (handleDie h) (handleIndex h)
  let heir : BitVec 16 := b.extractLsb' 0 16
  let named := if b.getLsbD 16 then some heir else none
  let mine := if a.getLsbD 63 then s.groupHeld t.group && (s.group t.group).asid == t.asid
    else x.kind != 0 && x.asid == t.asid && x.holder == t.group
  if !mine then (s, 1)
  else if b.getLsbD 16 ∧ (!s.groupHeld heir ∨ (s.group heir).asid ≠ t.asid ∨ (s.group heir).state ≠ .active) then (s, 2)
  else if b.getLsbD 16 ∧ heir = t.group then (s, 3)
  else if a.getLsbD 63 then (s.setGroup t.group { s.group t.group with dheir := named }, 0)
  else (s.setHolding (handleDie h) (handleIndex h) { x with heir := named }, 0)

/-- The operand rules of heir. -/
def heirOk (a b : Word) : Bool :=
  (if a.getLsbD 63 then bitsAt a 0 63 == 0 else bitsAt a 15 49 == 0) && bitsAt b 17 47 == 0 &&
    (b.getLsbD 16 || bitsAt b 0 16 == 0)

/-- R395 heir. -/
def execHeir (d a b : Reg) (lk : BitVec 4) (s : State) : Out :=
  issue (.heir d a b lk) s fun s =>
    let k := s.cur
    let av := readReg s k a
    let bv := readReg s k b
    if isSystem (coreOf k) ∨ !heirOk av bv then operandTrap s av
    else
      let r := heirStep s k av bv
      finishLong r.1 (.heir d a b lk) d (.one (BitVec.ofNat 64 r.2))

/-- Create a promise (R396): the entry, and the word OPEN at its home. -/
def createPromise (s : State) (die : Nat) (key : Word) (asid group : BitVec 16) (p : Place) : State × Word :=
  let r := register s die 3 key asid group (some p)
  if r.2.getLsbD 63 then r else ({ r.1 with mem := writeWord r.1.mem p.cell 0#64 }, r.2)

/-- A thread's access to a doubleword that its home refuses at issue (R159, R160): a journal entry with the refusal, none while
the journal is full. kind: 1 a load, 0 a store. -/
def refusedNow (s : State) (ea : Word) (mode : BitVec 2) (kind : Nat) (cause : BitVec 4) : Option (State × Nat) :=
  let k := s.cur
  (journalFree (s.core (coreOf k))).map fun e =>
    let x := { freeEntry with
      busy := true, kind := kind, mode := mode, size := 3, ea := ea, slot := slotOf k, gen := (s.thr k).gen }
    (recordRefusal s (coreOf k) e x cause, e)

/-- A long-latency instruction whose access the home refuses at issue (R160): its window leaves d unchanged. -/
def finishRefused (s : State) (i : Instr) (d : Reg) (ea : Word) (mode : BitVec 2) (kind : Nat) (cause : BitVec 4) : Out :=
  match refusedNow s ea mode kind cause with
  | none => forfeit s
  | some (s, e) => finishLong s i d (.refused e)

/-- R396 promise: its write of the word comes after the thread's earlier accesses to it (R149). Where the home refuses the word
there is no entry, and d stays (R160; log 37, DESIGN CHOICE). -/
def execPromise (d a : Reg) (lk : BitVec 4) (s : State) : Out :=
  issue (.promise d a lk) s fun s =>
    let k := s.cur
    let av := readReg s k a
    let t := s.thr k
    if isSystem (coreOf k) then operandTrap s av
    else withWord s (.promise d a lk) av true fun p =>
      match homeRefusal s p.home p.mode t.asid false p.cell p.cell with
      | some c => finishRefused s (.promise d a lk) d (wordKey av) p.mode 0 c
      | none =>
        match settleOver p.port s k p.cell 8 with
        | none => forfeit s
        | some s =>
          let r := createPromise s (groupDie t.group) (wordKey av) t.asid t.group p
          finishLong r.1 (.promise d a lk) d (.one r.2)

/-- The promise with a key that a group holds, in whichever die's table. -/
def promiseOf (s : State) (key : Word) (asid group : BitVec 16) : Option (Nat × Nat) :=
  ((upTo 4).flatMap fun die => ((validHoldings s die).filter fun x =>
    x.2.kind == 3 && x.2.key == key && x.2.asid == asid && x.2.holder == group).map fun x => (die, x.1)).head?

/-- The step of fulfil of thread k (R397). -/
def fulfilStep (s : State) (k : Nat) (a b : Word) (p : Place) : State × Nat :=
  let t := s.thr k
  match promiseOf s (wordKey a) t.asid t.group with
  | none => (s, 1)
  | some (die, ix) =>
    let st := promiseState s p.cell
    if isSystem (coreOf k) ∨ (st ≠ 0 ∧ st ≠ 2) then (s, 1)
    else (({ s with mem := writeWord s.mem p.cell (BitVec.ofNat 64 (2 ^ 61 + bitsAt b 0 48)) }).setHolding die ix
      Holding.reset, 0)

/-- R397 fulfil: it waits for its thread's earlier accesses. A home that refuses the word leaves d unchanged, and the trap is
posted (R160). -/
def execFulfil (d a b : Reg) (s : State) : Out :=
  issue (.fulfil d a b) s fun s =>
    let k := s.cur
    let av := readReg s k a
    let bv := readReg s k b
    if bitsAt bv 48 16 ≠ 0 then operandTrap s av
    else withWord s (.fulfil d a b) av true fun p =>
      afterAccesses s <|
        match homeRefusal s p.home p.mode (s.thr k).asid true p.cell p.cell with
        | some c => match refusedNow s (wordKey av) p.mode 0 c with
          | none => forfeit s
          | some (s, e) => finish (postRefusal s k e)
        | none =>
          let r := fulfilStep s k av bv p
          finishWrite r.1 d (BitVec.ofNat 64 r.2)

/-- R398 await: the window waits at the word's home, and holds back the thread's later memory accesses. -/
def execAwait (d a : Reg) (lk : BitVec 4) (s : State) : Out :=
  issue (.await d a lk) s fun s =>
    let k := s.cur
    let av := readReg s k a
    let ea := wordKey av
    if bitsAt av 52 12 ≠ 0 then operandTrap s av
    else
      let r := match reachPlain s k av 8 kindLOAD (encode (.await d a lk)) with
        | .trap kind dt _ => Reach.trap kind dt av
        | r => r
      withReach s kindLOAD ea r fun p =>
        match homeRefusal s p.home p.mode (s.thr k).asid true p.cell p.cell with
        | some c => finishRefused s (.await d a lk) d ea p.mode 1 c
        | none =>
          let w := newWindow s d lk true true (.await d a lk) av 0#64 .pending
          let x := { key := k, wid := w.id, cell := p.cell, home := p.home, ea := ea, asid := (s.thr k).asid : Awaiter }
          .next (retireTo { s.tick with awaiters := s.awaiters ++ [x] } k ((s.thr k).pc + 4#64) [w])

/-- What an await returns now, if anything (R398). -/
def awaitValue (s : State) (x : Awaiter) : Option Word :=
  let v := readWord s.mem x.cell
  if bitsAt v 61 3 ≠ 0 then some v
  else if !promiseKnown s x.ea x.asid then some 0x6000000000000000#64
  else none

/-- A home that refuses accesses refuses a waiting await too (R159, R463): none while the journal is full. -/
def refuseAwait (s : State) (x : Awaiter) (cause : BitVec 4) : Option State :=
  let core := coreOf x.key
  (journalFree (s.core core)).map fun e =>
    let y := { freeEntry with
      busy := true, kind := 1, mode := 0#2, size := 3, ea := x.ea, slot := slotOf x.key, gen := (s.thr x.key).gen }
    arrive (recordRefusal s core e y cause) x.key x.wid (.refused e)

/-- Give the awaits of a list their events: the state, and those that go on waiting. -/
def wakeAwaiters (s : State) : List Awaiter → State × List Awaiter
  | [] => (s, [])
  | x :: xs =>
    let stay := fun (s : State) => let r := wakeAwaiters s xs; (r.1, x :: r.2)
    match homeRefusal s x.home 0#2 x.asid true x.cell x.cell with
    | some cause => match refuseAwait s x cause with
      | some s => wakeAwaiters s xs
      | none => stay s
    | none => match awaitValue s x with
      | some v => wakeAwaiters (arrive s x.key x.wid (.one v)) xs
      | none => stay s

/-- Every await sees what its word holds (R398): done after each step of the machine. -/
def wakeAwaits (s : State) : State :=
  if s.awaiters = [] then s
  else let r := wakeAwaiters s s.awaiters; { r.1 with awaiters := r.2 }

/-! estq (R399). -/

/-- The entry word, for a thread of a context and group. -/
def entryWord (s : State) (t : Thread) (x : Holding) : Word :=
  if x.kind = 0 ∨ x.asid ≠ t.asid then 0#64
  else
    let bit := fun (b : Bool) (n : Nat) => if b then 2 ^ n else 0
    BitVec.ofNat 64 (2 ^ 63 + x.kind * 2 ^ 61 + bit x.bereaved 60 + bit (x.holder == t.group) 59 + bit (holdingRes s x) 58 +
      bit x.heir.isSome 48 + (x.heir.getD 0#16).toNat * 2 ^ 32 + x.holder.toNat)

/-- The GROUP word. -/
def groupWord (s : State) (t : Thread) : Word :=
  let x := s.group t.group
  let n := ((validHoldings s (groupDie t.group)).filter fun y => y.2.holder == t.group && y.2.asid == t.asid).length
  BitVec.ofNat 64 ((x.dheir.getD 0#16).toNat * 2 ^ 48 + (if x.dheir.isSome then 2 ^ 47 else 0) + n * 2 ^ 16 + x.arrn.toNat)

/-- AREA's pointer (R399). -/
def areaTrap (s : State) (k : Nat) (b : Word) : Reach :=
  if bitsAt b 52 12 ≠ 0 ∨ bitsAt b 0 12 ≠ 0 ∨ b.getLsbD 51 then .trap kindADDRESS 0 b
  else translated s (coreOf k) (s.thr k).asid (addrOf b) kindSTORE (some false)

/-- R399 estq. -/
def execEstq (d a b : Reg) (lk : BitVec 4) (s : State) : Out :=
  issue (.estq d a b lk) s fun s =>
    let k := s.cur
    let av := readReg s k a
    let bv := readReg s k b
    let t := s.thr k
    let done := fun (s : State) (v : Word) => finishLong s (.estq d a b lk) d (.one v)
    if isSystem (coreOf k) ∨ 3 ≤ av.toNat then operandTrap s av
    else if av = 0#64 then
      if bitsAt bv 15 49 ≠ 0 then operandTrap s av
      else done s (entryWord s t (s.holding (handleDie (bitsAt bv 0 15)) (handleIndex (bitsAt bv 0 15))))
    else if av = 1#64 then
      let old := (s.group t.group).area
      let set := fun (s : State) =>
        done (if s.groupHeld t.group then s.setGroup t.group { s.group t.group with area := bv } else s) old
      if bv = 0#64 then set s
      else match areaTrap s k bv with
        | .trap kind dt _ => finishTrap s kind dt av
        | r => withReach s kindSTORE (BitVec.ofNat 64 (addrOf bv)) r fun _ => set s
    else if bv ≠ 0#64 then operandTrap s av
    else done s (groupWord s t)

/-! Conveyance (R381 to R390). -/

/-- Every access of a group has been performed or cancelled: no slot holds a thread of it that is not drained, no packet
of it is in flight (R314, R381). -/
def groupQuiet (s : State) (g : BitVec 16) : Bool :=
  let asid := (s.group g).asid
  (s.threads.all fun x => !userKey x.1 || x.2.group != g || x.2.asid != asid || x.2.sstate == .empty ||
    (x.2.sstate == .ended && drained s x.1)) &&
  s.cores.all (fun x => x.2.packets.all fun p => p.group != g || p.asid != asid) &&
  s.work.all fun e => match e with
    | .migrationPacketArrival p _ => p.group != g || p.asid != asid
    | .migrationRefusalReturn p _ => p.group != g || p.asid != asid
    | _ => true

/-- CONVEYANCE_START (R381). -/
def execConveyanceStart (g : BitVec 16) (s : State) : Out :=
  let x := s.group g
  if !s.groupHeld g || x.state != .draining || x.done || x.conv.isSome then .next s
  else if x.live != 0 || !groupQuiet s g then .next (s.later (.conveyanceStart g))
  else .next ((s.setGroup g { x with
    conv := some { began := s.time, part := 1, conveyed := 0, given := [], heirless := 0, ovf := false } }).later
      (.conveyanceStep g))

/-- The reservation of a group that was granted first, with its core. -/
def firstReservation (s : State) (g asid : BitVec 16) : Option (Nat × Reservation) :=
  (s.cores.flatMap fun x => (x.2.resv.filter fun r => r.waiting.isNone && r.group == g && r.asid == asid).map fun r =>
    (x.1, r)).foldl (fun best x => match best with
      | none => some x
      | some y => if x.2.seq < y.2.seq then some x else some y) none

/-- The holding of a group of a kind that was registered first: die, index, entry. -/
def firstHolding (s : State) (g asid : BitVec 16) (p : Holding → Bool) : Option (Nat × Nat × Holding) :=
  ((upTo 4).flatMap fun die => ((validHoldings s die).filter fun x =>
    x.2.holder == g && x.2.asid == asid && p x.2).map fun x => (die, x.1, x.2)).foldl (fun best x => match best with
      | none => some x
      | some y => if x.2.2.seq < y.2.2.seq then some x else some y) none

/-- The queue of a cell without its entries. -/
def withoutCell (cell : Nat) (l : List Reservation) : List Reservation := l.filter fun r => r.cell != cell

/-- Release a word's reservation and wake every waiter with ORPHAN (R383). -/
def orphanQueue (s : State) (core cell : Nat) : State :=
  let c := s.core core
  let waiters := (c.resv.filter fun r => r.cell == cell).filterMap Reservation.waiting
  admitLater (replyAll (s.setCore core { c with resv := withoutCell cell c.resv }) (.value wakeORPHAN) waiters) core

/-- A reservation passes to the heir group (R383): to its earliest waiter, or to the group. -/
def bequeath (s : State) (core cell : Nat) (heir asid : BitVec 16) (v : Word) : State :=
  let c := s.core core
  let queue := (c.resv.filter fun r => r.cell == cell).drop 1
  let others := withoutCell cell c.resv
  match findFirst (fun (r : Reservation) => r.waiting.isSome && r.group == heir && r.asid == asid) queue with
  | some w =>
    let rest := queue.erase w
    let s := (s.setCore core { c with resv := others ++ { w with waiting := none, seq := s.nonce } :: rest }).tick
    match w.waiting with
    | some r => reply s r (.value v)
    | none => s
  | none =>
    let r := { cell := cell, asid := asid, group := heir, tnum := none, absent := false, waiting := none,
               seq := s.nonce : Reservation }
    (s.setCore core { c with resv := others ++ r :: queue }).tick

/-- The marked lock word (R383). -/
def markedWord (w : Word) (orphan : Bool) : Word :=
  BitVec.ofNat 64 (bitsAt w 0 60 + 2 ^ 63 + (if orphan then 2 ^ 62 else 0))

/-- HEIRLESS's INFO (R390). -/
def heirlessInfo (x : Holding) (res : Bool) : Nat :=
  x.kind * 2 ^ 57 + (if res then 2 ^ 56 else 0) + (if x.kind = 2 then bitsAt x.key 60 4 * 2 ^ 52 else 0) + bitsAt x.key 0 52

/-- Pass an entry on (R387): to the heir, or free it with a HEIRLESS event; the conveyance notes it. -/
def passEntry (s : State) (g : BitVec 16) (die ix : Nat) (x : Holding) (heir : Option (BitVec 16)) (res : Bool) : State :=
  let note := fun (s : State) (f : Conveyance → Conveyance) => s.setGroup g { s.group g with conv := (s.group g).conv.map f }
  match heir with
  | some h =>
    let s := (s.setHolding die ix { x with holder := h, bereaved := true, heir := (s.group h).dheir, seq := s.nonce }).tick
    note s fun c => { c with
      conveyed := c.conveyed + 1
      given := c.given ++ [(h, BitVec.ofNat 64 (x.kind * 2 ^ 60 + handleOf die ix), x.key)] }
  | none =>
    let s := enterHev (s.setHolding die ix Holding.reset) (s.group g).home 1 (heirlessInfo x res)
    note s fun c => { c with heirless := c.heirless + 1 }

/-- The heir of a holding at its own step (R380). -/
def heirOf (s : State) (x : Holding) : Option (BitVec 16) := resolveHeir s 4 x.heir

/-- Part 1: a reservation of the group (R383). -/
def conveyReservation (s : State) (g : BitVec 16) (core : Nat) (r : Reservation) : State :=
  match firstHolding s g r.asid fun x => x.kind == 1 && x.cell == r.cell with
  | none => orphanQueue s core r.cell
  | some (die, ix, x) =>
    let heir := heirOf s x
    let v := markedWord (readWord s.mem r.cell) heir.isNone
    let s := serveWord s core r.asid r.cell v
    match heir with
    | some h => passEntry (bequeath s core r.cell h r.asid v) g die ix x heir false
    | none => passEntry (orphanQueue s core r.cell) g die ix x heir true

/-- Parts 2 to 4: one entry (R383, R385, R386). -/
def conveyEntry (s : State) (g : BitVec 16) (die ix : Nat) (x : Holding) : State :=
  let heir := heirOf s x
  let s := match x.kind with
    | 1 => serveWord s x.home x.asid x.cell (markedWord (readWord s.mem x.cell) heir.isNone)
    | 3 => serveWord s x.home x.asid x.cell (BitVec.ofNat 64 ((if heir.isSome then 2 else 3) * 2 ^ 61))
    | _ =>
      if !handleOwned s x.asid x.key then s
      else match bitsAt x.key 60 4 with
        | 2 =>
          let c := s.core (handleCore x.key)
          let m := 1#16 <<< bitsAt x.key 0 4
          s.setCore (handleCore x.key) { c with
            qbereaved := c.qbereaved ||| m, qorphan := if heir.isNone then c.qorphan ||| m else c.qorphan }
        | 3 => conveyBarrier s (barrierSelected x.key) heir.isSome
        | _ => s
  passEntry s g die ix x heir false

/-- The kind of holding that a part conveys. -/
def partKind (part : Nat) (x : Holding) : Bool := x.kind + 1 == part

/-- CONVEYANCE_STEP (R382): the next holding in the order, else the next part, else the records. -/
def execConveyanceStep (g : BitVec 16) (s : State) : Out :=
  let x := s.group g
  match x.conv with
  | none => .next s
  | some c =>
    let next := fun (part : Nat) => s.setGroup g { x with conv := some { c with part := part } }
    let again := fun (s : State) => Host.Outcome.next (s.later (.conveyanceStep g))
    if c.part = 1 then
      match firstReservation s g x.asid with
      | some (core, r) => again (conveyReservation s g core r)
      | none => again (next 2)
    else if c.part ≤ 4 then
      match firstHolding s g x.asid (partKind c.part) with
      | some (die, ix, y) => again (conveyEntry s g die ix y)
      | none => again (next (c.part + 1))
    else .next (s.later (.arrivalRecordWrite g))

/-- The doublewords of an arrival record (R388). -/
def recordWords (s : State) (g : BitVec 16) (c : Conveyance) (h : BitVec 16) : List Word × Bool :=
  let items := ((c.given.filter fun x => x.1 == h).map (·.2)) ++ (s.group g).cancelled.map (·.2)
  let n := Nat.min items.length 28
  let ovf := decide (28 < items.length)
  let listed := (items.take 28).flatMap fun x => [x.1, x.2]
  let head : List Word :=
    [BitVec.ofNat 64 (g.toNat + h.toNat * 2 ^ 16 + n * 2 ^ 32 + (if ovf then 2 ^ 37 else 0)), c.began,
      (if (s.group g).killed then 1#64 else 0#64), 0#64, 0#64, 0#64, 0#64, 0#64]
  (head ++ listed ++ List.replicate (56 - listed.length) 0#64, ovf)

/-- Where a group's next record goes, if it can be written (R388): the AREA page is translated by the home core. -/
def recordPlace (s : State) (h : BitVec 16) : Option (Word × Place) :=
  let x := s.group h
  let ea := x.area + BitVec.ofNat 64 (512 * (x.arrn.toNat % 8))
  if x.area = 0#64 then none
  else match engineTranslate s x.home x.asid (ea.toNat : Int) kindSTORE 0#2 with
    | .fail _ => none
    | .at _ p =>
      match homeRefusal s p.home 0#2 x.asid false p.cell (p.cell + 511) with
      | some _ => none
      | none => some (ea, p)

/-- The least TNUM of a list. -/
def leastFirst : List (Nat × Nat) → Option (Nat × Nat)
  | [] => none
  | x :: xs => match leastFirst xs with
    | none => some x
    | some y => if x.1 ≤ y.1 then some x else some y

/-- The heir's estate interrupt (R389): its live thread of lowest TNUM, in a slot or saved. Where several records come before the
delivery, p1 is the latest (log 39, DESIGN CHOICE: R191 does not say which). -/
def tellHeir (s : State) (h : BitVec 16) (record : Word) : State :=
  let slot := fun (k : Nat) => s.setThr k { s.thr k with uip := (s.thr k).uip ||| 2#3, argEstate := record }
  let saved := fun (y : Nat × Nat) => tellSaved s h y 0#64 0x20#64 fun a => { a with estate := record }
  match leastFirst ((groupKeys s h).map fun k => ((s.thr k).tnum.toNat, k)),
    leastFirst (savedThreads s h (s.group h).asid) with
  | none, none => s
  | some x, none => slot x.2
  | none, some y => saved y
  | some x, some y => if x.1 ≤ y.1 then slot x.2 else saved y

/-- CONVEYED's INFO (R390). -/
def conveyedInfo (g : BitVec 16) (c : Conveyance) : Nat :=
  g.toNat + c.conveyed % 2 ^ 14 * 2 ^ 16 + c.heirless % 2 ^ 14 * 2 ^ 30 + (if c.ovf then 2 ^ 44 else 0)

/-- ARRIVAL_RECORD_WRITE (R388, R389): one heir's record and interrupt; after the last the CONVEYED event. -/
def execArrivalRecordWrite (g : BitVec 16) (s : State) : Out :=
  let x := s.group g
  match x.conv with
  | none => .next s
  | some c =>
    match c.given with
    | [] =>
      let s := s.setGroup g { x with conv := none, done := true }
      if c.conveyed = 0 ∧ c.heirless = 0 ∧ x.cancelled = [] then .next s
      else .next (enterHev s x.home 4 (conveyedInfo g c))
    | y :: _ =>
      let h := y.1
      let r := recordWords s g c h
      let place := recordPlace s h
      let s := match place with
        | some (_, p) => { s.whole p.cell 512 with mem := writeWords s.mem p.cell r.1 }
        | none => s
      let s := tellHeir s h ((place.map (·.1)).getD 0#64)
      let s := s.setGroup h { s.group h with arrn := (s.group h).arrn + 1#8 }
      .next ((s.setGroup g { s.group g with conv := some { c with
        given := c.given.filter fun z => z.1 != h
        ovf := c.ovf || r.2 } }).later (.arrivalRecordWrite g))

/-- The entry of a group whose conveyance is complete is freed (R323): its letters pass on. -/
def freeGroupEntry (s : State) (g : BitVec 16) : State :=
  let x := s.group g
  let s := s.setGroup g { x with state := .free, gen := x.gen + 1#4, letters := [], cancelled := [], conv := none }
  x.letters.foldl (fun s m =>
    match resolveHeir s 4 x.dheir with
    | some h => fileLetter s x.home h m
    | none => enterHev (countDropped s (dieOf x.home)) x.home 2 (letterInfo m)) s

end Sys2Proof.Machine
end

