-- ==== Sys2Proof/Machine/Kernel.lean ====
section
/-! DEFINITION. Kernels: the launch pool, placement, timed start, ending (14 R306 to R320). -/

namespace Sys2Proof.Machine

/-! Acceptance (R316). -/

/-- The bound kernel and the launch record's address, when an address is a record of a context (R320). -/
def boundRecord (s : State) (asid : BitVec 16) (ea : Nat) : Option Bound :=
  findFirst (fun b => b.asid == asid && b.records.contains ea) s.bound

/-- The place of an address of a context that a unit of a core reads: walked, with the permission of a kind. -/
def unitPlace (s : State) (core : Nat) (asid : BitVec 16) (ea kind : Nat) (ilv : Bool) : Option Place :=
  if 2 ^ 51 ≤ ea then none
  else match walkAll s 8 (Walk.start (BitVec.ofNat 64 ea) 0 asid 0#16) with
    | none => none
    | some t =>
      if (leafReason t.leaf core kind).isSome || (leafIlv t.leaf && !ilv) then none
      else some (leafPlace s t.level t.leaf ea)

/-- The nodes of a cluster with 2^log quads, by first quad (R472). -/
def clusterNodes (token : Bool) (log : Nat) : List Nat :=
  let tree := fun (base size : Nat) =>
    if 2 ^ log ≤ size then (upTo (size / 2 ^ log)).map fun j => base + j * 2 ^ log else []
  if token then tree 24 32 else tree 0 16 ++ tree 16 8

/-- The nodes that a kernel may take, in the order in which they are tried (R309). -/
def kernelNodes (k : KernelEntry) : List (Nat × Nat) :=
  let log := k.quads.log2
  let of_ := fun (token : Bool) => (clusterNodes token log).map fun q => (q, log)
  match k.cluster with
  | 0 => of_ false
  | 1 => of_ true
  | _ => of_ true ++ of_ false

/-- The cores of a node of a die, in row order and then column order. -/
def nodeCores (die : Nat) (n : Nat × Nat) : List Nat :=
  (dieCores die).filter fun c => decide (n.1 ≤ quadOf c) && decide (quadOf c < n.1 + 2 ^ n.2)

/-- A node lies in the partition of a context. -/
def nodeInPartition (s : State) (asid : BitVec 16) (die : Nat) (n : Nat × Nat) : Bool :=
  (nodeCores die n).all fun c => inPartition s asid c && (s.core c).health != .retired

/-- A free record of the die's pool (R307), chosen freely: the manual gives no order (log 6, DESIGN CHOICE). -/
def freeRecord (s : State) (die : Nat) : Option Nat :=
  let free := (upTo 256).filter fun i => !(s.record die i).used
  free[Config.choice s.nonce % free.length]?

/-- The registered promise with a key: its word's cell. -/
def promiseCell (s : State) (key : Word) (asid : BitVec 16) : Option Nat :=
  ((upTo 4).flatMap fun die => ((validHoldings s die).filter fun x =>
    x.2.kind == 3 && x.2.key == key && x.2.asid == asid).map fun x => x.2.cell).head?

/-- The state that an accepted or released kernel enters (R308). -/
def enterState (s : State) (x : KernelRec) : KernelRec :=
  if x.timed ∧ s.time.ult x.start then { x with state := .timedWait }
  else { x with state := .pending, entered := s.time, late := x.late || (x.timed && x.start.ult s.time) }

/-- Accept a launch record (R316): the new state and the handle. -/
def acceptLaunch (s : State) (die ix : Nat) (asid : BitVec 16) (k : KernelEntry) (ea : Nat) (words : List Word)
    (start : Option Word) (detach : Bool) (await : Option Nat) : State × Word :=
  let old := s.record die ix
  let flags := bitsAt (words.getD 0 0#64) 32 32
  let x := { KernelRec.reset with
    gen := old.gen + 1#8, used := true, asid := asid, kernel := k, record := ea, args := (words.drop 3).take 4
    timed := start.isSome || flags % 2 == 1, start := start.getD (words.getD 1 0#64), await := await, detach := detach }
  let x := if await.isSome then { x with state := .awaiting } else enterState s x
  (s.setRecord die ix x, BitVec.ofNat 64 (die * 2 ^ 16 + x.gen.toNat * 2 ^ 8 + ix))

/-- The step of a launch at the pool of a die (R316): the new state, and the handle or the refusal. A record whose home refuses
the read is answered NOREC, as one with an absent page is (R492; log 39, DESIGN CHOICE for the status). -/
def launchStep (s : State) (k : Nat) (a b : Word) (start : Option Word) : State × Word :=
  let own := (s.thr k).asid
  let asid := if bitsAt b 0 16 = 0 then own else b.extractLsb' 0 16
  let die := if b.getLsbD 18 then bitsAt b 16 2 else dieOf (coreOf k)
  let ea := addrOf a
  if (!isSystem (coreOf k) ∧ asid ≠ own) ∨ !guestOwns s k asid then (s, refusedWord 3)
  else match freeRecord s die with
    | none => (s, refusedWord 1)
    | some ix =>
      match boundRecord s asid ea, unitPlace s (256 * die) asid ea kindLOAD false with
      | some bound, some p =>
        if (homeRefusal s p.home p.mode asid true p.cell p.cell).isSome then (s, refusedWord 2) else
        let words := readWords s.mem p.cell 8
        match bound.kernels[bitsAt (words.getD 0 0#64) 0 32]? with
        | none => (s, refusedWord 2)
        | some e =>
          if s.dieRetired die ∨ !(kernelNodes e).any (nodeInPartition s asid die) then (s, refusedWord 4)
          else if bitsAt (words.getD 0 0#64) 33 1 = 1 then
            match promiseCell s (words.getD 2 0#64) asid with
            | none => (s, refusedWord 5)
            | some cell => acceptLaunch s die ix asid e ea words start (b.getLsbD 19) (some cell)
          else acceptLaunch s die ix asid e ea words start (b.getLsbD 19) none
      | _, _ => (s, refusedWord 2)

/-- launch and tlaunch (R316): the pool takes its step at issue, and the handle arrives later (log 12, DEDUCED). -/
def launchWith (i : Instr) (d a b : Reg) (timed : Bool) (s : State) : Out :=
  issue i s fun s =>
    let k := s.cur
    let av := readReg s k a
    let bv := readReg s k b
    if bitsAt av 52 12 ≠ 0 ∨ bitsAt av 0 6 ≠ 0 then operandTrap s av
    else if bitsAt bv 20 44 ≠ 0 ∨ (isSystem (coreOf k) ∧ (bitsAt bv 0 16 = 0 ∨ !bv.getLsbD 18)) then operandTrap s bv
    else afterAccesses s <|
      let r := launchStep s k av bv (if timed then some (readReg s k d) else none)
      finishLong r.1 i d (.one r.2)

/-- R316 launch. -/
def execLaunch (d a b : Reg) (lk : BitVec 4) (s : State) : Out := launchWith (.launch d a b lk) d a b false s

/-- R316 tlaunch: d is read at issue as START. -/
def execTlaunch (d a b : Reg) (lk : BitVec 4) (s : State) : Out := launchWith (.tlaunch d a b lk) d a b true s

/-! kstat and kwait (R317, R318). -/

/-- The contexts whose records a thread may read: its own, on a compute core. -/
def readableAsid (s : State) (k : Nat) : Option (BitVec 16) :=
  if isSystem (coreOf k) then none else some (s.thr k).asid

/-- R317 kstat. -/
def execKstat (d a : Reg) (s : State) : Out :=
  issue (.kstat d a) s fun s =>
    let av := readReg s s.cur a
    if bitsAt av 18 46 ≠ 0 then operandTrap s av
    else finishWrite s d (kernelWord (recordNamed s av.toNat) (readableAsid s s.cur))

/-- R318 kwait: its window holds back the thread's later memory accesses. -/
def execKwait (d a : Reg) (lk : BitVec 4) (s : State) : Out :=
  issue (.kwait d a lk) s fun s =>
    let av := readReg s s.cur a
    if bitsAt av 18 46 ≠ 0 then operandTrap s av else finishEvent s (.kwait d a lk) d true av 0#64

/-- The event of kwait: a record that is DONE or FAULTED, or a stale handle; its close reads the record, and frees it. -/
def kwaitEvent (s : State) (k : Nat) (w : Window) : Option Result :=
  let asid := readableAsid s k
  let going := (recordNamed s w.a.toNat).any fun x => !asid.any (· != x.asid) && x.state != .done && x.state != .faulted
  if going then none else some (.kernel w.a.toNat asid)

/-! Steps of the pool (R308 to R314). -/

/-- A record that reaches DONE or FAULTED: a DETACH kernel's is freed at once (R314). -/
def KernelRec.ended (x : KernelRec) (now : Word) : KernelRec := if x.detach then x.leave now else x

/-- The pool can read the promise word that a record awaits (R492). -/
def promiseServed (s : State) (x : KernelRec) (cell : Nat) : Bool :=
  wordServed s (physHome (decide (2 ^ 52 ≤ cell)) cell) x.asid cell

/-- KERNEL_PROMISE_RELEASE (R308, R312): a word whose home refuses the read releases nothing. -/
def execKernelPromiseRelease (die ix : Nat) (s : State) : Out :=
  let x := s.record die ix
  match x.await with
  | none => .next s
  | some cell =>
    if !x.used ∨ x.state ≠ .awaiting ∨ !promiseServed s x cell then .next s
    else match promiseState s cell with
      | 1 => .next (s.setRecord die ix (enterState s x))
      | 2 => .next (s.setRecord die ix (enterState s { x with bereaved := true }))
      | 3 => .next (s.setRecord die ix ({ x with state := .faulted, cause := 2 }.ended s.time))
      | _ => .next s

/-- KERNEL_TIMED_START (R308, R313). -/
def execKernelTimedStart (die ix : Nat) (s : State) : Out :=
  let x := s.record die ix
  if x.used ∧ x.state = .timedWait ∧ x.start.ule s.time then
    .next (s.setRecord die ix { x with state := .pending, entered := s.time })
  else .next s

/-- Two nodes share a quad. -/
def nodesMeet (a b : Nat × Nat) : Bool := decide (a.1 < b.1 + 2 ^ b.2) && decide (b.1 < a.1 + 2 ^ a.2)

/-- A node qualifies for a kernel (R309). -/
def qualifies (s : State) (die : Nat) (asid : BitVec 16) (k : KernelEntry) (n : Nat × Nat) : Bool :=
  nodeInPartition s asid die n && (nodeCores die n).all (hostsResidence s asid) &&
    (s.die die).pool.all (fun x => !(x.2.holds && x.2.node.any (nodesMeet n))) &&
    (nodeCores die n).all fun c => decide (k.slots ≤ (emptySlots s c).length)

/-- The handle word at an address, where it can be read (R69): a word that is not aligned, not mapped or refused by its home
cannot. -/
def handleWordAt (s : State) (core : Nat) (asid : BitVec 16) (ea : Nat) : Option Word :=
  match unitPlace s core asid ea kindLOAD true with
  | none => none
  | some p =>
    if ea % 8 ≠ 0 || (homeRefusal s p.home p.mode asid true p.cell p.cell).isSome then none else some (readWord s.mem p.cell)

/-- One estate declaration (R69): the entry, or a refusal, which registers nothing. A KIND 1 or 3 word whose address check would
trap or page-fault registers nothing too (log 36, DESIGN CHOICE: R69 lists no such case), nor does a promise whose home refuses
its write (log 37, DESIGN CHOICE). -/
def declare (s : State) (die : Nat) (asid group : BitVec 16) (home : Nat) (e : EstDecl) : State × Word :=
  let key := BitVec.ofNat 64 (addrOf e.key)
  match e.kind with
  | 1 => match unitPlace s home asid key.toNat kindSTORE true with
    | some p => if key.toNat % 8 = 0 then register s die 1 key asid group (some p) else (s, refusedWord 3)
    | none => (s, refusedWord 3)
  | 3 => match unitPlace s home asid key.toNat kindSTORE false with
    | some p => if key.toNat % 8 = 0 && (homeRefusal s p.home p.mode asid false p.cell p.cell).isNone then createPromise s die key asid group p else (s, refusedWord 3)
    | none => (s, refusedWord 3)
  | _ =>
    match (if e.indirect then handleWordAt s home asid key.toNat else some e.key) with
    | none => (s, refusedWord 3)
    | some w =>
      if handleWordOk w && handleOwned s asid w then register s die 2 w asid group none else (s, refusedWord 3)

/-- The group that the launch of a record has created (R69): ACTIVE, the context's, not the holder. Of several, the first by die
and then by record slot (log 36, DESIGN CHOICE: R69 does not say which). -/
def launchedGroup (s : State) (asid group : BitVec 16) (record : Nat) : Option (BitVec 16) :=
  ((upTo 4).flatMap fun die => (s.die die).pool.filterMap fun x =>
    if x.2.used && x.2.asid == asid && x.2.record == record && x.2.node.isSome && s.groupHeld x.2.group &&
        (s.group x.2.group).state == .active && x.2.group != group then some x.2.group else none).head?

/-- Register the declarations of a placed kernel (R69): one that fails registers nothing. -/
def declareAll (die : Nat) (asid group : BitVec 16) (home : Nat) (s : State) : List EstDecl → State
  | [] => s
  | e :: es =>
    let r := declare s die asid group home e
    if r.2.getLsbD 63 then declareAll die asid group home s es
    else
      let ix := handleIndex r.2.toNat
      let heir := e.heir.bind (launchedGroup r.1 asid group)
      declareAll die asid group home (r.1.setHolding die ix { r.1.holding die ix with heir := heir }) es

/-- The images of a kernel in the buffers of one core (R73, R310). -/
def writeImages (k : KernelEntry) (s : State) (core : Nat) : State :=
  { s with mem := k.images.foldl (fun m x => writeList m (bufferCell core x.1 x.2.1) x.2.2) s.mem }

def imageBytes (k : KernelEntry) : Nat := (k.images.map fun x => x.2.2.length).sum

/-- Quiet-bank mode on a node's cores. -/
def quietCores (s : State) (cores : List Nat) : State :=
  cores.foldl (fun s c => s.setCore c { s.core c with quiet := true }) s

/-- The edge at which the threads of a kernel placed now are created (R311): 2.1 ck a ns. -/
def creationEdge (s : State) (k : KernelEntry) : Word :=
  let ck := (imageBytes k + 63) / 64
  s.time + BitVec.ofNat 64 (256 + (10 * ck + 20) / 21)

/-- KERNEL_PLACEMENT (R309, R310): a PENDING kernel takes the first node that qualifies; its group is created. Declared
addresses are checked as accesses of the node's first core (log 36, DESIGN CHOICE: R69 names no core). -/
def execKernelPlacement (die ix : Nat) (s : State) : Out :=
  let x := s.record die ix
  if !x.used ∨ x.state ≠ .pending then .next s
  else match findFirst (qualifies s die x.asid x.kernel) (kernelNodes x.kernel), freeGroup s die with
    | some n, some gi =>
      let cores := nodeCores die n
      let gen := (tabGet Group.reset (s.die die).groups gi).gen
      let g := groupNumber die gi gen
      let home := cores.headD 0
      let s := s.setGroup g (newGroup gen x.asid x.kernel.whole false x.kernel.threads home (some ix))
      let s := s.setRecord die ix { x with
        state := .placing, node := some n, group := g, late := x.late || (x.timed && x.start.ult s.time)
        create := creationEdge s x.kernel, live := x.kernel.threads }
      let s := cores.foldl (writeImages x.kernel) s
      let s := if x.kernel.quiet then quietCores s cores else s
      .next (declareAll die x.asid g home s x.kernel.estate)
    | _, _ => .next s

/-- Create the threads of a placed kernel (R310): thread t on. A core that has failed meanwhile loses its threads. -/
def createThreads (x : KernelRec) (cores : List Nat) (s : State) : List Nat → State
  | [] => s
  | t :: ts =>
    let e := x.kernel
    let core := cores.getD (t / e.slots) 0
    match (if hostsResidence s x.asid core then emptySlot s core else none) with
    | none => createThreads x cores (memberEnds s x.group (.loss (BitVec.ofNat 16 t) 1)) ts
    | some j =>
      createThreads x cores (startThread s (8 * core + j) x.asid x.group (BitVec.ofNat 16 t) e.pinned e.entry x.args
        (framePointer core (524288 - t % e.slots * e.frame))) ts

/-- KERNEL_THREAD_CREATE (R310, R311): a kill held until now is applied before any thread issues. It waits while arrivals
have left a core of the node too few EMPTY slots (log 15, DEDUCED). -/
def execKernelThreadCreate (die ix : Nat) (s : State) : Out :=
  let x := s.record die ix
  match x.node with
  | none => .next s
  | some n =>
    let cores := nodeCores die n
    if !x.used ∨ x.state ≠ .placing ∨ s.time.ult x.create then .next s
    else if !cores.all (fun c => !hostsResidence s x.asid c || decide (x.kernel.slots ≤ (emptySlots s c).length)) then
      .next s
    else
      let s := s.setRecord die ix { x with state := .running, killHeld := false }
      let s := createThreads x cores s (upTo x.kernel.threads)
      .next (if x.killHeld && s.groupHeld x.group && (s.group x.group).state == .active then killGroup s x.group else s)

/-- KERNEL_DRAIN_END (R314, R323), at a shared-clock edge: the group's entry is freed, and its kernel, if any, reaches DONE or FAULTED. -/
def execKernelDrainEnd (die : Nat) (g : BitVec 16) (s : State) : Out :=
  let x := s.group g
  if !s.groupHeld g ∨ x.state ≠ .draining then .next s
  else if !x.done ∨ !groupQuiet s g then .next s
  else
    let s := match x.kernel with
      | none => s
      | some ix =>
        let r := s.record die ix
        if r.used && r.group == g && r.state == .draining then
          s.setRecord die ix ({ r with state := if x.killed then .faulted else .done }.ended s.time)
        else s
    .next (freeGroupEntry s g)

/-- The records of a torn-down context are freed on a die (R314). -/
def tearDownRecords (s : State) (die : Nat) (asid : BitVec 16) : State :=
  let d := s.die die
  s.setDie die { d with pool := d.pool.map fun x =>
    if x.2.used && x.2.asid == asid then (x.1, { x.2 with state := .faulted, cause := 3 }.leave s.time) else x }

/-! The pool at a shared-clock edge (R309, R312, R313). -/

/-- A record's place in the scan: class, the edge at which it entered PENDING, index. -/
def scanBefore (now : Word) (a b : Nat × KernelRec) : Bool :=
  let at_ := fun (x : KernelRec) => if x.state = .pending then x.entered.toNat else now.toNat
  decide (a.2.kernel.cls < b.2.kernel.cls) ||
    (a.2.kernel.cls == b.2.kernel.cls && (decide (at_ a.2 < at_ b.2) || (at_ a.2 == at_ b.2 && decide (a.1 ≤ b.1))))

def insertScan (now : Word) (x : Nat × KernelRec) : List (Nat × KernelRec) → List (Nat × KernelRec)
  | [] => [x]
  | y :: ys => if scanBefore now y x then y :: insertScan now x ys else x :: y :: ys

/-- The awaited promise of a record is resolved. -/
def releaseReady (s : State) (x : KernelRec) : Bool :=
  x.used && x.state == .awaiting && x.await.any fun c =>
    promiseServed s x c && decide (1 ≤ promiseState s c) && decide (promiseState s c ≤ 3)

def startReady (s : State) (x : KernelRec) : Bool := x.used && x.state == .timedWait && x.start.ule s.time

/-- A group whose end has come (R314). -/
def drainReady (s : State) (g : BitVec 16) : Bool := (s.group g).state == .draining && (s.group g).done && groupQuiet s g

/-- The steps of a die's pool at an edge: releases, timed starts, placements in the order of R309, creations. -/
def poolEdge (s : State) (die : Nat) : State :=
  let pool := (s.die die).pool
  let rel := pool.filter fun x => releaseReady s x.2
  let start := pool.filter fun x => startReady s x.2
  let scan := (pool.filter fun x => x.2.used && (x.2.state == .pending || releaseReady s x.2 || startReady s x.2)).foldl
    (fun l x => insertScan s.time x l) []
  let create := pool.filter fun x => x.2.used && x.2.state == .placing && x.2.create.ule s.time
  { s with due := s.due ++ rel.map (fun x => Event.kernelPromiseRelease die x.1) ++
      start.map (fun x => Event.kernelTimedStart die x.1) ++ scan.map (fun x => Event.kernelPlacement die x.1) ++
      create.map (fun x => Event.kernelThreadCreate die x.1) }

/-- What the groups of a die take at an edge (R323), and the ends that have come (R314). -/
def groupsEdge (s : State) (die : Nat) : State :=
  let s := (dieGroups s die).foldl groupEdge s
  { s with due := s.due ++ ((dieGroups s die).filter (drainReady s)).map (Event.kernelDrainEnd die) }

end Sys2Proof.Machine
end

