-- ==== Sys2Proof/Machine/Context.lean ====
section
/-! DEFINITION. Slots, the slot table and energy shares (13 R280 to R287, 09 R219), migration (R299 to R303), yield
(R304). -/

namespace Sys2Proof.Machine

/-! The slot table (R281 to R284). -/

/-- Entry k of a slot table. -/
def tableEntry (w : Word) (k : Nat) : Nat := bitsAt w (4 * k) 4

/-- A table that slotw and ctxload accept: no reserved code, an entry of slot 7. -/
def tableOk (w : Word) : Bool :=
  (upTo 16).all (fun k => decide (tableEntry w k ≤ 8)) && (upTo 16).any fun k => tableEntry w k == 7

/-- A table reaches a core (R284): the status, 1 where it is REFUSED. -/
def placeTable (s : State) (core : Nat) (v : Word) : State × Word :=
  if tableOk v then (s.setCore core { s.core core with slotpend := v }, 0#64) else (s, 1#64)

/-- R284 slotw: the request travels to the named core, once the outbound queue has room (R361; log 39, DESIGN CHOICE); at the
issuing core it arrives in the ck of its issue. -/
def execSlotw (d a b : Reg) (s : State) : Out :=
  issue (.slotw d a b) s fun s =>
    let bv := readReg s s.cur b
    if bitsAt bv 52 12 ≠ 0 ∨ bitsAt bv 0 40 ≠ 0 then operandTrap s bv
    else match coreFor s s.cur bv with
      | none => operandTrap s bv
      | some core =>
        let av := readReg s s.cur a
        if core = coreOf s.cur then
          let x := placeTable s core av
          finishWrite x.1 d x.2
        else if !roomOut s (coreOf s.cur) core then forfeit s
        else .next ((awaitAnswer s d).later (.slotwRequest s.cur d core av))

/-- SLOTW_REQUEST (R284). -/
def execSlotwRequest (key : Nat) (d : Reg) (core : Nat) (v : Word) (s : State) : Out :=
  let x := placeTable s core v
  .next (answerFrom x.1 core key d x.2)

/-- The threads of a core may issue from this frame boundary on (R296, R311, R337). -/
def openSlots (core : Nat) (s : State) (j : Nat) : State :=
  let k := 8 * core + j
  if (s.thr k).fresh then s.setThr k { s.thr k with fresh := false } else s

/-- What a load left for the frame boundary is installed (R296): SLOTPEND and the shares, slot 7's kept. -/
def Core.installed (c : Core) : Core :=
  match c.sharePend with
  | none => c
  | some (tab, e0, e1) => { c with
      slotpend := tab, eshare0 := e0
      eshare1 := BitVec.ofNat 64 (bitsAt c.eshare1 48 16 * 2 ^ 48 + bitsAt e1 0 48), sharePend := none }

/-- FRAME_BOUNDARY (R282, R285, R296): what a load left is installed, then SLOTTAB := SLOTPEND, and the quiet-bank mode
selected takes effect. -/
def execFrameBoundary (core : Nat) (s : State) : Out :=
  let c := (s.core core).installed
  .next ((upTo 7).foldl (openSlots core)
    (s.setCore core { c with slottab := c.slotpend, quietOn := c.quiet, arming := false }))

/-- SHARE of a slot (R220). -/
def shareOf (c : Core) (j : Nat) : Nat := bitsAt (if j < 4 then c.eshare0 else c.eshare1) (16 * (j % 4)) 16

/-- ENERGY_REFILL (R219). -/
def execEnergyRefill (core : Nat) (s : State) : Out :=
  let c := s.core core
  .next (s.setCore core { c with eleft := Vector.ofFn fun (j : Fin 8) => shareOf c j.val, exhausted := 0#8 })

/-- A sum of shares beyond what R220 allows. -/
def sharesExceed (e0 e1 : Word) : Bool :=
  decide (65535 < ((upTo 4).map fun j => bitsAt e0 (16 * j) 16 + bitsAt e1 (16 * j) 16).sum)

/-- CTXST (R287). -/
def residenceCode : Residence → Nat
  | .free => 0 | .loaded => 1 | .running => 2 | .preempting => 3 | .resuming => 5 | .migratingOut => 6

def contextIdle (s : State) (core : Nat) : Bool :=
  (upTo 7).all fun j =>
    let t := s.thr (8 * core + j)
    t.sstate == .empty || t.sstate == .ended ||
      (t.sstate == .run && asleep s (8 * core + j) && t.sleep.any Sleep.asYield)

def ctxstWord (s : State) (core : Nat) : Word :=
  let c := s.core core
  BitVec.ofNat 64 (c.ctxAsid.toNat * 2 ^ 16 + c.ctxClass.toNat * 2 ^ 9 + (if contextIdle s core then 2 ^ 8 else 0) +
    residenceCode c.residence)

/-! Migration (R299 to R302). -/

/-- The open windows of a migrating thread close in order of opening, as though their counts had run out. -/
def closeAll (s : State) (k : Nat) : State :=
  let t := s.thr k
  closeWindows (s.setThr k { t with windows := t.windows.map fun w => { w with count := 0 } }) k

/-- The cause of a migration finishes at its source (R301): a status for migrate, the access stays, levelling moves
nothing. -/
def migrationStays (s : State) (k : Nat) (cause : MigCause) (status : Nat) : State :=
  let s := s.setThr k { s.thr k with hold := .none }
  match cause with
  | .access => s.setThr k { s.thr k with stay := true }
  | .instr d => retire (writeReg s k d (BitVec.ofNat 64 status)) k
  | .level => s

/-- The packet (R300). -/
def migrationPacket (s : State) (k dst : Nat) (cause : MigCause) : MigPacket :=
  let t := s.thr k
  { src := k, dst := dst, cause := cause, pc := t.pc, asid := t.asid, tnum := t.tnum, group := t.group, gen := t.gen,
    seq := t.seq, ie := t.uie, ip := t.uip, uvec := t.uvec, p := t.p.toList, q := t.q }

/-- MIGRATION_SEND (R299): it waits for the thread's work, and for room in the core's outbound queue of class 3 (R361); a POSTED trap that came meanwhile abandons it (status 5). -/
def execMigrationSend (key dst : Nat) (cause : MigCause) (s : State) : Out :=
  if (s.thr key).hold ≠ .migrating then .next s
  else if 8 ≤ outbound s (coreOf key) 3 then .next (s.later (.migrationSend key dst cause))
  else
    let s := closeAll s key
    let t := s.thr key
    if t.windows ≠ [] ∨ t.outst ≠ [] ∨ !enginesIdle s key then .next (s.later (.migrationSend key dst cause))
    else if t.posted ≠ [] then .next (migrationStays s key cause 5)
    else .next (s.later (.migrationPacketArrival (migrationPacket s key dst cause) s.ck))

/-- The packet's thread in a slot of the destination. The arguments of its pending interrupts come with it (log 14, DESIGN
CHOICE), and what has become pending at its source meanwhile. -/
def arrivedThread (p : MigPacket) (old : Thread) (from_ : Thread) : Thread :=
  { Thread.empty with
    sstate := .run, gen := old.gen + 1#8, asid := p.asid, group := p.group, tnum := p.tnum, pc := p.pc
    p := Vector.ofFn fun (i : Fin 10) => p.p.getD i.val 0#64
    q := p.q, latch := 0x1E#5, seq := p.seq, uvec := p.uvec, uip := p.ip ||| from_.uip, uie := p.ie
    argEngine := from_.argEngine, argEng := from_.argEng, argEstate := from_.argEstate, argMsg := from_.argMsg
    killed := from_.killed, lossCause := from_.lossCause }

/-- The absent marks of one thread's reservations are cleared (R298): a migration sets none. -/
def unmarkThread (s : State) (t : Thread) : State :=
  { s with cores := s.cores.map fun x => (x.1, { x.2 with
      resv := x.2.resv.map fun r =>
        if r.asid == t.asid && r.group == t.group && r.tnum == some t.tnum then { r with absent := false } else r }) }

/-- The packet's thread is still the one that waits in its source slot. -/
def stillSends (s : State) (p : MigPacket) : Bool := (s.thr p.src).hold == .migrating && (s.thr p.src).gen == p.gen

/-- The core takes a packet (R299, R301): the thread goes into the lowest EMPTY slot, and the source slot becomes EMPTY; or it
is refused with the status that migrate returns. -/
def takePacket (s : State) (p : MigPacket) : State :=
  let refuse := fun (status : Nat) => s.later (.migrationRefusalReturn p status)
  if !stillSends s p then s
  else if s.dieRetired (dieOf p.dst) || !hostsResidence s p.asid p.dst then refuse 3
  else match emptySlot s p.dst with
    | none => refuse 2
    | some j =>
      let k := 8 * p.dst + j
      let s := s.setThr k (arrivedThread p (s.thr k) (s.thr p.src))
      let s := s.setCore p.dst { s.core p.dst with residence := .running }
      let s := unmarkThread (emptySlotNow s p.src) (s.thr k)
      match p.cause with
      | .instr d => retire (writeReg s k d 0#64) k
      | _ => s

/-- MIGRATION_PACKET_ARRIVAL (R299, R360, R365): the packet enters queue 3 of the destination, or stays at the head of its
sender's queue, to be sent again no sooner than 64 ck later. -/
def execMigrationPacketArrival (p : MigPacket) (s : State) : Out :=
  let c := s.core p.dst
  if s.dieRetired (dieOf p.dst) then .next (takePacket s p)
  else if admits c 3 2 then .next ((s.setCore p.dst { c with packets := c.packets ++ [p] }).later (.packetTake p.dst))
  else .next (s.sooner (.migrationPacketArrival p (s.ck + 64)))

/-- The oldest packet leaves queue 3 (R301). -/
def packetTake (s : State) (core : Nat) : State :=
  let c := s.core core
  match c.packets with
  | [] => s
  | p :: ps => takePacket (s.setCore core { c with packets := ps }) p

/-- MIGRATION_REFUSAL_RETURN (R301): the thread goes on in its source slot; one killed meanwhile ends. -/
def execMigrationRefusalReturn (p : MigPacket) (status : Nat) (s : State) : Out :=
  if (s.thr p.src).hold ≠ .migrating then .next s
  else
    let s := migrationStays s p.src p.cause status
    if (s.thr p.src).killed && residenceRuns s (coreOf p.src) then .next (s.now (.threadEnd p.src)) else .next s

/-- The operand of migrate: none breaks the rules; the core it names. -/
def migrateOperandOk (s : State) (a : Word) : Bool :=
  a == 0#64 || (a.getLsbD 51 && bitsAt a 52 12 == 0 && bitsAt a 0 40 == 0 && decide (bitsAt a 45 4 < 14) &&
    decide (bitsAt a 40 5 < 16) && !s.dieRetired (bitsAt a 49 2))

/-- The target of migrate (R302): the named core, or the idlest other core of the last sample. -/
def migrateTargetOf (s : State) (k : Nat) (a : Word) : Option Nat :=
  if a = 0#64 then (idlest ((s.core (coreOf k)).sample.filter fun x => x.1 != coreOf k)).map (·.1)
  else some (coreAt (bitsAt a 49 2) (bitsAt a 45 4) (bitsAt a 40 5))

/-- R302 migrate: the status of a migration is written where the thread then runs. -/
def execMigrate (d a : Reg) (s : State) : Out :=
  issue (.migrate d a) s fun s =>
    let k := s.cur
    let av := readReg s k a
    let t := s.thr k
    if !migrateOperandOk s av then operandTrap s av
    else if isSystem (coreOf k) then finishWrite s d 3#64
    else if t.pinned then finishWrite s d 1#64
    else if t.uin then finishWrite s d 5#64
    else match migrateTargetOf s k av with
      | none => finishWrite s d 3#64
      | some core =>
        if core = coreOf k then finishWrite s d 4#64
        else if slotOf k = 7 ∨ !hostsResidence s t.asid core then finishWrite s d 3#64
        else .next (beginMigration s k core (.instr d))

/-- R303 pin. -/
def execPin (d a : Reg) (s : State) : Out :=
  issue (.pin d a) s fun s =>
    let k := s.cur
    if isSystem (coreOf k) then finishWrite s d 1#64
    else
      let t := s.thr k
      let v := (readReg s k a).getLsbD 0
      finishWrite (s.setThr k { t with pinned := v }) d (if t.pinned then 1#64 else 0#64)

/-- R304 yield. -/
def execYield (d a : Reg) (s : State) : Out :=
  issue (.yield d a) s fun s =>
    let mask := yieldMask (readReg s s.cur a)
    if mask = 0#5 then finishWrite s d 0#64 else waitFor s d a mask true

end Sys2Proof.Machine
end

