-- ==== Sys2Proof/Machine/Save.lean ====
section
/-! DEFINITION. Saving and loading a residence (13 R289 to R298, 07 R155, 09 R223, 11 R256 and R257). The image of a
save area is formed and written in one step once the residence is still; steps of other agents fall before it or after
it (log 16, DEDUCED). -/

namespace Sys2Proof.Machine

/-! Layout (R289). -/

def areaSize (core : Nat) : Nat := if isPrompt core then 0x1D4000 else 0xF2000
def wSection : Nat := 0x10000
def aSection (core : Nat) : Nat := wSection + bufferSize core 0
def matrixSection (core : Nat) : Nat := aSection core + bufferSize core 1

def wordBytes (w : Word) : List Byte := (upTo 8).map fun i => w.extractLsb' (8 * i) 8
def numberBytes (n v : Nat) : List Byte := (upTo n).map fun i => BitVec.ofNat 8 (v / 256 ^ i)
def zeros (n : Nat) : List Byte := List.replicate n 0#8

/-- A list filled up with zeros to n. -/
def padWords (n : Nat) (l : List Word) : List Word := l.take n ++ List.replicate (n - l.length) 0#64
def padBytes (n : Nat) (l : List Byte) : List Byte := l.take n ++ zeros (n - l.length)

def bytesOf (ws : List Word) : List Byte := ws.flatMap wordBytes
def bufferBytes (s : State) (core buffer : Nat) : List Byte :=
  (upTo (bufferSize core buffer)).map fun i => readByte s.mem (bufferCell core buffer i)

/-! Thread records (R291). -/

def sstateCode : SlotState → Nat
  | .run => 0 | .trapped => 1 | .pagewait => 2 | .ended => 3 | .empty => 4

/-- USTAT (R190). -/
def ustatWord (t : Thread) : Word :=
  BitVec.ofNat 64 ((if t.uin then 2 ^ 8 else 0) + t.uip.toNat * 2 ^ 4 + t.uie.toNat)

/-- A window whose event has to come again after a load (R39): an E whose event has not occurred, or whose result is read
at its close, and a vcmpm whose operation is saved. -/
def Window.rearms (w : Window) : Bool :=
  match w.arrival with
  | .ready (.one _) => false
  | .ready (.two _ _) => false
  | .ready .nothing => false
  | .ready (.refused _) => false
  | _ => true

/-- A window record. -/
def windowRecord (w : Window) : List Word :=
  let head := fun (kind : Nat) => BitVec.ofNat 64 (2 ^ 63 + kind * 2 ^ 62 + w.dest.toNat * 2 ^ 16 + w.count)
  let word := w.word.setWidth 64
  match w.arrival with
  | .ready (.one v) => [head 0, word, 0#64, v]
  | .ready (.two v x) => [head 0, word, x, v]
  | _ => [head 1, word, w.a, w.b]

/-- The windows to save, in the order they opened. -/
def savedWindows (t : Thread) : List Window := t.frozen ++ t.windows

def threadRecord (t : Thread) : List Word :=
  let own := if t.uin then t.ualt else lowFour t.p
  let handler := if t.uin then lowFour t.p else Vector.replicate 4 0#64
  if t.sstate == .empty then padWords 128 []
  else
    [BitVec.ofNat 64 (2 ^ 63 + (if t.pinned then 2 ^ 62 else 0) + sstateCode t.sstate * 2 ^ 58 + t.gen.toNat * 2 ^ 48 +
        t.group.toNat * 2 ^ 32 + t.tnum.toNat * 2 ^ 16), t.pc] ++
      own.toList ++ t.p.toList.drop 4 ++ [t.q, ustatWord t, t.upc, t.uvec] ++ handler.toList ++
      [BitVec.ofNat 64 (t.latch.toNat * 2 ^ 32 + t.seq.toNat), t.epc, t.cause, t.tval, t.vstatus, t.mstatus] ++
      List.replicate 6 0#64 ++ padWords 32 ((savedWindows t).flatMap windowRecord) ++ t.copyRegs.toList ++
      t.matRegs.toList ++ t.linkRegs.toList ++ List.replicate 32 0#64

/-! The engine section (R292). -/

/-- The codes of a channel entry that wait in an operation, and the byte position in that entry (R223). -/
def entryPosition (o : VecOp) : Nat :=
  if isChannel o.recD then begunEntry o * formatBits (recType o.recD) / 8
  else
    let r := if isChannel o.recX then o.recX else o.recY
    usedOfEntry o r * formatBits (recType r) / 8

def vecRecord (s : State) (o : VecOp) : List Word :=
  let bit := fun (b : Bool) (n : Nat) => if b then 2 ^ n else 0
  let cmp := o.cmd == cmdVcmpm
  let dest := match findFirst (fun (w : Window) => o.wid == some w.id) (s.thr o.key).allWindows with
    | some w => w.dest.toNat
    | none => 0
  let c := if o.started then coordsOf (beatRec o) o.next else ⟨0, 0, 0, 0⟩
  padWords 8 [BitVec.ofNat 64 (o.block + slotOf o.key * 2 ^ 20 + bit cmp 23 + bit o.started 24 + bit o.started 25 +
      (if cmp then 0 else o.cmd) * 2 ^ 26 + dest * 2 ^ 34), o.mask, o.n.setWidth 64,
    BitVec.ofNat 64 (c.i0 + c.i1 * 2 ^ 16 + c.i2 * 2 ^ 32 + c.i3 * 2 ^ 48),
    (if cmp then o.m else BitVec.ofNat 64 o.acc), BitVec.ofNat 64 (bit o.first 0 + entryPosition o * 2 ^ 6)]

/-- A repetition record: 256 bytes. -/
def repRecord (r : RepSeq) : List Byte :=
  padBytes 256 (padBytes 64 (r.words.flatMap fun w => numberBytes 4 w.toNat) ++ bytesOf (r.p.toList ++ [r.q]) ++
    wordBytes (BitVec.ofNat 64 (r.count % 2 ^ 16 + r.stagger * 2 ^ 16 + r.words.length * 2 ^ 20 + r.k * 2 ^ 32 +
      r.j * 2 ^ 48)) ++ wordBytes (r.base.setWidth 64))

def matRecord (o : MatOp) : List Word :=
  [BitVec.ofNat 64 (o.cmd + slotOf o.key * 2 ^ 8), o.a, o.b, o.n.setWidth 64] ++ o.regs.toList

/-- An operation is of a user slot. -/
def userSlot (k : Nat) : Bool := decide (slotOf k < 7)

/-- The repetition sequence of a slot. -/
def repOf (c : Core) (k : Nat) : Option RepSeq := findFirst (fun r => r.key == k) c.reps

def engineSection (s : State) (core : Nat) : List Byte :=
  let c := s.core core
  let vec := c.vecQueue.filter fun o => userSlot o.key
  let mat := c.matQueue.filter fun o => userSlot o.key
  let mask := ((upTo 7).map fun j => if (repOf c (8 * core + j)).isSome then 2 ^ j else 0).sum
  padBytes 0x40 (wordBytes (BitVec.ofNat 64 (vec.length + mat.length * 2 ^ 9 + mask * 2 ^ 17))) ++
    padBytes 0x4000 (bytesOf (vec.flatMap (vecRecord s))) ++
    padBytes 0x7C0 ((upTo 7).flatMap fun j => match repOf c (8 * core + j) with
      | some r => repRecord r
      | none => zeros 256) ++
    padBytes 0x2000 (bytesOf (mat.flatMap matRecord)) ++ zeros 0x3800

/-! The matrix image (R257). -/

def scaleHalves (core : Nat) : Nat := matCols core + matRows core / 64

/-- The drain-scale table. -/
def bandHalves (c : Core) (core : Nat) : List Nat :=
  if c.bands = [] then List.replicate (matCols core) 0x780 ++ List.replicate (matRows core / 64) 0x3F80
  else (upTo (scaleHalves core)).map fun i => c.bands.getD i 0

def bandBytes (core : Nat) : Nat := (2 * scaleHalves core + 7) / 8 * 8

/-- Bytes of a row of the latch quarter. -/
def latchRowBytes (type : Nat) : Nat := if type = 1 then 384 else 256

def matrixImage (s : State) (core : Nat) : List Byte :=
  let c := s.core core
  let head := 1 + (if isPrompt core then 0 else 2 ^ 8) + (if c.latchValid then 2 ^ 9 else 0) + c.latchKlen * 2 ^ 16 +
    c.latchType * 2 ^ 32
  padBytes (areaSize core - matrixSection core)
    (numberBytes 8 head ++ padBytes (bandBytes core) ((bandHalves c core).flatMap (numberBytes 2)) ++
      ((upTo (quarterRows core)).flatMap fun i => numberBytes (latchRowBytes c.latchType) (c.latchRows.getD i 0)) ++
      bufferBytes s core 2)

/-! The image, in the order of R293. -/

/-- n bytes of the header or the saved inbox, in an area that can be read. -/
def readHeader (s : State) (core area off n : Nat) : Nat :=
  match areaReach s core (area + off) kindLOAD with
  | none => 0
  | some p => readBytes s.mem p.cell n

/-- The saved inbox: the entries in use as they stand, zeros elsewhere (R289). -/
def inboxSection (s : State) (core area : Nat) : List Byte :=
  let head := readHeader s core area 0x48 2
  let count := readHeader s core area 0x4A 2
  (upTo 256).flatMap fun i =>
    if (i + 256 - head % 256) % 256 < count then numberBytes 64 (readHeader s core area (0x2000 + 64 * i) 64) else zeros 64

/-- Everything behind the header: the cursor counts its bytes. -/
def areaImage (s : State) (core area : Nat) : List Byte :=
  bytesOf ((upTo 7).flatMap fun j => threadRecord (s.thr (8 * core + j))) ++ bytesOf (s.core core).sbank.toList ++
    zeros 640 ++ inboxSection s core area ++ engineSection s core ++ bufferBytes s core 0 ++ bufferBytes s core 1 ++
    matrixImage s core

/-- Write bytes into the save area from an offset on, page by page: the state, and the offset at which a page could not
be written. -/
def writeRun (core area : Nat) : Nat → State → Nat → List Byte → State × Option Nat
  | 0, s, _, _ => (s, none)
  | n + 1, s, off, bs =>
    let room := 4096 - off % 4096
    match bs with
    | [] => (s, none)
    | _ => match areaReach s core (area + off) kindSTORE with
      | none => (s, some off)
      | some p =>
        let run := bs.take room
        writeRun core area n { s.whole p.cell run.length with mem := writeList s.mem p.cell run } (off + room) (bs.drop room)

/-- Write n bytes of the image from cursor `at_` on. -/
def writeImage (s : State) (core area at_ n : Nat) : State × Option Nat :=
  writeRun core area 512 s (0x100 + at_) (((areaImage s core area).drop at_).take n)

/-- The core in the form of R294. -/
def coreField (core : Nat) : Nat := 2 ^ 51 + dieOf core * 2 ^ 49 + rowOf core * 2 ^ 45 + colOf core * 2 ^ 40

/-- Write n bytes of the header. -/
def writeHeader (s : State) (core area off n v : Nat) : State :=
  match areaReach s core (area + off) kindSTORE with
  | none => s
  | some p => { s with mem := writeBytes s.mem p.cell n v }

/-- The header of a completed save (R290, R295): INHEAD and INCOUNT stand, the rest is 0. -/
def headerWords (s : State) (core area : Nat) : List Word :=
  let c := s.core core
  padWords 32 [BitVec.ofNat 64 (1 + (if isPrompt core then 0 else 2 ^ 16) + 4 * 2 ^ 24 + c.ctxAsid.toNat * 2 ^ 32 +
      c.ctxClass.toNat * 2 ^ 48 + (if c.quiet then 2 ^ 56 else 0)), c.slotpend, c.eshare0, c.eshare1, c.rseed,
    BitVec.ofNat 64 ((vfOfAsid s c.ctxAsid).getD 0), BitVec.ofNat 64 (areaSize core - 0x100),
    BitVec.ofNat 64 (coreField core), s.time, BitVec.ofNat 64 (readHeader s core area 0x48 4)]

/-! Reservations of a residence (R155, R295, R384). -/

def residenceKeys (s : State) (core : Nat) : List Nat :=
  ((upTo 7).map (8 * core + ·)).filter fun k => (s.thr k).lives

/-- The lowest number of a group's live threads, in slots or saved. -/
def lowestThread (s : State) (g asid : BitVec 16) : Option Nat :=
  (((groupKeys s g).map fun k => (s.thr k).tnum.toNat) ++ (savedThreads s g asid).map (·.1)).foldl
    (fun best n => match best with
      | none => some n
      | some m => some (min m n)) none

/-- A granted reservation is one of these threads', or their group's and the lowest of its live threads is among them. -/
def reservedBy (s : State) (ks : List Nat) (r : Reservation) : Bool :=
  r.waiting.isNone && ks.any fun k =>
    let t := s.thr k
    t.asid == r.asid && t.group == r.group &&
      (r.tnum == some t.tnum || (r.tnum == none && lowestThread s r.group r.asid == some t.tnum.toNat))

/-- An sc of one of these threads to a doubleword is on its way (R298). -/
def scUnderWay (s : State) (ks : List Nat) (cell : Nat) : Bool :=
  s.work.any fun e => match e with
    | .remoteRequestArrival r => r.op == .sc && r.cell == cell && ks.contains r.key
    | _ => false

/-- Mark the reservations of threads absent at one home, and wake those that wait behind them. -/
def markAt (ks : List Nat) (s : State) (home : Nat) : State :=
  let c := s.core home
  let marks := fun (r : Reservation) => reservedBy s ks r && !scUnderWay s ks r.cell
  let cells := (c.resv.filter marks).map (·.cell)
  let waits := fun (r : Reservation) => r.waiting.isSome && cells.contains r.cell
  let woken := (c.resv.filter waits).filterMap Reservation.waiting
  let c' := { c with
    resv := (c.resv.filter fun r => !waits r).map fun r => if marks r then { r with absent := true } else r }
  let s := s.setCore home c'
  if woken = [] then s else admitLater (replyAll s (.value wakeABSENT) woken) home

/-- A residence's lrws that have not been granted leave one home's queue with ABSENT. -/
def withdrawAt (core : Nat) (s : State) (home : Nat) : State :=
  let c := s.core home
  let mine := fun (q : Request) => coreOf q.key == core && userSlot q.key
  let out := c.resv.filterMap Reservation.waiting ++ c.resvHeld
  let s := s.setCore home { c with
    resv := c.resv.filter fun r => !r.waiting.any mine
    resvHeld := c.resvHeld.filter fun q => !mine q }
  let gone := out.filter mine
  if gone = [] then s else admitLater (replyAll s (.value wakeABSENT) gone) home

/-- The threads of a residence that are saved: for EVACUATE those that do not migrate. -/
def stayingKeys (s : State) (core : Nat) (mode : BitVec 2) : List Nat :=
  (residenceKeys s core).filter fun k =>
    mode == 0#2 || ((s.thr k).hold != .migrating && !inFlight s k && (leavesTo s k).isNone)

/-- R295 step 2: a thread that migrates leaves no mark (R298). -/
def markAbsent (s : State) (core : Nat) (mode : BitVec 2) : State :=
  let homes := s.cores.map (·.1)
  homes.foldl (markAt (stayingKeys s core mode)) (homes.foldl (withdrawAt core) s)

/-- The marks of a loaded residence are cleared (R296). -/
def clearAbsent (s : State) (core : Nat) : State :=
  { s with cores := s.cores.map fun x => (x.1, { x.2 with
      resv := x.2.resv.map fun r => if reservedBy s (residenceKeys s core) r then { r with absent := false } else r }) }

/-! Waiting for the residence to be still (R295 step 4). -/

/-- At an opportunity, the windows that are due close, and a fence, fence.loop or vfence whose condition holds is over
(R37, R44, R142, R217). -/
def settleHold (s : State) (k : Nat) : State :=
  let s := closeWindows s k
  let t := s.thr k
  let done := match t.hold with
    | .fence => accessesOver s k
    | .loop => (s.thr k).outst.all fun o => !o.own
    | .vfence => busyCount s k == 0
    | _ => false
  if done then s.setThr k { t with hold := .none } else s

/-- An instruction that waits to be issued again is the one at the saved pc, and runs afresh on resume (R459). Where others have issued
behind it, it is issued again now, and the save waits for its result (R39; log 39, DESIGN CHOICE). -/
def stopRetry (s : State) (k : Nat) : State :=
  let t := s.thr k
  match t.toRetry with
  | none => s
  | some w =>
    if t.windows.getLast? = some w ∧ t.pc = w.pc + 4#64 then s.setThr k { t with pc := w.pc, windows := t.windows.dropLast }
    else reissueWindow s k w

/-- A thread of a residence that is saved stops its walk, and a SAVE its migration that has sent no packet. -/
def stopThread (mode : BitVec 2) (s : State) (k : Nat) : State :=
  let s := settleHold (stopRetry s k) k
  let t := s.thr k
  match t.hold with
  | .walk =>
    { s.setThr k { t with hold := .none, walk := none } with work := s.work.filter fun e => e != .walkEnd k }
  | .migrating =>
    if mode = 0#2 ∧ !inFlight s k then
      { s.setThr k { t with hold := .none } with work := s.work.filter fun e => match e with
          | .migrationSend key _ _ => key != k
          | _ => true }
    else s
  | _ => s

/-- A buffer window's stores leave now, so that the image holds them, as soon as the journal has entries for them. -/
def sendBuffer (k : Nat) (s : State) (w : Window) : State :=
  match w.arrival with
  | .ready (.buffer v l) =>
    let s := leaveStores s k l
    let t := s.thr k
    let plain := fun (ws : List Window) => ws.map fun x => if x.id = w.id then { x with arrival := .ready (.one v) } else x
    s.setThr k { t with windows := plain t.windows, frozen := plain t.frozen }
  | _ => s

def sendBuffers (s : State) (k : Nat) : State := (s.thr k).allWindows.foldl (sendBuffer k) s

/-- A ptake that waits at the home of a page that is being given leaves it, and is sent again after the load (R432). -/
def withdrawTakes (s : State) (k : Nat) : State :=
  let waits := fun (e : Event) => match e with
    | .takeRequest r => r.key == k && givingAt s r.asid (addrOf r.ea)
    | _ => false
  let out := (s.work.filter waits).filterMap fun e => match e with
    | .takeRequest r => some r
    | _ => none
  let t := s.thr k
  let s := { s.setThr k { t with outst := t.outst.filter fun o => !out.any fun r => r.aid == o.aid } with
    work := s.work.filter fun e => !waits e }
  out.foldl (fun s r => match r.jent with
    | some e => setJournal s (coreOf k) e freeEntry
    | none => s) s

/-- A ptake's window with no request under way. -/
def isPtake (w : Window) : Bool :=
  match decode w.word with
  | some (.ptake _ _ _) => true
  | _ => false

/-- A vcmpm's window (R213). -/
def isVcmpm (w : Window) : Bool :=
  match decode w.word with
  | some (.vcmpm _ _ _ _) => true
  | _ => false

/-- The L result of a window is there. -/
def windowStill (w : Window) : Bool :=
  match w.arrival with
  | .ready (.buffer _ _) => false
  | _ => w.event || !w.waits || isVcmpm w || isPtake w

/-- Nothing of a thread is under way that a save waits for. -/
def threadStill (s : State) (k : Nat) : Bool :=
  let t := s.thr k
  (match t.hold with
    | .answer _ => false
    | .block => false
    | .migrating => false
    | _ => true) && t.outst == [] && t.allWindows.all windowStill && !s.work.any (answersTo k) && !inFlight s k

/-- The engines have nothing of the residence that a save waits for. -/
def enginesStill (c : Core) : Bool :=
  (c.copies.all fun o => !userSlot o.key) && (c.vecQueue.all fun o => !userSlot o.key || !o.done) &&
    (c.matQueue.all fun o => !userSlot o.key || !o.started) && !c.arrived

/-- An arrived gang command of the residence is withdrawn (R256). -/
def withdrawGang (s : State) (core : Nat) : State :=
  let c := s.core core
  if c.arrived && enginesHalt s core && (c.matQueue.head?.any fun o => userSlot o.key) then s.setCore core { c with arrived := false } else s

/-- A thread that waits at a vfence goes back to it (R217): the vfence counts again in the open windows when it runs again. -/
def rewindVfence (s : State) (k : Nat) : State :=
  let t := s.thr k
  if t.hold != .vfence then s
  else s.setThr k { t with
    hold := .none, pc := t.pc - 4#64, windows := t.windows.map fun w => { w with count := w.count + 1 } }

/-- The oldest POSTED trap that is pending is taken (R295 step 4): DETAIL the journal entry, TVAL its address. One that waits
behind it, or behind another trap of the slot, stays pending (R181): it is saved with the thread (log 14, DESIGN CHOICE). -/
def takePosted (s : State) (k : Nat) : State :=
  let t := s.thr k
  match t.posted with
  | [] => s
  | (e, ea) :: es =>
    if t.sstate = .run ∨ t.sstate = .pagewait then
      trapSlot (s.setThr k { t with posted := es }) k t.pc (causeWord true kindPOSTED e) ea
    else s

/-- A refused window becomes a pending POSTED trap; PAGEWAIT ends as by RETRY (R415). -/
def settleThread (s : State) (k : Nat) : State :=
  let t := s.thr k
  let refused := t.allWindows.filterMap fun w => match w.arrival with
    | .ready (.refused e) => some e
    | _ => none
  let plain := fun (ws : List Window) => ws.filter fun w => match w.arrival with
    | .ready (.refused _) => false
    | .ready .nothing => false
    | _ => true
  let s := refused.foldl (fun s e => postRefusal s k e) s
  let s := s.setThr k { s.thr k with windows := plain t.windows, frozen := plain t.frozen }
  let s := if t.sstate = .pagewait then
      dropFault (s.setThr k { s.thr k with sstate := .run, pc := t.epc }) k
    else s
  takePosted (rewindVfence s k) k

/-- The saved inbox has no room (R297). -/
def savedInboxFull (s : State) (core area : Nat) : Bool :=
  (areaReach s core (area + 0x48) kindSTORE).isSome && decide (256 ≤ readHeader s core (area + 0x4A) 0 2)

/-- Move entries of the inboxes into the saved inbox, oldest first (R295 step 5): the state, and whether the area could be
written. What finds no room is sent again to the area, as R297 gives (log 16, DEDUCED). -/
def moveInbox (core area : Nat) (s : State) : List Msg → State × Bool
  | [] => (s, true)
  | m :: ms => match appendSaved s core area m with
    | some s => moveInbox core area (s.setCore core (inboxWithout (s.core core) (· == m))) ms
    | none =>
      if savedInboxFull s core area then
        let s := s.setCore core (inboxWithout (s.core core) fun x => (m :: ms).contains x)
        ({ s with work := s.work ++ (m :: ms).map fun x => .inboxResend x s.ck }, true)
      else (s, false)

/-- The kills of single threads that wait with the residence (R288). -/
def holdKills (s : State) (core : Nat) : State :=
  let ks := (residenceKeys s core).filter fun k => (s.thr k).killed
  { s with heldKills := s.heldKills ++ ks.map fun k =>
      ((s.thr k).asid, (s.thr k).group, (s.thr k).tnum, (s.thr k).lossCause) }

/-- What a saved thread's pending interrupts will give p1, and its POSTED traps that still wait, stay beside the image (log 14,
DESIGN CHOICE). -/
def keepArgs (s : State) (k : Nat) : State :=
  let t := s.thr k
  let rest := s.savedArgs.filter fun x => !(x.asid == t.asid && x.group == t.group && x.tnum == t.tnum)
  { s with savedArgs := rest ++ [{ asid := t.asid, group := t.group, tnum := t.tnum, engine := t.argEngine, eng := t.argEng
                                   estate := t.argEstate, msg := t.argMsg, posted := t.posted }] }

/-- The slot of a saved thread becomes EMPTY; no entry of it is left in the inboxes. A parked slot stays as it is until its bit is
cleared (R460). -/
def leaveSlot (s : State) (k : Nat) : State :=
  if (s.core (coreOf k)).parked.getLsbD (slotOf k) then s
  else
  let s := dropWaiters s k
  let c := s.core (coreOf k)
  let s := s.setCore (coreOf k) { c with tpend := c.tpend &&& ~~~(1#7 <<< slotOf k) }
  { s.setThr k { Thread.empty with gen := (s.thr k).gen } with work := s.work.filter fun e => !endsWith k e }

/-- R295 steps 6 and 7, once the image is written. -/
def finishSave (s : State) (core area : Nat) : State :=
  let s := (residenceKeys s core).foldl keepArgs (holdKills s core)
  let s := match areaReach s core area kindSTORE with
    | none => s
    | some p => { s.whole p.cell 256 with mem := writeWords s.mem p.cell (headerWords s core area) }
  let c := s.core core
  let s := s.setCore core { c with
    residence := .free, stopped := false, guestStop := none
    vecQueue := c.vecQueue.filter fun o => !userSlot o.key
    reps := c.reps.filter fun r => !userSlot r.key
    matQueue := c.matQueue.filter fun o => !userSlot o.key }
  ((upTo 7).map (8 * core + ·)).foldl leaveSlot s

/-- An operation stands stopped (R288): STATE and CURSOR in the header, as far as it can be written. -/
def standStopped (s : State) (r : CtxReq) (state cursor : Nat) (guest : Option Nat) : State :=
  let area := r.area.toNat
  let s := s.setCore r.core { s.core r.core with stopped := true, cursor := cursor, guestStop := guest }
  writeHeader (writeHeader s r.core area 3 1 state) r.core area 0x30 8 cursor

/-- An operation stops at a page that cannot be reached. -/
def stopOperation (s : State) (r : CtxReq) (state off : Nat) : State :=
  answerFrom (standStopped s r state (off - 0x100) none) r.core r.key r.d 4#64

/-- STATE of a save that stands stopped. -/
def saveState (r : CtxReq) : Nat := if r.mode = 1#2 then 6 else 3

/-- The virtual function whose guest thread issued the operation, while it is paused (R479). -/
def pausedIssuer (s : State) (k : Nat) : Option Nat :=
  match (s.thr k).view with
  | .guest v => if (vfAt s v).paused then some v else none
  | _ => none

/-- The operation of a guest thread stops for the hypervisor (R479): no status, the thread is at the instruction, which
issues afresh when it runs again. -/
def stopForHypervisor (s : State) (r : CtxReq) (state cursor v : Nat) : State :=
  let s := standStopped s r state cursor (some v)
  s.setThr r.key { s.thr r.key with hold := .none }

/-- The 64-byte boundary, from the cursor on, at which an operation over n bytes stops: the free choice of R495. -/
def stopBoundary (s : State) (core n : Nat) : Nat :=
  let at_ := (s.core core).cursor
  at_ + 64 * (Config.choice s.nonce % ((n - at_) / 64 + 1))

/-- A stopped operation goes on for the same area, and where a guest's stands stopped for that guest only (R288, R479). -/
def resumesStopped (s : State) (r : CtxReq) : Bool :=
  let c := s.core r.core
  c.stopped && c.area == r.area && (c.guestStop.isNone || (match (s.thr r.key).view with
    | .guest v => c.guestStop == some v
    | _ => false))

/-- A thread that can leave now begins to migrate; one that waits for a fence or a vfence when that is over. -/
def evacuate (s : State) (k : Nat) : State :=
  match (if (s.thr k).hold == .none then leavesTo s k else none) with
  | none => s
  | some dst => beginMigration s k dst .level

/-- Steps 2 to 4 of R295, one more time. -/
def prepareSave (s : State) (r : CtxReq) : State :=
  let ks := residenceKeys s r.core
  let s := ks.foldl (stopThread r.mode) (markAbsent s r.core r.mode)
  let s := ks.foldl withdrawTakes (ks.foldl sendBuffers s)
  let s := withdrawGang s r.core
  if r.mode = 1#2 then ks.foldl evacuate s else s

/-- The running vector operations of the residence put their entries away, none while a channel does not admit one. -/
def parkOps (s : State) (core : Nat) : Option State :=
  ((s.core core).vecQueue.filter fun o => userSlot o.key).foldl (fun s o => s.bind (parkOp core · o)) (some s)

/-- Nothing of the residence is under way that a save waits for (R295 step 4), in slots that have ended too; and with EVACUATE no
thread stays that a core accepts (step 3). -/
def residenceStill (s : State) (r : CtxReq) : Bool :=
  (((upTo 7).map (8 * r.core + ·)).all fun k => (s.thr k).sstate == .empty ||
    (threadStill s k && !(r.mode == 1#2 && (leavesTo s k).isSome))) && enginesStill (s.core r.core)

/-- The residence with steps 4 and 5 done, none while the save has to wait; and whether the area could be written. -/
def settledResidence (s : State) (r : CtxReq) : Option (State × Bool) :=
  if !residenceStill s r then none
  else
    let s := (residenceKeys s r.core).foldl settleThread s
    (parkOps s r.core).map fun s => moveInbox r.core r.area.toNat s (inboxEntries (s.core r.core) fun _ => true)

/-- The thread records that a stopped save had written are written again as the threads stand now (R389, R332), up to the cursor; or the
save stops where it stood. -/
def rewriteRecords (s : State) (r : CtxReq) : State × Bool :=
  let at_ := (s.core r.core).cursor
  let w := writeImage s r.core r.area.toNat 0 (min at_ 0x1C00)
  (w.1, w.2.isNone)

/-- The save is over for every instruction that runs it (R288): all that name the area. -/
def answerSaves (s : State) (r : CtxReq) : State :=
  let mine := fun (e : Event) => match e with
    | .saveImageWrite q => if q.core = r.core ∧ q.area = r.area then some q else none
    | _ => none
  let all := r :: s.work.filterMap mine
  all.foldl (fun s q => answerFrom s q.core q.key q.d 0#64) { s with work := s.work.filter fun e => (mine e).isNone }

/-- Step 6 of R295 and step 7. -/
def writeOut (s : State) (r : CtxReq) : State :=
  let at_ := (s.core r.core).cursor
  match rewriteRecords s r with
  | (s, false) => stopOperation s r (saveState r) (0x100 + at_)
  | (s, true) =>
    let w := writeImage s r.core r.area.toNat at_ (areaSize r.core)
    match w.2, areaReach w.1 r.core r.area.toNat kindSTORE with
    | some off, _ => stopOperation w.1 r (saveState r) off
    | none, none => stopOperation w.1 r (saveState r) (areaSize r.core)
    | none, some _ => answerSaves (finishSave w.1 r.core r.area.toNat) r

/-- The part of the image up to the boundary at which the hypervisor stops the save. -/
def writePart (s : State) (r : CtxReq) (v : Nat) : State :=
  let at_ := (s.core r.core).cursor
  let stop := stopBoundary s r.core (areaSize r.core - 0x100)
  let w := writeImage s.tick r.core r.area.toNat at_ (stop - at_)
  match w.2 with
  | some off => stopOperation w.1 r (saveState r) off
  | none => stopForHypervisor w.1 r (saveState r) stop v

/-- SAVE_IMAGE_WRITE (R293, R295): once the residence is still, the rest of the save is one step, up to a stop. -/
def execSaveImageWrite (r : CtxReq) (s : State) : Out :=
  let c := s.core r.core
  if c.health ≠ .good || !(c.residence == .preempting || c.residence == .migratingOut) || c.area != r.area then
    .next (answerFrom s r.core r.key r.d 1#64)
  else
  let paused := pausedIssuer s r.key
  let s := prepareSave s r
  let cursor := (s.core r.core).cursor
  match settledResidence s r, paused with
  | none, none => .next (s.later (.saveImageWrite r))
  | none, some v => .next (stopForHypervisor s r (saveState r) cursor v)
  | some (s, false), _ => .next (stopOperation s r (saveState r) (0x100 + cursor))
  | some (s, true), some v => .next (writePart s r v)
  | some (s, true), none => .next (writeOut s r)

/-! ctxsave (R288, R293 to R295). -/

/-- The operand checks: area and named core. -/
def contextOperands (s : State) (k : Nat) (a b : Word) (modes : Nat) : Except Word (Nat × Nat) :=
  if bitsAt a 52 12 ≠ 0 ∨ bitsAt a 0 16 ≠ 0 ∨ a.getLsbD 51 then .error a
  else if bitsAt b 52 12 ≠ 0 ∨ bitsAt b 2 38 ≠ 0 ∨ modes ≤ bitsAt b 0 2 then .error b
  else match coreFor s k b with
    | none => .error b
    | some core => .ok (core, bitsAt b 0 2)

/-- R293 ctxsave: while the outbound queue has no room for the request the slot forfeits (R361; log 39, DESIGN CHOICE). -/
def execCtxsave (d a b : Reg) (s : State) : Out :=
  issue (.ctxsave d a b) s fun s =>
    let av := readReg s s.cur a
    match contextOperands s s.cur av (readReg s s.cur b) 3 with
    | .error v => operandTrap s v
    | .ok (core, mode) =>
      if !roomOut s (coreOf s.cur) core then forfeit s
      else .next ((awaitAnswer s d).later (.ctxsaveRequest ⟨s.cur, d, core, av, BitVec.ofNat 2 mode⟩))

/-- A node that is PLACING holds the core (R311). -/
def placingOn (s : State) (core : Nat) : Bool :=
  (s.die (dieOf core)).pool.any fun x => x.2.used && x.2.state == .placing &&
    x.2.node.any fun n => (nodeCores (dieOf core) n).contains core

/-- Residences of a context that a die still has, hosted or saved (R314). -/
def residencesLeft (s : State) (die : Nat) (asid : BitVec 16) : Bool :=
  (dieCores die).any fun c =>
    let x := s.core c
    (x.residence != .free && x.ctxAsid == asid) || (divertOf x asid).isSome

/-- MODE TEARDOWN (R295, R314). -/
def tearDown (s : State) (core area : Nat) : State :=
  let asid := (s.core core).ctxAsid
  let s := writeHeader s core area 3 1 7
  let s := s.setCore core { s.core core with residence := .free, stopped := false, guestStop := none }
  if residencesLeft s (dieOf core) asid then s else tearDownRecords s (dieOf core) asid

/-- The residence starts to be saved (R295 step 1). -/
def startSave (s : State) (r : CtxReq) (i : Nat) : State :=
  let c := s.core r.core
  s.setCore r.core { c with
    residence := if r.mode = 1#2 then .migratingOut else .preempting
    area := r.area, stopped := false, guestStop := none, cursor := 0
    diverts := c.diverts.setIfInBounds i ⟨true, c.ctxAsid, r.area.extractLsb' 16 36⟩ }

def freeDivert (c : Core) : Option Nat :=
  findFirst (fun i => !(c.diverts.getD i ⟨false, 0#16, 0#36⟩).valid) (upTo 8)

/-- CTXSAVE_REQUEST (R288, R295). One of the same area and mode goes on with the save that is under way or stands stopped. -/
def execCtxsaveRequest (r : CtxReq) (s : State) : Out :=
  let c := s.core r.core
  let busy := Host.Outcome.next (answerFrom s r.core r.key r.d 1#64)
  if c.health ≠ .good then busy
  else if placingOn s r.core then .next (s.later (.ctxsaveRequest r))
  else
    let hosted := c.residence == .loaded || c.residence == .running
    if r.mode = 2#2 then
      if c.residence ≠ .loaded then busy
      else match areaReach s r.core r.area.toNat kindSTORE with
        | none => .next (answerFrom s r.core r.key r.d 4#64)
        | some _ => .next (answerFrom (tearDown s r.core r.area.toNat) r.core r.key r.d 0#64)
    else if hosted then
      match freeDivert c with
      | none => .next (answerFrom s r.core r.key r.d 5#64)
      | some i => .next ((startSave s r i).later (.saveImageWrite r))
    else if c.area = r.area ∧ (!c.stopped ∨ resumesStopped s r) ∧
        ((r.mode = 0#2 ∧ c.residence = .preempting) ∨ (r.mode = 1#2 ∧ c.residence = .migratingOut)) then
      .next ((s.setCore r.core { c with stopped := false, guestStop := none }).later (.saveImageWrite r))
    else busy

/-! ctxload (R288, R293, R296). -/

/-- R293 ctxload, likewise. -/
def execCtxload (d a b : Reg) (s : State) : Out :=
  issue (.ctxload d a b) s fun s =>
    let av := readReg s s.cur a
    match contextOperands s s.cur av (readReg s s.cur b) 1 with
    | .error v => operandTrap s v
    | .ok (core, _) =>
      if !roomOut s (coreOf s.cur) core then forfeit s
      else .next ((awaitAnswer s d).later (.ctxloadRequest ⟨s.cur, d, core, av, 0#2⟩))

/-- The memory cell of an offset of the area, from the cells of its pages. -/
def pageCell (pages : List Nat) (off : Nat) : Nat := pages.getD (off / 4096) 0 + off % 4096

/-- The pages of an area, or the offset of the first that cannot be read. -/
def areaPages (s : State) (core area : Nat) : Nat → Nat → Except Nat (List Nat)
  | 0, _ => .ok []
  | n + 1, i => match areaReach s core (area + 4096 * i) kindLOAD with
    | none => .error (4096 * i)
    | some p => (areaPages s core area n (i + 1)).map (p.cell :: ·)

def pageCount (core : Nat) : Nat := areaSize core / 4096

/-- The first offset of an area whose line cannot be read (R463, R466, R467). -/
def lostOffset (s : State) (pages : List Nat) : Option Nat :=
  let lost := s.poison ++ s.erring.map (·.1)
  let offs := ((upTo pages.length).zip pages).flatMap fun x =>
    (lost.filter fun l => decide (x.2 ≤ 64 * l) && decide (64 * l < x.2 + 4096)).map fun l => 4096 * x.1 + (64 * l - x.2)
  offs.foldl (fun best n => some (match best with
    | none => n
    | some m => min m n)) none

/-- The header passes R296, and the core lies in the partition of the VF that PART names (R473, R476). -/
def headerOk (s : State) (r : CtxReq) : Bool :=
  let h := fun (off n : Nat) => readHeader s r.core r.area.toNat off n
  let state := h 3 1
  let asid := BitVec.ofNat 16 (h 4 2)
  let part := h 0x28 2
  let guest := match (s.thr r.key).view with
    | .guest v => vfHolds (vfAt s v) asid && part == v
    | _ => true
  h 0 2 == 1 && h 2 1 == (if isPrompt r.core then 0 else 1) && (state == 0 || state == 4 || state == 5) &&
    decide (h 6 1 ≤ 3) && decide (h 7 1 < 2) && tableOk (BitVec.ofNat 64 (h 8 8)) && guest && vfOfCore s r.core == some part

/-- The parts of a SAVED image that are checked first (R296, R257). -/
def imageOk (s : State) (r : CtxReq) : Bool :=
  let h := fun (off n : Nat) => readHeader s r.core r.area.toNat off n
  ((upTo 7).all fun j =>
    let w := BitVec.ofNat 64 (h (0x100 + 0x400 * j) 8)
    !w.getLsbD 63 || decide (bitsAt w 58 3 ≤ 3)) &&
    h (matrixSection r.core) 1 == 1 && h (matrixSection r.core + 1) 1 % 2 == (if isPrompt r.core then 0 else 1)

/-- The offsets that the check reads can be reached. -/
def checkReachable (s : State) (r : CtxReq) (saved : Bool) : Bool :=
  (areaReach s r.core r.area.toNat kindLOAD).isSome && (areaReach s r.core (r.area.toNat + 0x40) kindLOAD).isSome && (areaReach s r.core r.area.toNat kindSTORE).isSome &&
    (!saved || (((upTo 7).all fun j => (areaReach s r.core (r.area.toNat + 0x100 + 0x400 * j) kindLOAD).isSome) &&
      (areaReach s r.core (r.area.toNat + matrixSection r.core) kindLOAD).isSome))

/-- What every load installs at its end (R296). -/
def installHeader (s : State) (r : CtxReq) (running : Bool) : State :=
  let h := fun (off n : Nat) => readHeader s r.core r.area.toNat off n
  let c := s.core r.core
  let s := s.setCore r.core { c with
    sharePend := some (BitVec.ofNat 64 (h 8 8), BitVec.ofNat 64 (h 0x10 8), BitVec.ofNat 64 (h 0x18 8))
    arming := true, quiet := h 6 1 == 0 || h 7 1 % 2 == 1, rseed := BitVec.ofNat 64 (h 0x20 8)
    ctxAsid := BitVec.ofNat 16 (h 4 2), ctxClass := BitVec.ofNat 2 (h 6 1)
    residence := if running then .running else .loaded, stopped := false, guestStop := none }
  { writeHeader s r.core r.area.toNat 3 1 1 with loadedOnce := true }

/-- A FRESH residence: buffers, s-bank and latches are cleared, and the slots that are not parked (R460). -/
def loadFresh (s : State) (r : CtxReq) : State :=
  let clear := fun (m : List Host.Cell) (b : Nat) =>
    m.filter fun x => !(decide (bufferCell r.core b 0 ≤ x.1) && decide (x.1 < bufferCell r.core b 0 + bufferSize r.core b))
  let whole := fun (s : State) (b : Nat) => s.whole (bufferCell r.core b 0) (bufferSize r.core b)
  let empty := fun (s : State) (j : Nat) =>
    if (s.core r.core).parked.getLsbD j then s
    else s.setThr (8 * r.core + j) { Thread.empty with gen := (s.thr (8 * r.core + j)).gen }
  let s := (upTo 7).foldl empty s
  let c := s.core r.core
  let s := s.setCore r.core { c with
    sbank := Vector.replicate 16 0#64, bands := [], latchValid := false, latchType := 0, latchKlen := 0, latchRows := [] }
  installHeader { [0, 1, 2].foldl whole s with mem := clear (clear (clear s.mem 0) 1) 2 } r false

/-! Restoring a SAVED image. -/

/-- A doubleword of the area. -/
def areaWord (s : State) (pages : List Nat) (off : Nat) : Word := readWord s.mem (pageCell pages off)

/-- A window of a record at an offset: its number is given. -/
def restoredWindow (s : State) (pages : List Nat) (off id : Nat) : Option Window :=
  let w := areaWord s pages off
  let word : IWord := (areaWord s pages (off + 8)).setWidth 32
  let x := areaWord s pages (off + 16)
  let y := areaWord s pages (off + 24)
  let pair := match decode word with
    | some (.asample _ _ _ _) => true
    | _ => false
  let holds := match decode word with
    | some (.await _ _ _) => true
    | some (.barwait _ _ _ _ _) => true
    | some (.kwait _ _ _) => true
    | some (.ptake _ _ _) => true
    | _ => false
  if !w.getLsbD 63 then none
  else if w.getLsbD 62 then
    some { id := id, dest := w.extractLsb' 16 5, count := bitsAt w 0 4, event := true, holds := holds, word := word,
           pc := 0#64, a := x, b := y, mismatch := false, retry := false, arrival := .pending }
  else
    some { id := id, dest := w.extractLsb' 16 5, count := bitsAt w 0 4, event := false, holds := false, word := word,
           pc := 0#64, a := 0#64, b := 0#64, mismatch := false, retry := false, arrival := .ready (if pair then .two y x else .one y) }

/-- A vcmpm or a ptake that waits is an L window again. -/
def asVcmpm (w : Window) : Window := if isVcmpm w || isPtake w then { w with event := false } else w

/-- The word at an address of a context, if it can be fetched. -/
def wordAt (s : State) (core : Nat) (asid : BitVec 16) (pc : Word) : Option IWord :=
  (unitPlace s core asid pc.toNat kindFETCH true).map fun p => fetchWord s p.cell

/-- What p1 of a restored thread's pending interrupts will be, as it was kept, else open, and its POSTED traps that still wait
(log 14, DESIGN CHOICE). -/
def keptArgs (s : State) (asid group tnum : BitVec 16) (free : Nat) : SavedArgs :=
  (findFirst (fun x => x.asid == asid && x.group == group && x.tnum == tnum) s.savedArgs).getD
    { asid := asid, group := group, tnum := tnum, engine := Config.freeWord free
      eng := (Config.freeWord (free + 1)).setWidth 3, estate := Config.freeWord (free + 2), msg := Config.freeWord (free + 3)
      posted := [] }

/-- The thread of a record, with the window numbers from id on. A handler keeps as its own the last window, when that is an
event of the instruction before its pc with no count left (log 16, DEDUCED); the others are frozen. -/
def restoredThread (s : State) (core : Nat) (pages : List Nat) (j id : Nat) (asid : BitVec 16) (free : Nat) : Option Thread :=
  let base := 0x100 + 0x400 * j
  let w := fun (off : Nat) => areaWord s pages (base + off)
  let h := w 0
  let uin := (w 0x68).getLsbD 8
  let own : Vector Word 4 := #v[w 0x10, w 0x18, w 0x20, w 0x28]
  let handler : Vector Word 4 := #v[w 0x80, w 0x88, w 0x90, w 0x98]
  let p := withLowFour (Vector.ofFn fun (i : Fin 10) => w (0x10 + 8 * i.val)) (if uin then handler else own)
  let ws := (upTo 8).filterMap fun i => restoredWindow s pages (base + 0x100 + 32 * i) (id + i)
  let args := keptArgs s asid (h.extractLsb' 32 16) (h.extractLsb' 16 16) free
  let mine := fun (x : Window) =>
    uin && x.event && x.count == 0 && wordAt s core asid (w 8 - 4#64) == some x.word
  let last := match ws.getLast? with
    | some x => if mine x then [x] else []
    | none => []
  if !h.getLsbD 63 then none
  else some { Thread.empty with
    sstate := (match bitsAt h 58 3 with
      | 1 => .trapped
      | 3 => .ended
      | _ => .run)
    gen := h.extractLsb' 48 8, pinned := h.getLsbD 62, asid := asid, group := h.extractLsb' 32 16
    tnum := h.extractLsb' 16 16, pc := if bitsAt h 58 3 = 2 then w 0xA8 else w 8, p := p
    ualt := if uin then own else Vector.replicate 4 0#64
    q := w 0x60
    windows := (if uin then last else ws).map asVcmpm
    frozen := (if uin then ws.take (ws.length - last.length) else []).map asVcmpm
    latch := (w 0xA0).extractLsb' 32 5 &&& 0x1E#5, seq := (w 0xA0).setWidth 32
    uvec := w 0x78, upc := w 0x70, uin := uin, uip := (w 0x68).extractLsb' 4 3, uie := (w 0x68).setWidth 3
    argEngine := args.engine, argEng := args.eng, argEstate := args.estate, argMsg := args.msg, posted := args.posted
    epc := w 0xA8, cause := w 0xB0, tval := w 0xB8, vstatus := w 0xC0, mstatus := w 0xC8
    copyRegs := Vector.ofFn fun (i : Fin 17) => w (0x200 + 8 * i.val)
    matRegs := Vector.ofFn fun (i : Fin 4) => w (0x288 + 8 * i.val)
    linkRegs := Vector.ofFn fun (i : Fin 11) => w (0x2A8 + 8 * i.val) }

/-- Re-arm the waiting window of a restored thread (R39): at its plot, at its barrier object, by the lines of R358 with RESET the last,
for an object that is no longer its context's (R359), or by polling. -/
def rearm (s : State) (k : Nat) (w : Window) : State :=
  if !w.rearms then s
  else match decode w.word with
    | some (.asettle _ _ _ _) =>
      match meadowIssue s k (.settle w.id) w.a w.b false with
      | .send r => meadowReaches s r
      | .saturated _ => arrive s k w.id (.one (BitVec.ofNat 64 stSATURATED))
      | _ => arrive s k w.id (.one (BitVec.ofNat 64 stSTOPPED))
    | some (.barwait _ _ _ sc _) =>
      let j := barrierKey sc.toNat (coreOf k) (bitsAt w.a 0 6)
      let x := s.barrier j
      let old := w.b.getLsbD 63
      match waitStatus x old (barrierNamed s k w.a sc.toNat).isNone with
      | some n => arrive s k w.id (.one (BitVec.ofNat 64 n))
      | none => s.setBarrier j { x with waiters := x.waiters ++ [⟨k, w.id, old⟩] }
    | some (.vcmpm _ _ _ _) => s
    | _ => s.later (.longLatencyResultArrival k w.id)

/-- One vector record: the operation, with the number id and, for vcmpm, its window. The record has no place for the half of a
special function's two beats: the first runs, and is charged, again (log 37, DESIGN CHOICE). Nor has it one for the seed,
which is the residence's. -/
def restoredVecOp (s : State) (core : Nat) (pages : List Nat) (id : Nat) (taken : List Nat) (i : Nat) : VecOp :=
  let w := fun (j : Nat) => areaWord s pages (0x6040 + 64 * i + 8 * j)
  let key := 8 * core + bitsAt (w 0) 20 3
  let cmp := (w 0).getLsbD 23
  let started := (w 0).getLsbD 25
  let cmd := if cmp then cmdVcmpm else bitsAt (w 0) 26 8
  let wid := if cmp then
      (findFirst (fun (x : Window) => isVcmpm x && x.waits && x.dest.toNat == bitsAt (w 0) 34 5 && !taken.contains x.id)
        (s.thr key).allWindows).map Window.id
    else none
  let base := bufferCell core 1 (bitsAt (w 0) 0 20)
  let o := queuedVecOp s key cmd (BitVec.ofNat 64 (bitsAt (w 0) 0 20)) (w 1) ((w 2).setWidth 32) wid []
  let o := { o with
    id := id, started := started
    recD := if started && usesD cmd then readBytes s.mem base 32 else 0
    recX := if started then readBytes s.mem (base + 32) 32 else 0
    recY := if started && usesY cmd then readBytes s.mem (base + 64) 32 else 0 }
  let r := beatRec o
  let c := fun (j : Nat) => bitsAt (w 3) (16 * j) 16
  { o with
    next := if started then c 0 + recExtent r 0 * (c 1 + recExtent r 1 * (c 2 + recExtent r 2 * c 3)) else 0
    acc := if cmp then 0 else (w 4).toNat, m := if cmp then w 4 else 0#64, first := (w 5).getLsbD 0 }

/-- Of an operation that comes back its queue must admit each (R364): none where one is not. Entries in an ORPHAN queue stay there until
they can be taken back (R368). -/
def restoreVec (core : Nat) (pages : List Nat) (s : State) (i : Nat) : Option State :=
  if !admits (s.core core) 5 1 then none
  else
    let taken := (s.core core).vecQueue.filterMap VecOp.wid
    let o := restoredVecOp s core pages s.nonce taken i
    let x := if entriesBack s core o then takeBack s core o else (s, { o with parked := o.started })
    let s := x.1.tick
    let s := s.setCore core { s.core core with vecQueue := (s.core core).vecQueue ++ [x.2] }
    some (s.later (if o.started then .vectorBeat core else .vectorOpStart core))

def restoreRep (core : Nat) (pages : List Nat) (s : State) (j : Nat) : State :=
  let base := 0xA040 + 256 * j
  let w := fun (off : Nat) => areaWord s pages (base + off)
  let n := bitsAt (w 0x98) 20 5
  let r : RepSeq :=
    { id := s.nonce, key := 8 * core + j
      words := (upTo n).map fun i => BitVec.ofNat 32 (readBytes s.mem (pageCell pages (base + 4 * i)) 4)
      p := Vector.ofFn fun (i : Fin 10) => w (0x40 + 8 * i.val)
      q := w 0x90, count := bitsAt (w 0x98) 0 16, stagger := bitsAt (w 0x98) 16 4, base := (w 0xA0).setWidth 32
      seed := (s.core core).rseed
      fork := [], k := bitsAt (w 0x98) 32 16, j := bitsAt (w 0x98) 48 4, fence := none }
  let s := s.tick
  (s.setCore core { s.core core with reps := (s.core core).reps ++ [r] }).later (.repReissue (8 * core + j))

def restoreMat (core : Nat) (pages : List Nat) (s : State) (i : Nat) : Option State :=
  if !admits (s.core core) 7 1 then none
  else
    let w := fun (j : Nat) => areaWord s pages (0xA800 + 64 * i + 8 * j)
    let o : MatOp :=
      { id := s.nonce, key := 8 * core + bitsAt (w 0) 8 3, cmd := bitsAt (w 0) 0 8, a := w 1, b := w 2
        n := (w 3).setWidth 32, seed := (s.core core).rseed, regs := #v[w 4, w 5, w 6, w 7], fork := [], started := false
        err := 0, flags := 0#5 }
    let s := s.tick
    some ((s.setCore core { s.core core with matQueue := (s.core core).matQueue ++ [o] }).later (.matrixCmdStart core))

/-- The engine section (R292): none while a queue does not admit an operation. -/
def restoreEngines (s : State) (core : Nat) (pages : List Nat) : Option State :=
  let head := areaWord s pages 0x6000
  let each := fun (f : State → Nat → Option State) (n : Nat) (s : Option State) =>
    (upTo n).foldl (fun s i => s.bind (f · i)) s
  let s := each (restoreVec core pages) (min (bitsAt head 0 9) 256) (some s)
  let s := s.map fun s => ((upTo 7).filter fun j => head.getLsbD (17 + j)).foldl (restoreRep core pages) s
  each (restoreMat core pages) (min (bitsAt head 9 8) 128) s

/-- n bytes of the area as cells to write. -/
def areaBytes (s : State) (pages : List Nat) (off n : Nat) : List Byte :=
  (upTo n).map fun i => readByte s.mem (pageCell pages (off + i))

/-- A buffer's bytes, whole lines. -/
def restoreBuffer (core buffer : Nat) (s : State) (bytes : List Byte) : State :=
  let lo := bufferCell core buffer 0
  { s.whole lo (bufferSize core buffer) with mem := writeList s.mem lo bytes }

/-- The latches and the C-buffer from the matrix image (R257). -/
def restoreMatrix (s : State) (core : Nat) (pages : List Nat) : State :=
  let base := matrixSection core
  let head := areaWord s pages base
  let type := bitsAt head 32 6
  let bands := base + 8
  let rows := bands + bandBytes core
  let cbuf := rows + quarterRows core * latchRowBytes type
  let number := fun (off n : Nat) => (areaBytes s pages off n).foldr (fun b acc => b.toNat + 256 * acc) 0
  let s' := s.setCore core { s.core core with
    bands := (upTo (scaleHalves core)).map fun i => number (bands + 2 * i) 2
    latchValid := head.getLsbD 9, latchType := type, latchKlen := bitsAt head 16 16
    latchRows := (upTo (quarterRows core)).map fun i => number (rows + latchRowBytes type * i) (latchRowBytes type) }
  restoreBuffer core 2 s' (areaBytes s pages cbuf (bufferSize core 2))

/-- The entries of the saved inbox, oldest first (R326, R297): the sender's core comes from its name. -/
def savedInbox (s : State) (pages : List Nat) (asid : BitVec 16) : List Msg :=
  let head := readBytes s.mem (pageCell pages 0x48) 2
  let count := readBytes s.mem (pageCell pages 0x4A) 2
  (upTo (min count 256)).map fun i =>
    let at_ := 0x2000 + 64 * ((head + i) % 256)
    let w := fun (j : Nat) => areaWord s pages (at_ + 8 * j)
    let name := bitsAt (w 0) 0 22
    { src := if nameSystem name then 1024 + name / 2 ^ 11 % 16 else nameCore name, asid := asid, w0 := w 0, w1 := w 1,
      payload := (upTo 6).map fun j => w (j + 2), seq := i + 1 }

/-- Where an entry of the inbox of a save area goes that is loaded on a core: to the restored thread that it names; without one it is
stale, at a core that has not saved it whatever thread or area it meets there (R296). -/
def savedFate (s : State) (core : Nat) (m : Msg) : Fate :=
  if msgCore m != core || !namedThread s (msgTo m) m.asid then .stale
  else if s.work.any (savedBehind core (msgClass m)) then .back
  else placeMessage s m

/-- Move the saved inbox into the inboxes: what finds no room follows as it can, what finds no thread is stale. -/
def moveSaved (s : State) (core : Nat) : List Msg → State
  | [] => s
  | m :: ms =>
    match savedFate s core m with
    | .placed s => moveSaved s core ms
    | .back => moveSaved (s.later (.inboxResend m s.ck)) core ms
    | .stale => moveSaved (s.later (.staleResponse m)) core ms

/-- A thread in its slot, its parked and pending marks (R280, R288, R323). -/
def installThread (s : State) (k : Nat) (t : Thread) : State :=
  let mine := fun (x : BitVec 16 × BitVec 16 × BitVec 16 × Nat) => x.1 == t.asid && x.2.1 == t.group && x.2.2.1 == t.tnum
  let alive := s.groupHeld t.group && (s.group t.group).state == .active
  let held := findFirst mine s.heldKills
  let killed := t.lives && (held.isSome || !alive)
  let c := s.core (coreOf k)
  let s := s.setCore (coreOf k) { c with
    tpend := if t.sstate = .trapped then c.tpend ||| (1#7 <<< slotOf k) else c.tpend }
  let s := s.setThr k { t with killed := killed, lossCause := (held.map fun x => x.2.2.2).getD 0 }
  let same := fun (x : SavedArgs) => x.asid == t.asid && x.group == t.group && x.tnum == t.tnum
  let s := { s with heldKills := s.heldKills.filter (!mine ·), savedArgs := s.savedArgs.filter (!same ·) }
  if t.sstate = .ended then s.later (.slotVacate k) else s

/-- Restore the valid records to their slots. -/
def restoreSlots (core : Nat) (pages : List Nat) (asid : BitVec 16) (s : State) (j : Nat) : State :=
  let k := 8 * core + j
  match restoredThread s core pages j s.nonce asid (s.nonce + 8) with
  | none => if (s.core core).parked.getLsbD j then s else s.setThr k { Thread.empty with gen := (s.thr k).gen }
  | some t => (installThread s k t).ticks 12

/-- Every waiting window of a restored thread. -/
def rearmThread (s : State) (k : Nat) : State := (s.thr k).allWindows.foldl (fun s w => rearm s k w) s

/-- Threads that were killed while saved end now (R288). -/
def endKilled (s : State) (k : Nat) : State := if (s.thr k).killed then s.now (.threadEnd k) else s

/-- The last entries that saved operations of the context left open are whole now, but for those that wait to be taken back. -/
def closeEntries (c : Core) (asid : BitVec 16) : Core :=
  let waits := fun (q : Nat) => c.vecQueue.any fun o => o.away && o.sendsTo q
  let own := ((upTo 16).map fun q => if qAsid (qcfgOf c q) = asid && !waits q then 2 ^ q else 0).sum
  { c with chanOpen := c.chanOpen &&& ~~~(BitVec.ofNat 16 own) }

/-- A record of the area is of a slot that is parked: its restore, an assignment, waits (R280, R460; log 39, DESIGN CHOICE). -/
def parkedRecord (s : State) (core : Nat) (pages : List Nat) : Bool :=
  (upTo 7).any fun j => (s.core core).parked.getLsbD j && (areaWord s pages (0x100 + 0x400 * j)).getLsbD 63

/-- The rest of a load of a SAVED area, once its pages are known: none while a slot is parked, or the core's queues do not admit
its operations. -/
def loadSaved (s : State) (r : CtxReq) (pages : List Nat) : Option State :=
  let core := r.core
  if parkedRecord s core pages then none
  else
  let asid := BitVec.ofNat 16 (readHeader s core r.area.toNat 4 2)
  let s := (upTo 7).foldl (restoreSlots core pages asid) s
  let s := s.setCore core { s.core core with
    rseed := areaWord s pages 0x20, sbank := Vector.ofFn fun (i : Fin 16) => areaWord s pages (0x1D00 + 8 * i.val) }
  let s := restoreBuffer core 0 s (areaBytes s pages wSection (bufferSize core 0))
  let s := restoreBuffer core 1 s (areaBytes s pages (aSection core) (bufferSize core 1))
  (restoreEngines (restoreMatrix s core pages) core pages).map fun s =>
    let s := s.setCore core (closeEntries (s.core core) asid)
    let inbox := savedInbox s pages asid
    let s := installHeader s r ((upTo 7).any fun j => (s.thr (8 * core + j)).sstate != .empty)
    let ks := residenceKeys s core
    let s := ks.foldl rearmThread s
    let s := moveSaved (writeHeader s core r.area.toNat 0x4A 2 0) core inbox
    ks.foldl endKilled (clearAbsent s core)

/-- The request that clears a DIVERT entry is under way. -/
def clearing (s : State) (area : Word) : Bool :=
  s.work.any fun e => match e with
    | .divertClearRequest _ _ a _ => a == area
    | _ => false

/-- A load that goes on: once the DIVERT entry is cleared, the image is read; a guest's stops for the hypervisor. -/
def continueLoad (s : State) (r : CtxReq) : Out :=
  let again := Host.Outcome.next (s.later (.ctxloadRequest { r with mode := 1#2 }))
  match pausedIssuer s r.key with
  | some v => .next (stopForHypervisor s.tick r 5 (stopBoundary s r.core (areaSize r.core - 0x100)) v)
  | none =>
    if clearing s r.area then again
    else match areaPages s r.core r.area.toNat (pageCount r.core) 0 with
      | .error off => .next (stopOperation s r 5 (max off 0x100))
      | .ok pages => match lostOffset s pages, loadSaved s r pages with
        | some off, _ => .next (stopOperation s r 5 (max off 0x100))
        | none, none => again
        | none, some s => .next (answerFrom s r.core r.key r.d 0#64)

/-- DIVERT_CLEAR_REQUEST (R296). -/
def clearDivert (s : State) (core : Nat) (asid : BitVec 16) (area : Word) : State :=
  let c := s.core core
  s.setCore core { c with diverts := c.diverts.map fun d =>
    if d.valid && d.asid == asid && d.addr == area.extractLsb' 16 36 then ⟨false, 0#16, 0#36⟩ else d }

def execDivertClearRequest (core : Nat) (asid : BitVec 16) (area : Word) (s : State) : Out :=
  .next (clearDivert s core asid area)

/-- The core that a header's CORE field names. -/
def savedCore (v : Nat) : Nat := coreAt (v / 2 ^ 49 % 4) (v / 2 ^ 45 % 16) (v / 2 ^ 40 % 32)

/-- A load of a SAVED area begins (R288, R296). -/
def startLoad (s : State) (r : CtxReq) : State :=
  let c := s.core r.core
  let s := s.setCore r.core { c with residence := .resuming, area := r.area, stopped := false, guestStop := none, cursor := 0 }
  let asid := BitVec.ofNat 16 (readHeader s r.core r.area.toNat 4 2)
  let from_ := savedCore (readHeader s r.core r.area.toNat 0x38 8)
  if from_ = r.core then clearDivert s r.core asid r.area
  else s.later (.divertClearRequest from_ asid r.area r.core)

/-- A load that names the area of one that stands stopped (R288, R296): it goes on, or ends as its checks give. -/
def resumeLoad (s : State) (r : CtxReq) : Out :=
  let done := fun (n : Nat) => Host.Outcome.next (answerFrom s r.core r.key r.d (BitVec.ofNat 64 n))
  let state := readHeader s r.core r.area.toNat 3 1
  if !checkReachable s r false then done 4
  else if !headerOk s r then done 2
  else if state ≠ 5 then done 1
  else continueLoad (s.setCore r.core { s.core r.core with stopped := false, guestStop := none }) r

/-- CTXLOAD_REQUEST (R288, R296). Mode 1 marks the load as it goes on. It waits for room for its own request (R361, R446). -/
def execCtxloadRequest (r : CtxReq) (s : State) : Out :=
  let c := s.core r.core
  let done := fun (n : Nat) => Host.Outcome.next (answerFrom s r.core r.key r.d (BitVec.ofNat 64 n))
  if c.health ≠ .good then done 1
  else if r.mode = 1#2 then
    (if c.residence = .resuming ∧ c.area = r.area then continueLoad s r else done 1)
  else if c.residence = .resuming ∧ resumesStopped s r then resumeLoad s r
  else if c.residence ≠ .free then done 1
  else if !checkReachable s r false then done 4
  else if !headerOk s r then done 2
  else
    let state := readHeader s r.core r.area.toNat 3 1
    if state = 5 then done 1
    else if state = 0 then .next (answerFrom (loadFresh s r) r.core r.key r.d 0#64)
    else if !checkReachable s r true then done 4
    else if !imageOk s r then done 2
    else if !roomOut s r.core (savedCore (readHeader s r.core r.area.toNat 0x38 8)) then .next (s.later (.ctxloadRequest r))
    else continueLoad (startLoad s r) r

end Sys2Proof.Machine
end

