-- ==== Sys2Proof/Machine/Page.lean ====
section
/-! DEFINITION. Walks' ends, the die fault queues and the page instructions (19 R408 to R420). -/

namespace Sys2Proof.Machine

/-- WALK_END (R404, R407, R409). -/
def execWalkEnd (k : Nat) (s : State) : Out :=
  match (s.thr k).walk with
  | none => .next s
  | some w => .next (walkAdvance s k w)

/-! Registers of a die's queue (R416). -/

def fqstatWord (s : State) (die : Nat) : Word :=
  let d := s.die die
  BitVec.ofNat 64 (d.prcnt.toNat * 2 ^ 32 + (d.faults.filter (·.taken)).length * 2 ^ 16 +
    (d.faults.filter fun e => !e.taken).length)

def fqseqWord (s : State) (die : Nat) : Word := (s.die die).fqseq.setWidth 64

/-! pfq (R418). -/

/-- The 32 bytes of an entry (R414). -/
def faultWords (e : FaultEntry) : List Word :=
  [BitVec.ofNat 64 (e.seq.toNat * 2 ^ 32 + e.group.toNat * 2 ^ 16 + e.asid.toNat), BitVec.ofNat 64 (addrOf e.va),
    BitVec.ofNat 64 (e.tnum.toNat * 2 ^ 48 + e.detail * 2 ^ 32 + e.name.toNat), e.time]

/-- Mark the first entry that is not taken. -/
def takeFirst : List FaultEntry → List FaultEntry
  | [] => []
  | e :: es => if e.taken then e :: takeFirst es else { e with taken := true } :: es

/-- The die that pfq and presume name: DIEV, DIE, or the issuer's. -/
def dieNamed (k : Nat) (diev : Bool) (die : Nat) : Option Nat :=
  if diev then some die else if isSystem (coreOf k) then none else some (dieOf (coreOf k))

/-- The queue's step of a pfq: the state, the doublewords to write and the value of d. -/
def pfqStep (s : State) (die : Nat) : State × List Word × Word :=
  let d := s.die die
  match findFirst (fun e => !e.taken) d.faults with
  | none => (s, [], 0x8000000000000001#64)
  | some e => (s.setDie die { d with faults := takeFirst d.faults }, faultWords e, e.seq.setWidth 64)

/-- The window of a pfq, with the places of its buffer. -/
def pfqGo (s : State) (i : Instr) (d : Reg) (b : Word) (ps : List Place) (die : Nat) : Out :=
  let k := s.cur
  let r := pfqStep s die
  let s := r.1
  let stores := placeStores s k (BitVec.ofNat 64 (addrOf b)) (s.nonce + 1) (ps.zip r.2.1)
  let w := newWindow s d (lookaheadOf i) false false i 0#64 0#64 (.later (.buffer r.2.2 stores))
  .next (retireTo ((s.ticks (1 + stores.length)).later (.longLatencyResultArrival k w.id)) k ((s.thr k).pc + 4#64) [w])

/-- R418 pfq. -/
def execPfq (d a b : Reg) (lk : BitVec 4) (s : State) : Out :=
  issue (.pfq d a b lk) s fun s =>
    let k := s.cur
    let av := readReg s k a
    let bv := readReg s k b
    match dieNamed k (av.getLsbD 2) (bitsAt av 0 2) with
    | none => operandTrap s av
    | some die =>
      if bitsAt av 3 61 ≠ 0 ∨ bitsAt bv 0 5 ≠ 0 then operandTrap s av
      else if isSystem (coreOf k) then
        match linPointer s k bv kindSTORE 4 with
        | .error (.trap _ _ _) => operandTrap s av
        | .error r => withReach s kindSTORE (BitVec.ofNat 64 (addrOf bv)) r fun _ => forfeit s
        | .ok ps => pfqGo s (.pfq d a b lk) d bv ps die
      else if !bufferOk bv 32 32 then operandTrap s av
      else pfqGo s (.pfq d a b lk) d bv ((upTo 4).map fun i => ⟨bufferCellOf k bv + 8 * i, coreOf k, false, true, 3#2⟩) die

/-! presume (R419). -/

/-- The base of the page of a size code that holds an address. -/
def pageBase (a : Word) (size : Nat) : Nat := addrOf a / pageSize size * pageSize size

/-- A guest-view thread names dies on which its function has quads (R476). -/
def guestDie (s : State) (k die : Nat) : Bool :=
  match (s.thr k).view with
  | .guest v => (s.die die).nodes.any fun n => n.vf == v
  | _ => true

/-- The entries that a presume releases. -/
def presumes (a b : Word) (e : FaultEntry) : Bool :=
  let base := pageBase a (bitsAt b 16 3)
  e.asid == b.extractLsb' 0 16 &&
    (b.getLsbD 21 || (decide (base ≤ addrOf e.va) && decide (addrOf e.va < base + pageSize (bitsAt b 16 3))))

/-- The step at the fault queue: entries stand in ascending SEQ. -/
def presumeStep (s : State) (die : Nat) (a b : Word) : State × Nat :=
  let d := s.die die
  let out := d.faults.filter (presumes a b)
  let s := s.setDie die { d with prcnt := d.prcnt + 1#16, faults := d.faults.filter fun e => !presumes a b e }
  ({ s with work := s.work ++ out.map fun e => Event.presumeRelease e.name (b.getLsbD 20) die }, out.length)

/-- R419 presume. -/
def execPresume (d a b : Reg) (s : State) : Out :=
  issue (.presume d a b) s fun s =>
    let k := s.cur
    let av := readReg s k a
    let bv := readReg s k b
    match dieNamed k (bv.getLsbD 24) (bitsAt bv 22 2) with
    | none => operandTrap s av
    | some die =>
      if bitsAt av 52 12 ≠ 0 ∨ bitsAt bv 25 39 ≠ 0 ∨ bv.getLsbD 19 ∨ 5 < bitsAt bv 16 3 ∨
          !guestOwns s k (bv.extractLsb' 0 16) ∨ !guestDie s k die then operandTrap s av
      else afterAccesses s <|
        let r := presumeStep s die av bv
        finishWrite r.1 d (BitVec.ofNat 64 r.2)

/-- PRESUME_RELEASE (R419): it acts on a slot that is still in PAGEWAIT under the name. -/
def execPresumeRelease (name : BitVec 22) (defer : Bool) (s : State) : Out :=
  let k := nameKey name.toNat
  let t := s.thr k
  if !userKey k ∨ t.sstate ≠ .pagewait ∨ nameWord k t.gen ≠ name then .next s
  else if defer then .next (trapSlot s k t.epc t.cause t.tval)
  else .next (s.setThr k { t with sstate := .run, pc := t.epc })

/-! pinv (R420). -/

/-- What a pinv covers: ASID, base, size, ALL, ANY. -/
structure Covered where
  asid : BitVec 16
  base : Nat
  size : Nat
  all : Bool
  any : Bool

def coveredBy (a b : Word) : Covered :=
  ⟨b.extractLsb' 0 16, pageBase a (bitsAt b 16 3), pageSize (bitsAt b 16 3), b.getLsbD 20, b.getLsbD 21⟩

def Covered.context (x : Covered) (asid : BitVec 16) : Bool := x.any || x.asid == asid

/-- The bytes from lo on, n of them, meet the range. -/
def Covered.meets (x : Covered) (lo n : Nat) : Bool :=
  x.all || x.any || (decide (lo < x.base + x.size) && decide (x.base < lo + n))

/-- An address that a pinv waits for carries this mark. -/
def dropMark : Nat := 2 ^ 60

/-- Outstanding accesses of a context in the range are waited for. -/
def markOutstanding (x : Covered) (t : Thread) : Thread :=
  if !x.context t.asid then t
  else { t with outst := t.outst.map fun o => match o.va with
    | some va => if x.meets (va % dropMark) 1 then { o with va := some (va % dropMark + dropMark) } else o
    | none => o }

/-- Walks of the context begin again. -/
def restartWalk (x : Covered) (w : Walk) : Walk := if x.context w.asid then w.again else w

/-- One of a window's stores was translated through what is dropped. -/
def storesMeet (x : Covered) (l : List Request) : Bool :=
  l.any fun r => decide (r.mode.toNat < 2) && x.context r.asid && x.meets (addrOf r.ea) 1

/-- A window's stores, none of which has issued, lose a translation that is dropped: the window waits for a new one. -/
def discardStores (x : Covered) (w : Window) : Window :=
  match w.arrival with
  | .ready (.buffer v l) => if storesMeet x l then { w with arrival := .dropped v l } else w
  | .later (.buffer v l) => if storesMeet x l then { w with arrival := .dropped v l } else w
  | _ => w

/-- The steps that take it, for the windows whose result had arrived. -/
def retranslations (x : Covered) (k : Nat) (t : Thread) : List Event :=
  (t.allWindows.filter fun w => !w.waits && discardStores x w != w).map fun w => .longLatencyResultArrival k w.id

/-- Every TLB and every walker of the package drops what is covered; an await that waits at a dropped place takes its place
again through a new translation (log 17, DEDUCED). -/
def dropTranslations (s : State) (x : Covered) : State :=
  let moves := fun (a : Awaiter) => x.context a.asid && decide (addrOf a.ea < 2 ^ 51) && x.meets (addrOf a.ea) 8
  { s with
    romMap := s.romMap && !(x.context 0#16 && x.meets 0 (pageSize 5))
    cores := s.cores.map fun (c : Nat × Core) => (c.1, { c.2 with
      tlb := c.2.tlb.filter fun e => !(x.context e.asid && x.meets e.base.toNat (pageSize e.level))
      walk := c.2.walk.map (restartWalk x) })
    threads := s.threads.map fun (t : Nat × Thread) =>
      (t.1, { markOutstanding x t.2 with
        walk := t.2.walk.map (restartWalk x), rewalk := t.2.rewalk.map (restartWalk x), windows := t.2.windows.map (discardStores x)
        frozen := t.2.frozen.map (discardStores x), held := t.2.held.map (discardStores x) })
    awaiters := s.awaiters.filter (!moves ·)
    work := s.work ++ (s.threads.flatMap fun t => retranslations x t.1 t.2) ++
      (s.awaiters.filter moves).map fun a => .longLatencyResultArrival a.key a.wid }

/-- The payload loads of a send that meet the range have not been performed (R327). -/
def payloadPending (s : State) (x : Covered) : Bool :=
  s.work.any fun e => (payloadLoads e).any fun r => x.context r.asid && x.meets (addrOf r.ea) 8

/-- Some access that a pinv waits for has not been performed. -/
def dropPending (s : State) (x : Covered) : Bool :=
  payloadPending s x || s.threads.any fun t => t.2.outst.any fun o => o.va.any fun va => decide (dropMark ≤ va)

/-- R420 pinv: the drop comes first, and d once the accesses through what was dropped have been performed. -/
def execPinv (d a b : Reg) (s : State) : Out :=
  issue (.pinv d a b) s fun s =>
    let k := s.cur
    let av := readReg s k a
    let bv := readReg s k b
    if bitsAt av 52 12 ≠ 0 ∨ bitsAt bv 22 42 ≠ 0 ∨ bv.getLsbD 19 ∨ 5 < bitsAt bv 16 3 ∨
        !guestOwns s k (bv.extractLsb' 0 16) then operandTrap s av
    else afterAccesses s <|
      let s := if (s.thr k).stay then s
        else
          let s := dropTranslations s (coveredBy av bv)
          s.setThr k { s.thr k with stay := true }
      if dropPending s (coveredBy av bv) then forfeit s else finishWrite s d 0#64

end Sys2Proof.Machine
end

