-- ==== Sys2Proof/Machine/Binder.lean ====
section
/-! DEFINITION. The binder (03 R61 to R74): the checks of a sheaf, its relocation, and a bind and an unbind as steps of system
software. What that software chooses comes with the request: the addresses, and the stores to the translation tables that
map them. -/

namespace Sys2Proof.Machine

/-! The file (R61 to R64). -/

/-- The value of little-endian bytes. -/
def leNat : List Byte → Nat
  | [] => 0
  | b :: bs => b.toNat + 256 * leNat bs

/-- n bytes of a value, little-endian. -/
def leBytes (n v : Nat) : List Byte := (upTo n).map fun i => BitVec.ofNat 8 (v / 256 ^ i)

/-- The n-byte field of a file at an offset. -/
def fileNat (f : List Byte) (off n : Nat) : Nat := leNat ((f.drop off).take n)

def fileZero (f : List Byte) (off n : Nat) : Bool := ((f.drop off).take n).all (· == 0#8)

/-- A section entry (R61). -/
structure SheafPart where
  name : Nat
  kind : Nat
  align : Nat
  buf : Nat
  foff : Nat
  size : Nat
  boff : Nat

/-- Where the table has entry i. -/
def partOffset (f : List Byte) (i : Nat) : Nat := fileNat f 8 8 + 32 * i

def partCount (f : List Byte) : Nat := fileNat f 0x10 2

def partAt (f : List Byte) (i : Nat) : SheafPart :=
  let n := fun (off size : Nat) => fileNat f (partOffset f i + off) size
  { name := n 0 4, kind := n 4 1, align := n 5 1, buf := n 6 1, foff := n 8 8, size := n 0x10 8, boff := n 0x18 8 }

def parts (f : List Byte) : List SheafPart := (upTo (partCount f)).map (partAt f)

/-- The contents that the file holds of a section: a zero section's are zeros. -/
def partBytes (f : List Byte) (x : SheafPart) : List Byte :=
  if x.kind = 3 then List.replicate x.size 0#8 else (f.drop x.foff).take x.size

/-- The indices of the sections of a kind. -/
def ofKind (f : List Byte) (kind : Nat) : List Nat := (upTo (partCount f)).filter fun i => (partAt f i).kind == kind

/-- The file offsets of the entries, of n bytes each, of the section of a kind. -/
def entries (f : List Byte) (kind n : Nat) : List Nat :=
  (ofKind f kind).flatMap fun i => (upTo ((partAt f i).size / n)).map fun j => (partAt f i).foff + n * j

/-- The zero-terminated name at an offset of the string section. -/
def nameAt (f : List Byte) (off : Nat) : Option (List Byte) :=
  let l := ((ofKind f 11).flatMap fun i => partBytes f (partAt f i)).drop off
  if l.contains 0#8 then some (l.takeWhile (· != 0#8)) else none

/-! Format (R61 to R70). -/

def sheafHeaderOk (f : List Byte) : Bool :=
  decide (64 ≤ f.length) && fileNat f 0 4 == 0x39464853 && fileNat f 4 2 == 1 && fileNat f 6 2 == 0 &&
    fileNat f 8 8 % 8 == 0 && decide (1 ≤ partCount f) && decide (partCount f ≤ 65534) &&
    decide (partOffset f (partCount f) ≤ f.length) && fileNat f 0x20 8 == f.length && fileZero f 0x28 24

/-- The header names the one section of each kind that has one; the string and signature sections always stand. -/
def indexOk (f : List Byte) (off kind : Nat) (needed : Bool) : Bool :=
  match ofKind f kind with
  | [] => !needed && fileNat f off 2 == 0xFFFF
  | [i] => fileNat f off 2 == i
  | _ => false

/-- A section entry. That the BOFF of an image is a multiple of 64 is log 39, DESIGN CHOICE: of the rules only R59, on the
directive, says it. -/
def partOk (f : List Byte) (i : Nat) : Bool :=
  let x := partAt f i
  (nameAt f x.name).isSome && decide (1 ≤ x.kind) && decide (x.kind ≤ 12) && decide (x.align ≤ 20) &&
    fileZero f (partOffset f i + 7) 1 &&
    (if x.kind = 5 then decide (x.buf ≤ 2) && x.boff % 64 == 0 else x.buf == 0 && x.boff == 0) &&
    (if x.kind = 3 then x.foff == 0 else decide (x.foff + x.size ≤ f.length)) &&
    (decide (5 < x.kind) || x.size % 2 ^ x.align == 0) && (x.kind != 4 || decide (5 ≤ x.align))

/-- Two ranges, first and size, share nothing. -/
def apart (a b : Nat × Nat) : Bool := decide (a.1 + a.2 ≤ b.1) || decide (b.1 + b.2 ≤ a.1) || a.2 == 0 || b.2 == 0

def allApart : List (Nat × Nat) → Bool
  | [] => true
  | x :: xs => xs.all (apart x) && allApart xs

/-- The fields of a symbol entry (R63) at a file offset. -/
def symSec (f : List Byte) (o : Nat) : Nat := fileNat f (o + 4) 2
def symBind (f : List Byte) (o : Nat) : Nat := fileNat f (o + 6) 1
def symType (f : List Byte) (o : Nat) : Nat := fileNat f (o + 7) 1

/-- The symbols, by index. -/
def symbols (f : List Byte) : List Nat := entries f 9 24

/-- A symbol entry: SEC is 0xFFFF exactly for an extern and for a constant. That VALUE lies within its section is log 39, DESIGN
CHOICE (R63 does not say it). -/
def symbolOk (f : List Byte) (o : Nat) : Bool :=
  (nameAt f (fileNat f o 4)).isSome && decide (symBind f o ≤ 2) && decide (symType f o ≤ 2) &&
    (if symSec f o = 0xFFFF then symBind f o == 2 || symType f o == 0
     else symBind f o != 2 && symType f o != 0 && decide (symSec f o < partCount f) &&
       decide (fileNat f (o + 8) 8 ≤ (partAt f (symSec f o)).size))

/-- The size of a relocation's place. -/
def placeSize (kind : Nat) : Nat := if kind ≤ 2 then 8 else 4

/-- A relocation entry. Which sections a place may lie in is log 39, DESIGN CHOICE: code, data, shape, launch and image sections,
and no BR15 or JMP25 in an image, which has no address (R64 names no section). -/
def relocOk (f : List Byte) (o : Nat) : Bool :=
  let kind := fileNat f (o + 10) 2
  let x := partAt f (fileNat f (o + 8) 2)
  decide (1 ≤ kind) && decide (kind ≤ 6) && decide (fileNat f (o + 8) 2 < partCount f) &&
    decide (fileNat f (o + 12) 4 < (symbols f).length) && decide (fileNat f o 8 + placeSize kind ≤ x.size) &&
    ([1, 2, 4, 7].contains x.kind || (x.kind == 5 && kind != 3 && kind != 4))

/-- The images of a kernel entry fit the buffers of its cluster, and the A images end below the frames (R67). -/
def imageFits (f : List Byte) (o i : Nat) : Bool :=
  let x := partAt f i
  let core := if fileNat f (o + 9) 1 = 0 then coreAt 0 0 0 else coreAt 0 6 0
  let frames := fileNat f (o + 0x10) 4 * fileNat f (o + 8) 1
  x.kind == 5 && decide (x.boff + x.size + (if x.buf = 1 then frames else 0) ≤ bufferSize core x.buf)

/-- The image sections and the estate declarations that a kernel entry names. -/
def kernelImages (f : List Byte) (o : Nat) : List Nat := (upTo (fileNat f (o + 0x16) 2)).map (fileNat f (o + 0x14) 2 + ·)
def kernelDecls (f : List Byte) (o : Nat) : List Nat := (upTo (fileNat f (o + 0x1A) 2)).map (fileNat f (o + 0x18) 2 + ·)

/-- A kernel table entry (R66, R67). -/
def kernelOk (f : List Byte) (o : Nat) : Bool :=
  let n := fun (off size : Nat) => fileNat f (o + off) size
  let sym := (symbols f).getD (n 4 4) 0
  (nameAt f (n 0 4)).isSome && decide (n 4 4 < (symbols f).length) && symType f sym == 1 && decide (1 ≤ n 8 1) &&
    decide (n 8 1 ≤ 7) && decide (n 9 1 ≤ 2) && [1, 2, 4, 8, 16, 32].contains (n 0xA 2) && decide (n 0xC 1 ≤ 3) &&
    decide (n 0xD 1 < 8) && decide (1 ≤ n 0xE 2) && decide (n 0xE 2 ≤ 4 * n 0xA 2 * n 8 1) && n 0x10 4 % 64 == 0 &&
    decide (n 0x10 4 * n 8 1 ≤ 524288) && (n 0xA 2 != 32 || n 9 1 == 1) && (n 0xA 2 != 16 || n 9 1 != 1) &&
    decide (n 0x16 2 ≤ 255) && (n 0x14 2 == 0xFFFF || (decide (n 0x14 2 < partCount f) && (partAt f (n 0x14 2)).kind == 5)) &&
    (n 0x18 2 == 0xFFFF || decide (n 0x18 2 < (entries f 8 16).length)) && ((kernelImages f o).all fun i => decide (i < partCount f) && imageFits f o i) &&
    ((kernelDecls f o).all fun i => decide (i < (entries f 8 16).length)) && fileZero f (o + 0x1C) 4

/-- A launch record (R68). -/
def launchOk (f : List Byte) (o : Nat) : Bool :=
  let flags := fileNat f (o + 4) 4
  decide (fileNat f o 4 < (entries f 6 32).length) && decide (flags < 4) && (flags % 2 == 1 || fileZero f (o + 8) 8) &&
    (decide (2 ≤ flags) || fileZero f (o + 0x10) 8) && fileZero f (o + 0x38) 8

/-- An estate declaration (R69). That a KIND 1 or 3 declaration names no constant is log 39, DESIGN CHOICE: R69 speaks of the
symbol's bound address. -/
def declOk (f : List Byte) (o : Nat) : Bool :=
  let sym := (symbols f).getD (fileNat f (o + 4) 4) 0
  decide (1 ≤ fileNat f o 1) && decide (fileNat f o 1 ≤ 3) && fileZero f (o + 1) 1 && fileZero f (o + 8) 8 &&
    (fileNat f (o + 2) 2 == 0xFFFF || decide (fileNat f (o + 2) 2 < (entries f 7 64).length)) &&
    decide (fileNat f (o + 4) 4 < (symbols f).length) &&
    (if fileNat f o 1 = 2 then symType f sym != 1 else symSec f sym != 0xFFFF || symBind f sym == 2)

/-- The section of a kind holds whole entries. -/
def wholeEntries (f : List Byte) (kind n : Nat) : Bool := (ofKind f kind).all fun i => (partAt f i).size % n == 0

/-- The signature block ends the file (R62, R70). -/
def signatureOk (f : List Byte) : Bool :=
  (ofKind f 12).all fun i => (partAt f i).size == 128 && (partAt f i).foff + 128 == f.length &&
    fileZero f (f.length - 126) 6 && fileZero f (f.length - 16) 16

/-- Step 1 of R71. -/
def sheafOk (f : List Byte) : Bool :=
  sheafHeaderOk f && (upTo (partCount f)).all (partOk f) &&
    indexOk f 0x12 11 true && indexOk f 0x14 9 false && indexOk f 0x16 10 false && indexOk f 0x18 6 false &&
    indexOk f 0x1A 7 false && indexOk f 0x1C 8 false && indexOk f 0x1E 12 true &&
    (ofKind f 6 == [] || ofKind f 9 != []) && allApart (((parts f).filter (·.kind != 3)).map fun x => (x.foff, x.size)) &&
    wholeEntries f 6 32 && wholeEntries f 7 64 && wholeEntries f 8 16 && wholeEntries f 9 24 && wholeEntries f 10 24 &&
    (symbols f).all (symbolOk f) && (entries f 10 24).all (relocOk f) && (entries f 6 32).all (kernelOk f) &&
    (entries f 7 64).all (launchOk f) && (entries f 8 16).all (declOk f) && signatureOk f

/-! Key and signature (R70). -/

/-- A hash as its bytes, the first one first. -/
def hashBytes (h : BitVec 384) : List Byte := (upTo 48).map fun i => h.extractLsb' (8 * (47 - i)) 8

/-- SHA-384 of bytes, as bytes. -/
def hashOf (l : List Byte) : List Byte := hashBytes (Config.sha384 l)

/-- The key of the context's table that KEYID names. -/
def bindKey (s : State) (asid : BitVec 16) (f : List Byte) : Option (List Byte) :=
  findFirst (fun k => (hashOf k).take 8 == (f.drop (f.length - 120)).take 8)
    ((s.keyTables.filter (·.1 == asid)).flatMap (·.2))

/-- The signature verifies over the file before the block. -/
def bindSigned (f key : List Byte) : Bool :=
  fileNat f (f.length - 128) 2 == 1 && Config.ecdsaVerify key (f.take (f.length - 128)) (f.drop (f.length - 128))

/-! Addresses (R71 step 3). -/

/-- The address that each section has: the sections of kinds 1 to 4 take the given ones in order, the launch records the
area. -/
def placed : List SheafPart → List Nat → Nat → List (Option Nat)
  | [], _, _ => []
  | x :: xs, bases, area =>
    if x.kind ≤ 4 then bases.head? :: placed xs bases.tail area
    else (if x.kind = 7 then some area else none) :: placed xs bases area

/-- The sections that occupy the address space, and the record area: kind, address, size, alignment. -/
def occupied (f : List Byte) (at_ : List (Option Nat)) : List (Nat × Nat × Nat × Nat) :=
  ((parts f).zip at_).filterMap fun x => x.2.map fun a => (x.1.kind, a, x.1.size, if x.1.kind = 7 then 64 else 2 ^ x.1.align)

/-- The 4 KiB steps of a range. -/
def pagesIn (a n : Nat) : List Nat := if n = 0 then [] else (upTo ((a % 4096 + n + 4095) / 4096)).map fun i => a / 4096 * 4096 + 4096 * i

/-- The page of a context at an address. -/
def contextPage (s : State) (asid : BitVec 16) (ea : Nat) : Option TlbEntry := walkAll s 8 (Walk.start (BitVec.ofNat 64 ea) 0 asid 0#16)

/-- What a page of a section allows: code and shape sections and records are read-only, code is fetched, data and zero sections
are written. -/
def pageServes (kind : Nat) (e : Word) : Bool :=
  !leafIlv e && e.getLsbD 5 && (e.getLsbD 6 == (kind == 2 || kind == 3)) && (kind != 1 || e.getLsbD 4)

/-- The 4 KiB frames, as cells, on which a context's sections of a list (kind, address, size) lie. -/
def framesOf (s : State) (asid : BitVec 16) (l : List (Nat × Nat × Nat)) : List Nat :=
  (l.flatMap fun x => pagesIn x.2.1 x.2.2).filterMap fun a =>
    (contextPage s asid a).map fun t => (leafPlace s t.level t.leaf a).cell / 4096

/-- Stores to the translation tables, and the pages that they map for a list of sections, leave the mapped pages of every bound
sheaf as they were (R74): m is s after the stores. -/
def boundKept (s m : State) (asid : BitVec 16) (stores : List (Nat × Word)) (l : List (Nat × Nat × Nat)) : Bool :=
  s.bound.all fun b =>
    let frames := framesOf s b.asid b.sections
    ((b.sections.flatMap fun x => pagesIn x.2.1 x.2.2).all fun a => contextPage s b.asid a == contextPage m b.asid a) &&
      (stores.all fun x => !frames.contains (x.1 / 4096) && !frames.contains ((x.1 + 7) / 4096)) &&
      (framesOf m asid l).all fun c => !frames.contains c

/-- The bounds of R71 step 3, before the stores to the tables (s) and after them (m). -/
def spaceOk (s m : State) (asid : BitVec 16) (l : List (Nat × Nat × Nat × Nat)) : Bool :=
  (l.all fun x => decide (x.2.1 + x.2.2.1 ≤ 2 ^ 51) && x.2.1 % x.2.2.2 == 0 &&
      (pagesIn x.2.1 x.2.2.1).all fun a =>
        (contextPage s asid a).isNone && (contextPage m asid a).any fun t => pageServes x.1 t.leaf) &&
    allApart (l.map fun x => (x.2.1, x.2.2.1))

/-! Symbols and relocation (R64, R71 steps 4 and 5). -/

/-- The globals of the context's completed binds. -/
def visible (s : State) (asid : BitVec 16) : List (List Byte × Word) := (s.bound.filter (·.asid == asid)).flatMap Bound.globals

def symName (f : List Byte) (o : Nat) : List Byte := (nameAt f (fileNat f o 4)).getD []

/-- The bound value of a symbol; none: an extern that nothing defines. In a section that occupies no address space it is the
offset (log 39, DESIGN CHOICE: R64 speaks of a bound address, and R62 gives such a section none). -/
def symValue (f : List Byte) (globals : List (List Byte × Word)) (at_ : List (Option Nat)) (o : Nat) : Option Int :=
  let v := (BitVec.ofNat 64 (fileNat f (o + 8) 8)).toInt
  if symBind f o = 2 then (findFirst (fun g => g.1 == symName f o) globals).map fun g => g.2.toInt
  else if symSec f o = 0xFFFF then some v
  else some (((at_.getD (symSec f o) none).getD 0 : Nat) + v)

/-- lo and hi of R53. -/
def lowPart (v : Int) : Int := signedBits 15 (v % 2 ^ 15).toNat
def highPart (v : Int) : Int := (v - lowPart v) / 2 ^ 15

/-- A field of n bits at bit 0 of a word takes a signed value, if it fits. -/
def fieldSet (n old : Nat) (v : Int) : Option Nat :=
  if v < -(2 ^ (n - 1) : Int) ∨ (2 ^ (n - 1) : Int) ≤ v then none else some (old / 2 ^ n * 2 ^ n + (v % 2 ^ n).toNat)

/-- The relocated place: v is S + A, p the place's address. -/
def relocated (kind old : Nat) (v p : Int) : Option Nat :=
  let disp := fun (n : Nat) => if (v - p) % 4 = 0 then fieldSet n old ((v - p) / 4) else none
  match kind with
  | 1 => some (v % 2 ^ 64).toNat
  | 2 =>
    if v < 0 ∨ 2 ^ 52 ≤ v ∨ old / 2 ^ 52 % 8 ≠ 0 ∨ (formatLog (old / 2 ^ 58 % 64)).isNone then none
    else some (old / 2 ^ 52 * 2 ^ 52 + v.toNat)
  | 3 => disp 15
  | 4 => disp 25
  | 5 => fieldSet 20 old (highPart v)
  | _ => fieldSet 15 old (lowPart v)

/-- One relocation applied to the contents of the sections. -/
def relocate (f : List Byte) (globals : List (List Byte × Word)) (at_ : List (Option Nat)) (cs : List (List Byte)) (o : Nat) :
    Option (List (List Byte)) :=
  let sec := fileNat f (o + 8) 2
  let off := fileNat f o 8
  let n := placeSize (fileNat f (o + 10) 2)
  let c := cs.getD sec []
  let v := (symValue f globals at_ ((symbols f).getD (fileNat f (o + 12) 4) 0)).getD 0 +
    (BitVec.ofNat 64 (fileNat f (o + 16) 8)).toInt
  (relocated (fileNat f (o + 10) 2) (leNat ((c.drop off).take n)) v (((at_.getD sec none).getD 0 + off : Nat) : Int)).map
    fun w => cs.set sec (c.take off ++ leBytes n w ++ c.drop (off + n))

/-! What a bind enters (R71 steps 6 and 7). -/

/-- Bytes written to a context's memory from an address on, a whole line at a time where they fill one. -/
def writeContext (asid : BitVec 16) : State → Nat → List Byte → State
  | s, _, [] => s
  | s, ea, b :: bs =>
    match contextPage s asid ea with
    | none => s
    | some t =>
      let cell := (leafPlace s t.level t.leaf ea).cell
      let s := if cell % 64 = 0 ∧ 63 ≤ bs.length then s.whole cell 64 else s
      writeContext asid { s with mem := writeByte s.mem cell b } (ea + 1) bs

/-- An estate declaration as it is kept. -/
def declAt (f : List Byte) (globals : List (List Byte × Word)) (at_ : List (Option Nat)) (area o : Nat) : EstDecl :=
  let sym := (symbols f).getD (fileNat f (o + 4) 4) 0
  { kind := fileNat f o 1, heir := if fileNat f (o + 2) 2 = 0xFFFF then none else some (area + 64 * fileNat f (o + 2) 2)
    key := BitVec.ofInt 64 ((symValue f globals at_ sym).getD 0), indirect := fileNat f o 1 == 2 && symType f sym == 2 }

/-- A kernel table entry as it is kept, with its images. -/
def kernelAt (f : List Byte) (globals : List (List Byte × Word)) (at_ : List (Option Nat)) (area : Nat) (cs : List (List Byte))
    (o : Nat) : KernelEntry :=
  let n := fun (off size : Nat) => fileNat f (o + off) size
  { entry := BitVec.ofInt 64 ((symValue f globals at_ ((symbols f).getD (n 4 4) 0)).getD 0)
    slots := n 8 1, cluster := n 9 1, quads := n 0xA 2, cls := n 0xC 1, whole := n 0xD 1 % 2 == 1
    pinned := n 0xD 1 / 2 % 2 == 1, quiet := n 0xD 1 / 4 % 2 == 1, threads := n 0xE 2, frame := n 0x10 4
    images := (kernelImages f o).map fun i => ((partAt f i).buf, (partAt f i).boff, cs.getD i [])
    estate := (kernelDecls f o).map fun i => declAt f globals at_ area ((entries f 8 16).getD i 0) }

def bindBOUND : Nat := 0
def bindFORMAT : Nat := 1
def bindKEY : Nat := 2
def bindSIGNATURE : Nat := 3
def bindSPACE : Nat := 4
def bindUNRESOLVED : Nat := 5
def bindDUPSYM : Nat := 6
def bindRANGE : Nat := 7
def bindBUSY : Nat := 8

/-- The binder's report: the context and the status. -/
def bindReports (s : State) (asid : BitVec 16) (status : Nat) : State := { s with bindReport := some (asid, status) }

/-- The end of a bind (R71 steps 6 and 7): the contents are written, the kernels, records and globals entered; then comes the
report (R72). -/
def bindEnters (m : State) (asid : BitVec 16) (f : List Byte) (globals : List (List Byte × Word)) (at_ : List (Option Nat))
    (area : Nat) (cs : List (List Byte)) : State :=
  let s := ((cs.zip at_).foldl (fun s x => match x.2 with
    | some a => writeContext asid s a x.1
    | none => s) m).tick
  let names := ((symbols f).filter fun o => symBind f o == 2).map (symName f)
  let b : Bound := {
    id := m.nonce, asid := asid, kernels := (entries f 6 32).map (kernelAt f globals at_ area cs)
    records := (upTo (entries f 7 64).length).map fun j => area + 64 * j
    sections := (occupied f at_).map fun x => (x.1, x.2.1, x.2.2.1)
    globals := ((symbols f).filter fun o => symBind f o == 1).map fun o =>
      (symName f o, BitVec.ofInt 64 ((symValue f globals at_ o).getD 0))
    uses := (m.bound.filter fun y => y.asid == asid && y.globals.any fun g => names.contains g.1).map Bound.id }
  bindReports { s with bound := s.bound ++ [b] } asid bindBOUND

/-- A bind request (R71): the sheaf, the addresses of its sections of kinds 1 to 4 in table order, the address of its launch
records, and the stores to the translation tables. A bind that fails leaves everything but the report. Two globals of one name
in one sheaf are no DUPSYM, for neither is already defined in the context (log 39, DESIGN CHOICE). -/
def bindRequest (s : State) (asid : BitVec 16) (f : List Byte) (bases : List Nat) (area : Nat) (stores : List (Nat × Word)) :
    State :=
  if !sheafOk f then bindReports s asid bindFORMAT
  else match bindKey s asid f with
  | none => bindReports s asid bindKEY
  | some key =>
    if !bindSigned f key then bindReports s asid bindSIGNATURE
    else
      let at_ := placed (parts f) bases area
      let m := { s with mem := stores.foldl (fun m x => writeWord m x.1 x.2) s.mem }
      if bases.length ≠ ((parts f).filter fun x => decide (x.kind ≤ 4)).length ∨ !spaceOk s m asid (occupied f at_) ∨
          !boundKept s m asid stores ((occupied f at_).map fun x => (x.1, x.2.1, x.2.2.1)) then
        bindReports s asid bindSPACE
      else
        let globals := visible s asid
        if (symbols f).any fun o => (symValue f globals at_ o).isNone then bindReports s asid bindUNRESOLVED
        else if (symbols f).any fun o => symBind f o == 1 && globals.any fun g => g.1 == symName f o then
          bindReports s asid bindDUPSYM
        else match (entries f 10 24).foldlM (relocate f globals at_) ((parts f).map (partBytes f)) with
          | none => bindReports s asid bindRANGE
          | some cs => bindEnters m asid f globals at_ area cs

/-! Unbind (R74). -/

/-- An address lies in the sheaf's code. -/
def Bound.inCode (b : Bound) (a : Nat) : Bool :=
  b.sections.any fun x => x.1 == 1 && decide (x.2.1 ≤ a) && decide (a < x.2.1 + x.2.2)

/-- The PCs that a live thread in a slot holds: its own, that of the code its user-level handler returns to, and the EPC at
which a trapped or faulted one goes on. -/
def heldPcs (t : Thread) : List Nat :=
  t.pc.toNat :: ((if t.uin then [t.upc.toNat] else []) ++
    (if t.sstate = .trapped ∨ t.sstate = .pagewait then [t.epc.toNat] else []))

/-- Those of a saved thread, by its record's cell (R291). -/
def savedPcs (s : State) (cell : Nat) : List Nat :=
  (readWord s.mem (cell + 8)).toNat ::
    ((if bitsAt (readWord s.mem cell) 58 3 = 2 then [(readWord s.mem (cell + 0xA8)).toNat] else []) ++
      (if (readWord s.mem (cell + 0x68)).getLsbD 8 then [(readWord s.mem (cell + 0x70)).toNat] else []))

/-- What keeps a sheaf bound (R74). -/
def bindHeld (s : State) (b : Bound) : Bool :=
  ((upTo 4).any fun die => (s.die die).pool.any fun x =>
    x.2.used && x.2.asid == b.asid && b.records.contains x.2.record && x.2.state != .done && x.2.state != .faulted) ||
  (s.threads.any fun x => x.2.lives && x.2.asid == b.asid && (heldPcs x.2).any b.inCode) ||
  ((savedRecords s b.asid).any fun x => (savedPcs s x.2.2).any b.inCode) ||
  s.bound.any fun y => y.uses.contains b.id

/-- The page at an address is unmapped. -/
def unmap (asid : BitVec 16) (s : State) (ea : Nat) : State :=
  match contextPage s asid ea with
  | none => s
  | some t => dropTranslations { s with mem := writeWord s.mem t.leafCell 0#64 }
      ⟨asid, t.base.toNat, pageSize t.level, false, false⟩

/-- An unbind request (R74) for the bind of a number. One that succeeds reports 0, and one that names no bind reports nothing
(log 39, DESIGN CHOICE: R74 gives only BUSY). -/
def unbindRequest (s : State) (asid : BitVec 16) (id : Nat) : State :=
  match findFirst (fun (b : Bound) => b.asid == asid && b.id == id) s.bound with
  | none => s
  | some b =>
    if bindHeld s b then bindReports s asid bindBUSY
    else
      let s := (b.sections.flatMap fun x => pagesIn x.2.1 x.2.2).foldl (unmap asid) s
      bindReports { s with bound := s.bound.filter fun y => y.id != id } asid bindBOUND

/-- System software installs a context's key table (R71): its public keys. -/
def keyTableInstall (s : State) (asid : BitVec 16) (keys : List (List Byte)) : State :=
  let before := s.keyTables.filter fun x => decide (x.1 < asid)
  { s with keyTables := before ++ (asid, keys) :: s.keyTables.filter fun x => decide (asid < x.1) }

end Sys2Proof.Machine
end

