-- ==== Sys2Proof/Machine/Handover.lean ====
section
/-! DEFINITION. Handover of key and value pages: pgive, ptake, and a give at its home (20 R421 to R432). -/

namespace Sys2Proof.Machine

/-! The leaf and the flag word (R421). -/

/-- A leaf that may be given or taken: OWNV, lin. -/
def handoverLeaf (e : Word) : Bool := e.getLsbD 63 && !leafIlv e

/-- What the checks of pgive and ptake answer (R430, R431). -/
inductive HandoverReach where
  | stop (r : Reach)
  | page (t : TlbEntry) (flag : Place)

def handoverReach (s : State) (k : Nat) (a : Word) (kind : Nat) : HandoverReach :=
  if !tagOk a ∨ a.getLsbD 51 then .stop (.trap kindADDRESS 0 a)
  else match tlbFind (s.core (coreOf k)) (s.thr k).asid (addrOf a) with
    | none => .stop .miss
    | some t =>
      match leafReason t.leaf (coreOf k) kind with
      | some r => .stop (.page r)
      | none =>
        if handoverLeaf t.leaf then .page t (leafPlace s t.level t.leaf t.base.toNat)
        else .stop (.trap kindADDRESS 0 a)

/-- A trap, a fault, a walk, or the page. -/
def withPage (s : State) (a : Word) (kind : Nat) (go : TlbEntry → Place → Out) : Out :=
  match handoverReach s s.cur a kind with
  | .stop r => withReach s kind a r fun _ => forfeit s
  | .page t p => go t p

/-! pgive (R424, R430). -/

def giveOf (s : State) (k : Nat) (d : Reg) (t : TlbEntry) (p : Place) (v : Word) : GiveReq :=
  { key := k, d := d, asid := (s.thr k).asid, base := t.base, size := t.level, flag := p.cell, leaf := t.leafCell,
    home := p.home, token := !isPrompt (coreOf k), value := v.extractLsb' 0 48 }

/-- R430 pgive. -/
def execPgive (d a b : Reg) (s : State) : Out :=
  issue (.pgive d a b) s fun s =>
    let k := s.cur
    let av := readReg s k a
    let bv := readReg s k b
    if isSystem (coreOf k) then operandTrap s av
    else afterAccesses s <|
      if !tagOk av ∨ av.getLsbD 51 ∨ bitsAt bv 48 16 ≠ 0 then operandTrap s av
      else withPage s av kindSTORE fun t p =>
        .next ((awaitAnswer s d).later (.giveRequest (giveOf s k d t p bv)))

/-! A give at its home (R423 to R428). -/

def statusDONE : Word := 0#64
def statusNOTOWNER : Word := 1#64
def statusBUSY : Word := 2#64
def statusREFUSED : Word := 3#64
def statusNOPAGE : Word := 4#64

def samePage (x y : GiveReq) : Bool := x.asid == y.asid && x.base == y.base

/-- The page's translation is dropped everywhere, as pinv does. -/
def giveCovers (r : GiveReq) : Covered := ⟨r.asid, r.base.toNat, pageSize r.size, false, false⟩

/-- The leaf with an owner. -/
def ownedLeaf (e : Word) (token : Bool) : Word :=
  if token then e ||| 0x4000000000000000#64 else e &&& 0xBFFFFFFFFFFFFFFF#64

/-- Answer BUSY to the held requests of a page. -/
def refuseHeld (s : State) (r : GiveReq) : State :=
  let c := s.core r.home
  let same := c.giveHeld.filter (samePage r)
  let s := s.setCore r.home { c with giveHeld := c.giveHeld.filter fun x => !samePage r x }
  same.foldl (fun s x => answerFrom s x.home x.key x.d statusBUSY) s

/-- Stage 2 begins: the leaf's step, and the drop. -/
def startGive (s : State) (r : GiveReq) : State :=
  let e := readWord s.mem r.leaf
  if !readable s r.leaf || !leafOk r.size e then answerFrom s r.home r.key r.d statusNOPAGE
  else if e.getLsbD 62 != r.token then answerFrom s r.home r.key r.d statusNOTOWNER
  else
    let s := { s with mem := writeWord s.mem r.leaf (ownedLeaf e (!r.token)) }
    let c := s.core r.home
    let s := s.setCore r.home { c with gives := c.gives ++ [r] }
    (dropTranslations (refuseHeld s r) (giveCovers r)).later (.giveEvent r)

/-- GIVE_REQUEST (R423, R424, R428). -/
def execGiveRequest (r : GiveReq) (s : State) : Out :=
  let c := s.core r.home
  if s.dieRetired (dieOf r.home) || c.health != .good then .next (answerFrom s r.home r.key r.d statusREFUSED)
  else if c.gives.any (samePage r) then .next (answerFrom s r.home r.key r.d statusBUSY)
  else if 8 ≤ c.gives.length ∨ c.giveHeld ≠ [] then .next (s.setCore r.home { c with giveHeld := c.giveHeld ++ [r] })
  else .next (startGive s r)

/-- A ptake that waits at its home is no access that a give waits for. -/
def takeWaits (s : State) (aid : Nat) : Bool :=
  s.work.any fun e => match e with
    | .takeRequest q => q.aid == aid
    | _ => false

/-- Accesses through a dropped entry, and requests of other threads for the page, that are not over (R424). -/
def givePending (s : State) (r : GiveReq) : Bool :=
  let x := giveCovers r
  (s.threads.any fun t => t.2.asid == r.asid && t.2.outst.any fun o =>
    o.va.any fun va => decide (dropMark ≤ va) && x.meets (va % dropMark) 1 && !takeWaits s o.aid) ||
  payloadPending s x ||
  s.work.any fun e => match e with
    | .giveRequest y => samePage r y
    | _ => false

/-- The table entry frees. -/
def freeGive (s : State) (r : GiveReq) : State :=
  let c := s.core r.home
  let s := s.setCore r.home { c with gives := c.gives.filter fun x => !samePage r x }
  if c.giveHeld = [] then s else s.now (.giveAdmit r.home)

/-- The flag word of the event. -/
def flagWord (r : GiveReq) : Word := BitVec.ofNat 64 ((if r.token then 0 else 2 ^ 63) + r.value.toNat)

/-- GIVE_EVENT (R424): stage 3, once nothing of stage 2 is under way. -/
def execGiveEvent (r : GiveReq) (s : State) : Out :=
  if !(s.core r.home).gives.contains r then .next s
  else if givePending s r then .next (s.later (.giveEvent r))
  else .next (answerFrom (freeGive { s with mem := writeWord s.mem r.flag (flagWord r) } r) r.home r.key r.d statusDONE)

/-- GIVE_ADMIT (R423): the oldest request held at the full table, as soon as an entry has freed. -/
def execGiveAdmit (core : Nat) (s : State) : Out :=
  let c := s.core core
  match c.giveHeld with
  | [] => .next s
  | r :: rs =>
    if 8 ≤ c.gives.length then .next s
    else
      let s := s.setCore core { c with giveHeld := rs }
      let s := if c.gives.any (samePage r) then answerFrom s r.home r.key r.d statusBUSY else startGive s r
      .next (if (s.core core).giveHeld = [] then s else s.now (.giveAdmit core))

/-- The gives of a home that is quarantined (R428): REFUSED, and the leaf's OWNER as before. -/
def refuseGives (s : State) (core : Nat) : State :=
  let c := s.core core
  let s := s.setCore core { c with gives := [], giveHeld := [] }
  let s := c.gives.foldl (fun s r =>
    answer { s with mem := writeWord s.mem r.leaf (ownedLeaf (readWord s.mem r.leaf) r.token) } r.key r.d
      statusREFUSED) s
  c.giveHeld.foldl (fun s r => answerFrom s r.home r.key r.d statusREFUSED) s

/-! ptake (R431). -/

/-- The request of a ptake leaves, for a window that is open: over a limit, or with the journal full, nothing happens. -/
def sendTake (s : State) (k wid : Nat) (a : Word) (p : Place) : Option State :=
  let core := coreOf k
  let t := s.thr k
  let jent := if p.home = core then none else journalFree (s.core core)
  if !underLimit t false ∨ (p.home ≠ core ∧ jent = none) then none
  else
    let x := accessKind (.take (!isPrompt core)) 8 false true 0#64 0#64
    let r := { requestOf s k { x with ea := a } p true jent with wid := some wid }
    let s := match jent with
      | some e => setJournal s core e (entryOf s r)
      | none => s
    some ((s.setThr k { t with outst := t.outst ++ [⟨r.aid, false, false, some (addrOf a)⟩] }).later (.takeRequest r)).tick

/-- R431 ptake: its window holds back the thread's later memory accesses. -/
def execPtake (d a : Reg) (lk : BitVec 4) (s : State) : Out :=
  issue (.ptake d a lk) s fun s =>
    let k := s.cur
    let av := readReg s k a
    if isSystem (coreOf k) then operandTrap s av
    else withPage s av kindLOAD fun _ p =>
      let ea := BitVec.ofNat 64 (addrOf av)
      let w := newWindow s d lk false true (.ptake d a lk) av 0#64 .pending
      match sendTake s k w.id ea p with
      | none => forfeit s
      | some s' => .next (retireTo s' k ((s.thr k).pc + 4#64) [w])

/-- TAKE_REQUEST (R425, R431). -/
def execTakeRequest (r : Request) (s : State) : Out := .next (atHome s r)

/-- A ptake that was saved while its page was being given is sent again (R432), once its page is translated and it may issue: else
it is looked at again later. -/
def resendTake (s : State) (k : Nat) (w : Window) : State :=
  let again := fun (s : State) => s.later (.longLatencyResultArrival k w.id)
  match tlbFind (s.core (coreOf k)) (s.thr k).asid (addrOf w.a) with
  | none => again (windowWalk s k (addrOf w.a))
  | some t =>
    if (leafReason t.leaf (coreOf k) kindLOAD).isSome || !handoverLeaf t.leaf then again s
    else (sendTake s k w.id (BitVec.ofNat 64 (addrOf w.a)) (leafPlace s t.level t.leaf t.base.toNat)).getD (again s)

end Sys2Proof.Machine
end

