-- ==== Sys2Proof/Machine/Link.lean ====
section
/-! DEFINITION. Links, lane turns, permits and the reduction servers (21 R433 to R458). The steps that pass between dies wait at
its ports, and take a permit for each flit, as Machine/Schedule.lean gives (log 18, DESIGN CHOICE). -/

namespace Sys2Proof.Machine

/-! Lane groups and turns (R435 to R439). -/

def usableGroups (x : Port) : Nat := ((upTo 8).filter fun g => x.usable.getLsbD g).length

/-- LDIR (R436). -/
def ldirWord (x : Port) : Word :=
  BitVec.ofNat 64 (x.usable.toNat * 2 ^ 32 + x.turns.toNat * 2 ^ 16 + x.out * 2 ^ 12 + (if x.excl then 2 ^ 8 else 0))

/-- Turns of a port in the microsecond before a boundary. -/
def turnsBefore (x : Port) (now : Word) : Nat :=
  (x.history.filter fun t => decide (t.toNat < now.toNat) && decide (now.toNat < t.toNat + 1000)).length

/-- A turn changes OUT (R437): the groups that turn are silent, the others carry traffic throughout. -/
def turned (x : Port) (out : Nat) (now : Word) : Port :=
  { x with
    out := out, turns := x.turns + 1#16, tlast := now, silent := true, steady := min x.out out
    history := (x.history.filter fun t => decide (now.toNat < t.toNat + 1000)) ++ [now] }

/-- A turn of a link: both ends. -/
def turnLink (s : State) (die p out : Nat) : State :=
  let s := (s.setPort die p (turned (s.port die p) out s.time)).later (.turnSilenceEnd die p)
  match farPort die p with
  | none => s
  | some (d, q) =>
    let y := s.port d q
    (s.setPort d q (turned y (usableGroups y - out) s.time)).later (.turnSilenceEnd d q)

/-- Where a doubleword of a result goes, when it can be written. -/
def resultPlace (s : State) (core : Nat) (asid : BitVec 16) (ea : Nat) : Option Place :=
  let p := if 2 ^ 51 ≤ ea then
      match globReach s core asid ea true 0#32 with
      | .at p => some p
      | _ => none
    else unitPlace s core asid ea kindSTORE true
  p.bind fun q => if (homeRefusal s q.home q.mode asid false q.cell q.cell).isSome then none else some q

/-- Where the next store of a root's result goes: RDST, six doublewords and then the epoch (R449). -/
def rootPlace (s : State) (core ctx : Nat) (v : List Word) : Option Place :=
  let x := tabGet RedCtx.reset (s.core core).reds ctx
  resultPlace s core x.asid (addrOf x.cfg[2] + 8 * (6 - v.length))

/-- The ports that the next store of a root's result passes. -/
def rootWay (s : State) (core ctx : Nat) (v : List Word) : List (Nat × Nat) :=
  ((rootPlace s core ctx v).map fun q => hops core q.home).getD []

/-- What waits at a port: class 0 and long waits, outwards and inwards. -/
structure Demand where
  cl0Out : Bool
  cl0In : Bool
  longOut : Bool
  longIn : Bool
  anyOut : Bool
  anyIn : Bool

/-- What waits at a port's two directions (R437). -/
def demandAt (s : State) (die p : Nat) : Demand :=
  let here := (die, p)
  let far := farPort die p
  ⟨cl0Waits s here, far.any (cl0Waits s), waitsLong s here, far.any (waitsLong s), queueAt s here != [],
    far.any fun h => queueAt s h != []⟩

/-- The trim of R438: the least and the most groups outwards; where both cannot be, OUT stays. -/
def trimmed (x : Port) (w : Demand) (target : Nat) : Nat :=
  let n := usableGroups x
  let long := if w.longOut && w.longIn then min 4 (n / 2) else min 4 n
  let need := fun (cl0 waited : Bool) => if waited then long else if !x.excl || cl0 then min 1 n else 0
  let lo := need w.cl0Out w.longOut
  let hi := n - need w.cl0In w.longIn
  if hi < lo then x.out else if target < lo then lo else if hi < target then hi else target

/-- The target before the trim, and whether it takes the oldest request. -/
def turnTarget (x : Port) (w : Demand) : Nat × Bool :=
  let n := usableGroups x
  if w.longOut && w.longIn then (n / 2, false)
  else if w.longOut then (max x.out (min 4 n), false)
  else if w.longIn then (min x.out (n - 4), false)
  else match x.queue with
    | r :: _ => (r, true)
    | [] => (x.out, false)

/-- The test of R438, and of R439 for a port with one usable group. -/
def turnTest (s : State) (die p : Nat) (w : Demand) : State :=
  let x := s.port die p
  let n := usableGroups x
  if x.history.contains s.time then s
  else if n = 1 ∧ w.anyOut ∧ w.anyIn then turnLink s die p (1 - x.out)
  else if x.out = 0 ∧ w.cl0Out ∧ 0 < n then turnLink s die p 1
  else if x.out = n ∧ w.cl0In ∧ 0 < n then turnLink s die p (n - 1)
  else if 2 ≤ turnsBefore x s.time then s
  else
    let t := turnTarget x w
    let target := trimmed x w t.1
    let s := if t.2 then s.setPort die p { x with queue := x.queue.drop 1 } else s
    if target = x.out then s else turnLink s die p target

/-- The usable groups that failures take out of use (R471). -/
def failedGroups (x : Port) : List Nat := (upTo 8).filter fun g => x.usable.getLsbD g && x.failing.getLsbD g

/-- A group leaves USABLE at one end: OUT counts the groups that remain (R439). -/
def retireGroup (x : Port) (g : Nat) : Port :=
  let before := ((upTo 8).filter fun j => x.usable.getLsbD j && decide (j < g)).length
  { x with usable := x.usable &&& ~~~(1#8 <<< g), out := if before < x.out then x.out - 1 else x.out }

def retireLinkGroup (die p : Nat) (s : State) (g : Nat) : State :=
  let s := s.setPort die p (retireGroup (s.port die p) g)
  match farPort die p with
  | none => s
  | some (d, q) => s.setPort d q (retireGroup (s.port d q) (7 - g))

/-- LINK_TURN_BOUNDARY (R437 to R439, R471). -/
def execLinkTurnBoundary (die p : Nat) (s : State) : Out :=
  let s := (failedGroups (s.port die p)).foldl (retireLinkGroup die p) s
  .next (turnTest s die p (demandAt s die p))

/-- TURN_SILENCE_END (R437). -/
def execTurnSilenceEnd (die p : Nat) (s : State) : Out :=
  let x := s.port die p
  if (s.time - x.tlast).toNat < 6 then .next (s.later (.turnSilenceEnd die p))
  else .next (s.setPort die p { x with silent := false })

/-! Permits (R441 to R445). -/

/-- LPOOL and LPHELD (R442). -/
def lpoolWord (x : Port) : Word :=
  BitVec.ofNat 64 ((if x.ovc then 2 ^ 63 else 0) + x.capacity * 2 ^ 16 + (x.capacity - sumOf x.held))

def lpheldWord (x : Port) : Word :=
  BitVec.ofNat 64 (sumOf ((upTo 5).map fun c => x.held.getD c 0 % 2 ^ 11 * 2 ^ (12 * c)))

def lauditWord (x : Port) : Word := BitVec.ofNat 64 (x.repairs.toNat * 2 ^ 32 + x.dropret.toNat)

/-- FLIT_ARRIVAL (R434, R435, R441, R444): a flit that its sender may not send yet, or that stands behind a replay or an audit,
waits. bad names the lane groups in error. -/
def execFlitArrival (die p cls : Nat) (bad : BitVec 8) (s : State) : Out :=
  let again := Host.Outcome.next (s.later (.flitArrival die p cls bad))
  if !endClear s die p then again
  else match farPort die p with
    | none => .next (flitReaches s die p cls bad)
    | some (d, q) =>
      if launches (s.port d q) q && admitsFlit (s.port d q) cls then .next (launchFlit s (d, q) cls bad) else again

/-- FLIT_REPLAY (R434): the oldest discarded flit arrives again, and is good. -/
def execFlitReplay (die p : Nat) (s : State) : Out :=
  let x := s.port die p
  match x.replay with
  | [] => .next s
  | c :: cs => .next (flitKept (s.setPort die p { x with replay := cs }) die p c)

/-- The receiver sends its counts; a pod port's return leaves the module. -/
def returnSent (s : State) (die p : Nat) : State :=
  let x := s.port die p
  let s := s.setPort die p { x with returned := some s.time, retSent := x.ret }
  match farPort die p with
  | none => s
  | some (d, q) => (s.later (.returnFlitArrival d q (Config.goodReturn s.nonce) x.ret)).tick

/-- A return was sent within the last 32 ns. -/
def returnTooSoon (x : Port) (now : Word) : Bool := x.returned.any fun t => decide ((now - t).toNat < 32)

/-- RETURN_FLIT_SEND (R443): the receiver frees its buffers, and sends its counts when some has changed, at most once in 32 ns. -/
def execReturnFlitSend (die p : Nat) (s : State) : Out :=
  let x := s.port die p
  let x := { x with
    ret := (x.ret.zip x.occ).map fun y => y.1 + BitVec.ofNat 16 y.2, occ := [0, 0, 0, 0, 0] }
  let s := s.setPort die p x
  if x.retSent = x.ret then .next s
  else if returnTooSoon x s.time then .next (s.later (.returnFlitSend die p))
  else .next (returnSent s die p)

/-- RETURN_FLIT_ARRIVAL (R443): a bad one is dropped, and the next good one carries the counts. -/
def execReturnFlitArrival (die p : Nat) (good : Bool) (ret : List (BitVec 16)) (s : State) : Out :=
  let x := s.port die p
  if good then
    let delta := (ret.zip x.last).map fun y => (y.1 - y.2).toNat
    .next (s.setPort die p { x with held := (x.held.zip delta).map fun y => y.1 - y.2, last := ret })
  else .next (s.setPort die p { x with dropret := x.dropret + 1#32 })

/-- AUDIT_FLIT_SEND (R444): it travels behind the flits that were sent, with their counts. A pod port's leaves the module. -/
def execAuditFlitSend (die p : Nat) (s : State) : Out :=
  match farPort die p with
  | none => .next s
  | some (d, q) => .next (s.later (.auditFlitArrival d q (s.port die p).sent))

/-- AUDIT_FLIT_ARRIVAL (R444): behind a flit that waits for its replay it waits too; a repair is returned at once. -/
def execAuditFlitArrival (die p : Nat) (sent : List (BitVec 16)) (s : State) : Out :=
  let x := s.port die p
  let ret := (sent.zip x.occ).map fun y => y.1 - BitVec.ofNat 16 y.2
  if x.replay ≠ [] then .next (s.later (.auditFlitArrival die p sent))
  else if ret = x.ret then .next s
  else .next (returnSent (s.setPort die p { x with ret := ret, repairs := x.repairs + 1#32 }) die p)

/-- The sum of the minima exceeds CAPACITY (R445). -/
def permitsShort (x : Port) : Bool := decide (x.capacity < sumOf ((upTo 5).map (minField x.lpmin)))

/-- The minima after a retirement (R445), when their sum exceeds CAPACITY. -/
def shrinkPermits (x : Port) : Port :=
  let m := fun (c : Nat) => minField x.lpmin c
  let sum := m 1 + m 2 + m 3 + m 4
  if !permitsShort x then x
  else
    let rem := x.capacity - m 0
    { x with
      lpmin := BitVec.ofNat 64 (m 0 + sumOf ([1, 2, 3, 4].map fun c => rem * m c / sum * 2 ^ (12 * c)))
      ovc := true }

/-- PERMIT_BLOCK_RETIRE (R445, R470): it waits for the block's buffers to be free. -/
def execPermitBlockRetire (die p : Nat) (s : State) : Out :=
  let x := s.port die p
  if x.capacity < 64 then .next s
  else if x.capacity < sumOf x.held + 64 then .next (s.later (.permitBlockRetire die p))
  else
    let y := shrinkPermits { x with capacity := x.capacity - 64 }
    let s := s.setPort die p y
    .next (if permitsShort { x with capacity := x.capacity - 64 } then s.raised (.portOvc die p) else s)

/-- PORT_TRAINING_CHANGE (R454, R471): of a pod port. -/
def execPortTrainingChange (die p : Nat) (up : Bool) (s : State) : Out :=
  if 4 ≤ p ∧ p ≤ 11 then .next (s.setPort die p { s.port die p with up := up }) else .next s

/-! lturn and lstat (R453, R454). -/

/-- R453 lturn. -/
def execLturn (a b : Reg) (s : State) : Out :=
  issue (.lturn a b) s fun s =>
    let av := readReg s s.cur a
    let bv := readReg s s.cur b
    let die := dieOf (coreOf s.cur)
    if 3 ≤ av.toNat ∨ 9 ≤ bv.toNat then operandTrap s av
    else
      let x := s.port die av.toNat
      if 4 ≤ x.queue.length then forfeit s
      else finish (s.setPort die av.toNat { x with queue := x.queue ++ [bv.toNat] })

/-- The report of lstat. -/
def lstatWord (x : Port) (pod cl0 : Bool) : Word :=
  let bit := fun (b : Bool) (n : Nat) => if b then 2 ^ n else 0
  BitVec.ofNat 64 ((if pod then 0 else x.out) * 2 ^ 60 + bit pod 59 + bit x.excl 58 + x.queue.length * 2 ^ 54 + bit cl0 53 +
    bit x.up 52 + (if pod then 0 else bitsAt x.tlast 0 32))

/-- R454 lstat. -/
def execLstat (d a : Reg) (s : State) : Out :=
  issue (.lstat d a) s fun s =>
    let av := readReg s s.cur a
    let p := av.toNat
    if !portExists p then operandTrap s av
    else
      let die := dieOf (coreOf s.cur)
      finishWrite s d (lstatWord (s.port die p) (decide (4 ≤ p)) (cl0Waits s (die, p)))

/-! Reduction servers (R447 to R451). -/

def State.red (s : State) (core k : Nat) : RedCtx := tabGet RedCtx.reset (s.core core).reds k
def State.setRed (s : State) (core k : Nat) (x : RedCtx) : State :=
  let c := s.core core
  s.setCore core { c with reds := tabSet c.reds k x }

/-! Fields of registers 6 to 10, as a context or rsvr holds them. -/

def redType (v : Vector Word 5) : Nat := bitsAt v[0] 6 2
def redOp (v : Vector Word 5) : Nat := bitsAt v[0] 4 2
def redMean (v : Vector Word 5) : Bool := v[0].getLsbD 0
def redHasParent (v : Vector Word 5) : Bool := v[1].getLsbD 63
def redChild (v : Vector Word 5) : BitVec 16 := v[4].setWidth 16
def redCount (v : Vector Word 5) : Nat := bitsAt v[3] 0 16
def redAuto (v : Vector Word 5) : Bool := v[3].getLsbD 16

/-- The lanes of a payload, and a payload from its lanes. -/
def lanes (type : Nat) (v : List Word) : List Nat :=
  if type = 0 then v.flatMap fun w => [bitsAt w 0 32, bitsAt w 32 32] else v.map BitVec.toNat

def pairUp : List Nat → List Word
  | x :: y :: l => BitVec.ofNat 64 (x + 2 ^ 32 * y) :: pairUp l
  | l => l.map fun x => BitVec.ofNat 64 x

def fromLanes (type : Nat) (l : List Nat) : List Word :=
  if type = 0 then pairUp l else l.map fun x => BitVec.ofNat 64 x

def redFormat (type : Nat) : Fmt := if type = 0 then .fp32 else .fp64

/-- One element: acc OP v. -/
def redStep (type op a b : Nat) : Nat :=
  if type = 2 then
    let x := signedBits 64 a
    let y := signedBits 64 b
    match op with
    | 0 => (a + b) % 2 ^ 64
    | 1 => if x < y then b else a
    | _ => if y < x then b else a
  else
    let f := redFormat type
    let x := f.value a
    let y := f.value b
    let r := match op with
      | 0 => (addVal nearest x y).1
      | 1 => maxVal x y
      | _ => minVal x y
    (roundTo f nearest r).1

/-- One element of the mean: the quotient by n. -/
def redDivide (type n a : Nat) : Nat :=
  if type = 2 then (BitVec.ofInt 64 ((signedBits 64 a).tdiv n)).toNat
  else (roundTo (redFormat type) nearest (divVal ((redFormat type).value a) (intVal n)).1).1

/-- The sum over the children of a mask, in ascending order. -/
def redTotal (x : RedCtx) : List Word :=
  let type := redType x.cfg
  let bufs := ((upTo 16).filter fun c => (redChild x.cfg).getLsbD c).map fun c => lanes type (tabGet [] x.bufs c)
  match bufs with
  | [] => []
  | b :: bs => fromLanes type (bs.foldl (fun acc v => (acc.zip v).map fun y => redStep type (redOp x.cfg) y.1 y.2) b)

/-- Live modules of the pod membership table. -/
def liveModules (s : State) : Nat := max 1 (Config.podModules - s.lostModules.length)

def redDivisor (s : State) (v : Vector Word 5) : Nat := redCount v * (if redAuto v then liveModules s else 1)

/-- Where PARENT leads. -/
def redParent (core : Nat) (x : RedCtx) (acc : List Word) : Partial :=
  let w := x.cfg[1]
  { src := core, core := coreAt (bitsAt w 50 2) (bitsAt w 46 4) (bitsAt w 41 5), asid := x.asid, ctx := bitsAt w 37 4
    child := bitsAt w 33 4, epoch := x.epoch, v := acc }

/-- The parent is in another module: the partial leaves by a pod port. -/
def redAway (x : RedCtx) : Bool := bitsAt x.cfg[1] 52 10 != Config.ownModule

/-- The pod port by which a partial leaves the module: the manual names none (log 18, DESIGN CHOICE). -/
def podPort (s : State) (core : Nat) : Nat :=
  let up := ((upTo 8).map (4 + ·)).filter fun p => (s.port (dieOf core) p).up
  up.getD (Config.choice s.nonce % up.length) 4

/-- A context completes (R448, R449). The writes of a result come next in the server's work. -/
def redComplete (s : State) (core k : Nat) : State :=
  let x := s.red core k
  let type := redType x.cfg
  let acc := redTotal x
  let s := s.setRed core k { x with epoch := x.epoch + 1#16, arrived := 0#16, bufs := [] }
  if redHasParent x.cfg then
    if redAway x then (s.later (.partialLeaves (redParent core x acc) (podPort s core))).tick
    else s.later (.partialArrival (redParent core x acc))
  else
    let n := redDivisor s x.cfg
    let v := if redMean x.cfg then fromLanes type ((lanes type acc).map (redDivide type n)) else acc
    let c := s.core core
    s.setCore core { c with server := .rootResultWrite core k x.epoch v :: c.server }

def dropPartial (s : State) (core k : Nat) : State :=
  let x := s.red core k
  s.setRed core k { x with drops := min (x.drops + 1) 255 }

/-- A partial reaches a core: its server has it to do (R447). -/
def partialReaches (s : State) (p : Partial) : State :=
  let c := s.core p.core
  if !isCompute p.core ∨ s.dieRetired (dieOf p.core) ∨ c.health ≠ .good then s
  else s.setCore p.core { c with server := c.server ++ [.partialArrival p] }

/-- PARTIAL_ARRIVAL (R448): the server takes it. -/
def execPartialArrival (p : Partial) (s : State) : Out :=
  if !isCompute p.core ∨ s.dieRetired (dieOf p.core) ∨ (s.core p.core).health ≠ .good then .next s
  else
    let x := s.red p.core p.ctx
    if !x.on ∨ x.asid ≠ p.asid ∨ x.epoch ≠ p.epoch ∨ !(redChild x.cfg).getLsbD p.child ∨ x.arrived.getLsbD p.child then
      .next (dropPartial s p.core p.ctx)
    else
      let x := { x with bufs := tabSet x.bufs p.child p.v, arrived := x.arrived ||| (1#16 <<< p.child) }
      let s := s.setRed p.core p.ctx x
      if x.arrived = redChild x.cfg then .next (redComplete s p.core p.ctx) else .next s

/-- ROOT_RESULT_WRITE (R449): the next of the six stores whose doublewords are v, or after them the epoch word. What remains
stays the first of the server's work; a store that cannot be made drops the rest. -/
def execRootResultWrite (core k : Nat) (epoch : BitVec 16) (v : List Word) (s : State) : Out :=
  let x := s.red core k
  match rootPlace s core k v with
  | none => .next (s.setRed core k { x with fault := true })
  | some p => match v with
    | [] => .next { s with mem := writeWord s.mem p.cell (epoch.setWidth 64) }
    | w :: ws =>
      let s := { s with mem := writeWord s.mem p.cell w }
      let c := s.core core
      .next (s.setCore core { c with server := .rootResultWrite core k epoch ws :: c.server })

/-- A store of the core's server is on its way to another die. -/
def serverStores (s : State) (core : Nat) : Bool :=
  s.work.any fun e => match e with
    | .rootResultWrite c _ _ _ => c == core
    | _ => false

/-- A context is about to send its sum to its parent, and the outbound queue has no room for it (R361). -/
def sumWaits (s : State) (core k : Nat) (arrived : BitVec 16) : Bool :=
  let x := s.red core k
  redHasParent x.cfg && arrived == redChild x.cfg && decide (8 ≤ outbound s core 3)

/-- One step of a core's server (R447). A store to another die goes there as a request (R440). -/
def serverStep (s : State) (core : Nat) : Out :=
  let c := s.core core
  if serverStores s core then .next s
  else match c.server with
  | .partialArrival p :: es =>
    if sumWaits s core p.ctx ((s.red core p.ctx).arrived ||| (1#16 <<< p.child)) then .next s
    else execPartialArrival p (s.setCore core { c with server := es })
  | .rootResultWrite r k epoch v :: es =>
    let s := s.setCore core { c with server := es }
    if rootWay s core k v = [] then execRootResultWrite core k epoch v s
    else .next (s.later (.rootResultWrite r k epoch v))
  | _ => .next (s.setCore core { c with server := c.server.drop 1 })

/-- MODULE_FAILURE (R450): the table loses the module. -/
def execModuleFailure (m : Nat) (s : State) : Out :=
  if s.lostModules.contains m then .next s else .next { s with lostModules := s.lostModules ++ [m] }

/-! rsvr, rpart and grpq (R455 to R457). -/

/-- Registers 6 to 10 of a thread. -/
def redRegs (t : Thread) : Vector Word 5 := #v[t.linkRegs[6], t.linkRegs[7], t.linkRegs[8], t.linkRegs[9], t.linkRegs[10]]

/-- The reserved fields and values of registers 6 to 10. -/
def redRegsOk (v : Vector Word 5) : Bool :=
  bitsAt v[0] 8 56 == 0 && bitsAt v[0] 1 3 == 0 && redType v != 3 && redOp v != 3 && !v[1].getLsbD 62 &&
    bitsAt v[1] 0 33 == 0 && bitsAt v[3] 17 47 == 0 && bitsAt v[4] 16 48 == 0

def rsvrOk (v : Vector Word 5) (a b : Word) : Bool :=
  bitsAt a 6 58 == 0 && bitsAt b 32 32 == 0 && redRegsOk v &&
    !(a.getLsbD 4 && (redChild v == 0#16 || bitsAt b 0 16 == 0)) &&
    !(!redHasParent v && (bitsAt v[2] 52 12 != 0 || bitsAt v[2] 0 6 != 0)) && !(redMean v && redCount v == 0)

/-- R455 rsvr: the server's one step; while the outbound queue has no room for the sum that it sends, the slot forfeits (R361; log 39,
DESIGN CHOICE). -/
def execRsvr (a b : Reg) (s : State) : Out :=
  issue (.rsvr a b) s fun s =>
    let av := readReg s s.cur a
    let bv := readReg s s.cur b
    let core := coreOf s.cur
    let v := redRegs (s.thr s.cur)
    let k := bitsAt av 0 4
    let x := s.red core k
    if !rsvrOk v av bv then operandTrap s av
    else if !av.getLsbD 4 then
      finish (s.setRed core k { x with on := false, arrived := 0#16, drops := 0, fault := false, bufs := [] })
    else if !av.getLsbD 5 || !x.on then
      finish (s.setRed core k { x with
        on := true, asid := bv.extractLsb' 0 16, cfg := v, epoch := bv.extractLsb' 16 16, arrived := 0#16, bufs := [] })
    else
      let y := { x with cfg := v, arrived := x.arrived &&& redChild v }
      if sumWaits (s.setRed core k y) core k y.arrived then forfeit s
      else finish (if y.arrived = redChild v then redComplete (s.setRed core k y) core k else s.setRed core k y)

/-- The core that rpart and grpq name in a (R456). -/
def linkCore (s : State) (k : Nat) (a : Word) : Option Nat :=
  if bitsAt a 52 12 ≠ 0 ∨ bitsAt a 8 32 ≠ 0 then none
  else if bitsAt a 40 12 = 0 then some (coreOf k)
  else if !a.getLsbD 51 ∨ 14 ≤ bitsAt a 45 4 ∨ 16 ≤ bitsAt a 40 5 ∨ s.dieRetired (bitsAt a 49 2) then none
  else some (coreAt (bitsAt a 49 2) (bitsAt a 45 4) (bitsAt a 40 5))

/-- R456 rpart. -/
def execRpart (a b : Reg) (s : State) : Out :=
  issue (.rpart a b) s fun s =>
    let k := s.cur
    let av := readReg s k a
    let bv := readReg s k b
    let t := s.thr k
    match linkCore s k av with
    | none => operandTrap s av
    | some core =>
      if bitsAt bv 16 48 ≠ 0 then operandTrap s av
      else if 8 ≤ outbound s (coreOf k) 3 then forfeit s
      else finish (s.later (.partialArrival
        { src := coreOf k, core := core, asid := t.asid, ctx := bitsAt av 0 4, child := bitsAt av 4 4
          epoch := bv.extractLsb' 0 16, v := t.linkRegs.toList.take 6 }))

/-- The status of a context for an ASID (R457). -/
def grpqWord (x : RedCtx) (asid : BitVec 16) : Word :=
  if !x.on ∨ x.asid ≠ asid then 0#64
  else BitVec.ofNat 64 (x.epoch.toNat * 2 ^ 48 + x.arrived.toNat * 2 ^ 32 + (redChild x.cfg).toNat * 2 ^ 16 +
    x.drops * 2 ^ 8 + (if x.fault then 4 else 0) + 1)

/-- R457 grpq. -/
def execGrpq (d a : Reg) (lk : BitVec 4) (s : State) : Out :=
  issue (.grpq d a lk) s fun s =>
    let k := s.cur
    let av := readReg s k a
    match linkCore s k av with
    | none => operandTrap s av
    | some core =>
      if bitsAt av 4 4 ≠ 0 then operandTrap s av
      else finishLong s (.grpq d a lk) d (.one (grpqWord (s.red core (bitsAt av 0 4)) (s.thr k).asid))

end Sys2Proof.Machine
end

