-- ==== Sys2Proof/Machine/Reliability.lean ====
section
/-! DEFINITION. The checker, quarantine and the bond (22 R459 to R471). When a comparison fails, a core meets an error or a
beat fails is the outside world's to say. -/

namespace Sys2Proof.Machine

/-! The checker (R459 to R461). -/

/-- CHKSTAT. -/
def chkstatWord (c : Core) : Word :=
  BitVec.ofNat 64 (c.parked.toNat * 2 ^ 48 + c.kills.toNat * 2 ^ 32 + c.retries.toNat)

/-- CHECKER_MISMATCH (R459, R460, R462): the first on an issue has the instruction issued again at the slot's next opportunity, with
nothing written; the second ends the thread, or in slot 7 quarantines the core. -/
def execCheckerMismatch (k : Nat) (s : State) : Out :=
  let t := s.thr k
  if isSystem (coreOf k) ∨ t.sstate ≠ .run ∨ t.spent then .next s
  else if !t.mismatch then
    let c := s.core (coreOf k)
    .next ((s.setThr k { t with mismatch := true, spent := true }).setCore (coreOf k) { c with retries := c.retries + 1#32 })
  else if slotOf k = 7 then .next (s.now (.quarantine (coreOf k) 2#3))
  else .next (s.now (.machineCheck k))

/-- The scrubbed slot (R460): what the rule lists is 0, the record of the MCHECK stands (R179), and the rest stays. -/
def scrubbed (t : Thread) (pc : Word) : Thread :=
  let e := Thread.empty
  { t with
    sstate := .ended, p := e.p, q := e.q, ualt := e.ualt, xalt := e.xalt, windows := [], frozen := [], held := []
    latch := e.latch, copyRegs := e.copyRegs, matRegs := e.matRegs, linkRegs := e.linkRegs
    posted := [], hold := .none, walk := none, rewalk := none, sleep := none, stay := false, killed := false, mismatch := false, spent := false
    epc := pc, cause := causeWord false kindMCHECK 0, tval := 0#64 }

/-- A second mismatch of the instruction at pc ends thread k (R179, R460). -/
def machineCheckAt (s : State) (k : Nat) (pc : Word) : State :=
  let t := s.thr k
  if !userKey k ∨ !t.lives then s
  else
    let s := loseNow s k 1
    let s := s.setThr k (scrubbed (s.thr k) pc)
    let c := s.core (coreOf k)
    (s.setCore (coreOf k) { c with parked := c.parked ||| (1#7 <<< slotOf k), kills := c.kills + 1#16 }).raised
      (.parked (coreOf k) (slotOf k))

/-- MACHINE_CHECK (R460): of the instruction that is being issued again. -/
def execMachineCheck (k : Nat) (s : State) : Out := .next (machineCheckAt s k (s.thr k).pc)

/-- The instructions that the checker compares when their result arrives (R459): mul, div, rem and majors 0x20 to 0x25. -/
def checkedLate (w : Window) : Bool :=
  let op := (opOf w.word).toNat
  (op == 0x01 && decide (0x10 ≤ (fnOf w.word).toNat)) || (decide (0x20 ≤ op) && decide (op ≤ 0x25))

/-- The comparison of a result that arrives for window wid fails (R179, R459, R460): the first time nothing is written and
the instruction waits for the slot's next opportunity, to be issued again; the second time the thread ends, with the instruction as
EPC, or in slot 7 the core is quarantined. -/
def resultMismatch (s : State) (k wid : Nat) : State :=
  match findFirst (fun w => w.id == wid) (s.thr k).allWindows with
  | none => s
  | some w =>
    if isSystem (coreOf k) || !w.waits || !checkedLate w || w.retry then s
    else if !w.mismatch then
      let mark := fun (ws : List Window) => ws.map fun x => if x.id = wid then { x with mismatch := true, retry := true } else x
      let t := s.thr k
      let c := s.core (coreOf k)
      let s := { s with work := s.work.filter fun e => e != Event.longLatencyResultArrival k wid }
      (s.setThr k { t with windows := mark t.windows, frozen := mark t.frozen, held := mark t.held }).setCore (coreOf k)
        { c with retries := c.retries + 1#32 }
    else if slotOf k = 7 then s.now (.quarantine (coreOf k) 2#3)
    else machineCheckAt s k w.pc

/-- PARKED_CLEAR (R460): the slot vacates once nothing of its thread is left. A bit that is set in this ck stays (R4). -/
def clearParked (s : State) (core : Nat) (mask : Word) : State :=
  let c := s.core core
  let cleared := (upTo 7).filter fun j => mask.getLsbD (48 + j) && !s.stays (.parked core j)
  s.setCore core { c with parked := c.parked &&& ~~~(BitVec.ofNat 7 (cleared.map (2 ^ ·)).sum) }

def execParkedClear (core : Nat) (mask : Word) (s : State) : Out := .next (clearParked s core mask)

/-! Quarantine (R462 to R465). -/

/-- The silicon column of a logical core (R21, R463). -/
def siliconCol (s : State) (core : Nat) : Nat :=
  let v := tabGet 0#5 (s.die (dieOf core)).spares (rowOf core)
  if v.getLsbD 4 && v.toNat % 16 == colOf core then 16 else colOf core

/-- CHKDIE and SPARE0, SPARE1 (R465). -/
def chkdieWord (d : Die) : Word :=
  BitVec.ofNat 64 ((if d.qip then 2 ^ 63 else 0) + d.qcause.toNat * 2 ^ 60 + d.qrow.toNat * 2 ^ 52 + d.qcol.toNat * 2 ^ 47 +
    d.mfault.toNat)

def spareWord (d : Die) (i : Nat) : Word :=
  BitVec.ofNat 64 (((upTo 7).map fun k => (tabGet 0#5 d.spares (7 * i + k)).toNat * 2 ^ (5 * k)).sum)

/-- Reservations at a core end (R463): its waiters wake with ORPHAN. -/
def orphanAll (s : State) (core : Nat) : State :=
  let c := s.core core
  let waiters := c.resv.filterMap Reservation.waiting ++ c.resvHeld
  replyAll (s.setCore core { c with resv := [], resvHeld := [] }) (.value wakeORPHAN) waiters

/-- A thread of the residence is lost. -/
def loseResident (s : State) (k : Nat) : State := if (s.thr k).lives then loseNow s k 1 else s

/-- The migration packets bound for the core, on their way or in its queue 3, are lost with their threads. -/
def losePackets (s : State) (core : Nat) : State :=
  let bound := fun (e : Event) => match e with
    | .migrationPacketArrival p _ => p.dst == core
    | _ => false
  let ks := (s.work.filter bound).filterMap fun e => match e with
    | .migrationPacketArrival p _ => some p.src
    | _ => none
  let c := s.core core
  let s := { s.setCore core { c with packets := [] } with work := s.work.filter fun e => !bound e }
  (ks ++ c.packets.map (·.src)).foldl loseResident s

/-- The core's engine work is cancelled. -/
def stopEngines (s : State) (core : Nat) : State :=
  let s := (upTo 8).foldl (fun s j => cancelEngines s (8 * core + j)) s
  s.setCore core { s.core core with vecQueue := [], reps := [], copies := [], matQueue := [], arrived := false, walk := none }

/-- QUARANTINE (R463 steps 1 to 3, R464): a second one on the die waits. -/
def execQuarantine (core : Nat) (cause : BitVec 3) (s : State) : Out :=
  let die := dieOf core
  if !isCompute core ∨ s.dieRetired die ∨ (s.core core).health ≠ .good then .next s
  else if (s.die die).qip then .next (s.later (.quarantine core cause))
  else
    let s := s.setDie die { s.die die with
      qip := true, qcause := cause, qunread := true, qrow := BitVec.ofNat 4 (rowOf core)
      qcol := BitVec.ofNat 5 (siliconCol s core) }
    let s := s.setCore core { s.core core with health := .quarantined }
    let s := losePackets (refuseGives (orphanAll s core) core) core
    let s := ((upTo 7).map (8 * core + ·)).foldl loseResident s
    .next ((stopEngines s core).later (.quarantineMapShift core))

/-- The lines of a share that the copy could not read (R463 step 4). -/
def lostLines (core nonce : Nat) : List Nat :=
  let base := physCell false (dieOf core * 2 ^ 48 + rowOf core * 2 ^ 44 + colOf core * 2 ^ 40) / 64
  ((upTo (2 ^ 18)).filter fun i => !Config.lineReadable (nonce + i)).map (base + ·)

/-- The contents of a typed buffer are lost: each doubleword becomes a free value. -/
def loseBuffer (core : Nat) (s : State) (buffer : Nat) : State :=
  let n := bufferSize core buffer / 8
  { s with
    mem := writeWords s.mem (bufferCell core buffer 0) ((upTo n).map fun i => Config.freeWord (s.nonce + i))
    nonce := s.nonce + n }

/-- The substitute takes the logical core's place (R463 step 5): FREE, at reset, with the share as it was copied. Its slots
hold their threads no more: the entries that address them return as stale (R329). It counts its own ck (R281). -/
def substitute (s : State) (core : Nat) : State :=
  let s := (upTo 7).foldl (fun s j => if (s.thr (8 * core + j)).sstate == .empty then s else returnStale s (8 * core + j)) s
  let s := { s with poison := s.poison ++ lostLines core s.nonce, nonce := s.nonce + 2 ^ 18 }
  let s := [0, 1, 2].foldl (loseBuffer core) s
  let s := (upTo 8).foldl (fun s j => s.setThr (8 * core + j) Thread.empty) s
  let s := (upTo 16).foldl (fun s j => s.setBarrier (barrierKey 1 core j) Barrier.reset) s
  (s.setCore core { Core.reset with heldInReset := (s.core core).heldInReset, ckBase := Config.choice s.nonce }).tick

/-- A logical core is retired: the minima of its pool and of its die's permit pools are applied to the capacities as they stand
(R369, R445, R464). -/
def retireCore (s : State) (core : Nat) : State :=
  let c := s.core core
  let s := if overCommitted c then (s.raised (.queueOvc core)).setCore core { shrinkMinima c with health := .retired }
    else s.setCore core { c with health := .retired }
  let d := s.die (dieOf core)
  s.setDie (dieOf core) { d with qip := false, ports := d.ports.map fun x => (x.1, shrinkPermits x.2) }

/-- QUARANTINE_MAP_SHIFT (R463 steps 4 and 5, R464): a row whose spare is in use loses the core. It waits for what the
core's threads still have under way. -/
def execQuarantineMapShift (core : Nat) (s : State) : Out :=
  let die := dieOf core
  if (s.core core).health ≠ .quarantined then .next s
  else if !(upTo 8).all (fun j => (s.thr (8 * core + j)).outst == []) then .next (s.later (.quarantineMapShift core))
  else
    let d := s.die die
    if (tabGet 0#5 d.spares (rowOf core)).getLsbD 4 then
      .next (retireCore s core)
    else
      let spares := tabSet d.spares (rowOf core) (BitVec.ofNat 5 (16 + colOf core))
      .next (substitute (s.setDie die { d with qip := false, spares := spares }) core)

/-! The bond (R467 to R469). -/

/-- The charges of the last millisecond, with one more. -/
def charged (c : Core) (lane : Nat) (now : Word) : List (Nat × Word) :=
  (c.charges.filter fun x => decide ((now - x.2).toNat < 1000000)) ++ [(lane, now)]

/-- LBNDLOG after a retried beat. -/
def bondLog (w : Word) (lane : Nat) (off : BitVec 24) (givenUp : Bool) : Word :=
  BitVec.ofNat 64 ((bitsAt w 48 16 + 1) % 2 ^ 16 * 2 ^ 48 + (bitsAt w 40 8 + (if givenUp then 1 else 0)) % 2 ^ 8 * 2 ^ 40 +
    bitsAt w 36 1 * 2 ^ 36 + lane % 2 ^ 10 * 2 ^ 26 + off.toNat)

/-- A lane charged for the third time is swapped for the lowest unused spare, or NOSPARE is set. -/
def swapLane (c : Core) (lane : Nat) : Core :=
  if (c.charges.filter fun x => x.1 == lane).length < 3 then c
  else match findFirst (fun j => !c.lspare.getLsbD j) (upTo 8) with
    | some j => { c with
        lspare := BitVec.ofNat 64 (lane % 2 ^ 10 * 2 ^ 8 + (bitsAt c.lspare 0 8 + 2 ^ j))
        charges := c.charges.filter fun x => x.1 != lane }
    | none => { c with lbndlog := c.lbndlog ||| 0x1000000000#64 }

/-- The line of a share, from its offset. -/
def shareLine (core : Nat) (off : BitVec 24) : Nat :=
  physCell false (dieOf core * 2 ^ 48 + rowOf core * 2 ^ 44 + colOf core * 2 ^ 40 + off.toNat) / 64

/-- LARRLOG after an error in a line (R469): CE or UE, LASTUE and OFFSET. -/
def arrayLog (w : Word) (off : Nat) (double : Bool) : Word :=
  BitVec.ofNat 64 ((bitsAt w 48 16 + (if double then 0 else 1)) % 2 ^ 16 * 2 ^ 48 +
    (bitsAt w 40 8 + (if double then 1 else 0)) % 2 ^ 8 * 2 ^ 40 + (if double then 2 ^ 39 else 0) + off)

/-- The core whose Loft share holds a line, and the offset in the share. -/
def lineShare (line : Nat) : Option (Nat × Nat) :=
  if 2 ^ 52 ≤ 64 * line then none
  else some (coreAt (64 * line / 2 ^ 48 % 4) (64 * line / 2 ^ 44 % 16) (64 * line / 2 ^ 40 % 16), 64 * line % 2 ^ 24)

/-- The accesses that read a line in this ck are refused with MEMERR, and a walk's read of an entry in it is absent (R404, R466,
R467, R471): a thread's access, the fetch, a send's payload, the copy engine's element, a load of an image. -/
def failLine (s : State) (line : Nat) (writes : Bool) : State := { s with erring := s.erring ++ [(line, writes)] }

/-- BEAT_RETRY (R467, R468): one beat of a core's port has failed its parity, and one lane of the good copy differed; or it is given
up, with no good copy to compare. -/
def execBeatRetry (core lane : Nat) (off : BitVec 24) (givenUp : Bool) (s : State) : Out :=
  let c := s.core core
  let nospare := c.lbndlog.getLsbD 36
  if !givenUp then
    .next (s.setCore core (swapLane
      { c with charges := charged c lane s.time, lbndlog := bondLog c.lbndlog lane off false } lane))
  else
    let s := s.setCore core { c with lbndlog := bondLog c.lbndlog (bitsAt c.lbndlog 26 10) off true }
    let s := failLine s (shareLine core off) true
    .next (if nospare then s.now (.quarantine core 4#3) else s)

/-- An access meets an error in a memory line (R466, R471): in the Loft a single-bit error is corrected and logged, a
double-bit error is logged and the access refused with MEMERR; so is an access that a Silo error meets. -/
def lineError (s : State) (line : Nat) (double : Bool) : State :=
  let s := match lineShare line with
    | some (core, off) =>
      let c := s.core core
      s.setCore core { c with larrlog := arrayLog c.larrlog off double }
    | none => s
  if double then failLine s line false else s

/-- A further lane of the beat last retried differed (R467): it is charged too. -/
def laneCharge (s : State) (core lane : Nat) : State :=
  let c := s.core core
  let log := bitsAt c.lbndlog 36 28 * 2 ^ 36 + lane % 2 ^ 10 * 2 ^ 26 + bitsAt c.lbndlog 0 26
  s.setCore core (swapLane { c with charges := charged c lane s.time, lbndlog := BitVec.ofNat 64 log } lane)

/-- An uncorrectable error in a message entry of an inbox (R470): the entry returns to its sender as stale (R332). On a compute core
it lies in the buffer pool (R360), in a block that the model leaves free, and the block retires. -/
def inboxError (s : State) (core cls n : Nat) : State :=
  let c := s.core core
  match (inboxOf c cls)[n]? with
  | none => s
  | some m =>
    let s := (s.setCore core (setInbox c cls ((inboxOf c cls).eraseIdx n))).later (.staleResponse m)
    if isSystem core then s else s.tick.later (.poolBlockRetire core (Config.choice s.nonce % 64))

/-- The corrected errors of the last millisecond, with one more, and whether the block has had four (R470). -/
def errorsWith (l : List (Nat × Word)) (block : Nat) (now : Word) : List (Nat × Word) × Bool :=
  let l := (l.filter fun x => decide ((now - x.2).toNat < 1000000)) ++ [(block, now)]
  (l, decide (4 ≤ (l.filter fun x => x.1 == block).length))

/-- An error in a block of a core's buffer pool (R470): four corrected ones within a millisecond, or an uncorrectable one,
retire it; an uncorrectable one that is not in a message entry quarantines the core with cause BUFFER. -/
def poolError (s : State) (core block : Nat) (double : Bool) : State :=
  let c := s.core core
  let e := errorsWith c.poolErrors block s.time
  let s := if double then s else s.setCore core { c with poolErrors := e.1 }
  let s := if double || e.2 then s.later (.poolBlockRetire core block) else s
  if double then s.now (.quarantine core 3#3) else s

/-- An error in a block of a port's permit pool, by the same test. -/
def permitError (s : State) (die port block : Nat) (double : Bool) : State :=
  let x := s.port die port
  let e := errorsWith x.errors block s.time
  let s := if double then s else s.setPort die port { x with errors := e.1 }
  if double || e.2 then s.later (.permitBlockRetire die port) else s

/-! The shared clock (R26). -/

/-- CLOCK_SYNC_MESSAGE (R26): the rate correction stays within the bound of the rule. -/
def execClockSyncMessage (ppm : Int) (s : State) : Out :=
  .next { s with ppm := max (-100) (min 100 ppm) }

/-- A step of the count (R26): only before the first context is loaded, and never backwards. A calibration block in progress
ends with no figures (R278). -/
def clockStep (s : State) (t : Word) : State :=
  if s.loadedOnce ∨ t < s.time then s
  else (upTo 4).foldl endBlock { s with time := t }

end Sys2Proof.Machine
end

