-- ==== Sys2Proof/Machine/Partition.lean ====
section
/-! DEFINITION. Partitions and virtual functions (23 R472 to R480): PNSEL and PNODE, VFSEL, VFCFG, VFGOFF, VFGFRZ and
VFGPT, pause and resume, guest time. -/

namespace Sys2Proof.Machine

/-! The buddy trees (R472, R473). -/

/-- log2 of a tree's largest node. -/
def treeLevels : Nat → Nat
  | 0 => 4 | 1 => 3 | _ => 5

/-- The fields of PNSEL: die, and the node as one that vf would hold. -/
def selDie (w : Word) : Nat := bitsAt w 12 2
def selNode (w : Word) (vf : Nat) : Node := ⟨bitsAt w 10 2, bitsAt w 7 3, bitsAt w 0 5, vf⟩

/-- A selection that PNSEL accepts. -/
def selOk (w : Word) : Bool :=
  let n := selNode w 0
  decide (n.tree < 3) && decide (n.level ≤ treeLevels n.tree) && decide (n.index < 2 ^ (treeLevels n.tree - n.level))

/-- The writable bits of PNSEL. -/
def selMask : Word := 0x3F9F#64

def sameNode (a b : Node) : Bool := a.tree == b.tree && a.level == b.level && a.index == b.index

/-- Node a lies strictly above node b. -/
def nodeAbove (a b : Node) : Bool :=
  a.tree == b.tree && decide (b.level < a.level) && b.index / 2 ^ (a.level - b.level) == a.index

def parentOf (n : Node) : Node := { n with level := n.level + 1, index := n.index / 2 }
def siblingOf (n : Node) : Node := { n with index := Nat.xor n.index 1 }
def childOf (n : Node) (j : Nat) : Node := { n with level := n.level - 1, index := 2 * n.index + j }

/-- The virtual function to which a node is ASSIGNED. -/
def nodeOwner (nodes : List Node) (n : Node) : Option Nat := (findFirst (sameNode n) nodes).map Node.vf

/-- STATE of a node (R473): 0 FREE, 1 ASSIGNED, 2 SPLIT, 3 COVERED. -/
def nodeState (nodes : List Node) (n : Node) : Nat :=
  if (nodeOwner nodes n).isSome then 1
  else if nodes.any (nodeAbove n) then 2
  else if nodes.any (nodeAbove · n) then 3
  else 0

/-- A node is idle (R473). -/
def nodeIdle (s : State) (die : Nat) (n : Node) : Bool :=
  let first := (nodeQuads n).1
  (nodeCores die (first, n.level)).all (fun c => (s.core c).residence == .free) &&
    (s.die die).pool.all fun x => !x.2.holds || x.2.node.all fun y => !nodesMeet y (first, n.level)

def pnodeWord (s : State) : Word :=
  let n := selNode s.pnsel 0
  let nodes := (s.die (selDie s.pnsel)).nodes
  let vf := (nodeOwner nodes n).getD 0
  BitVec.ofNat 64 ((if nodeState nodes n = 1 then 2 ^ 63 else 0) + nodeState nodes n * 2 ^ 61 + vf)

/-- The nodes after an assigning write for virtual function vf, by the first matching row of R474. -/
def nodesAssigned (s : State) (vf : Nat) : Option (List Node) :=
  let die := selDie s.pnsel
  let n := selNode s.pnsel vf
  let nodes := (s.die die).nodes
  let without := fun (x : Node) (l : List Node) => l.filter fun y => !sameNode x y
  match nodeState nodes n with
  | 0 => some (nodes ++ [n])
  | 3 => match nodeOwner nodes (parentOf n) with
    | some u =>
      if n.level < treeLevels n.tree && nodeIdle s die n then
        some (without (parentOf n) nodes ++ [n, { siblingOf n with vf := u }])
      else none
    | none => none
  | 2 =>
    let a := childOf n 0
    let b := childOf n 1
    if (nodeOwner nodes a).isSome && (nodeOwner nodes b).isSome && nodeIdle s die a && nodeIdle s die b then
      some (without a (without b nodes) ++ [n])
    else none
  | _ => if nodeIdle s die n then some (without n nodes ++ [n]) else none

/-- The nodes after a releasing write. -/
def nodesReleased (s : State) : Option (List Node) :=
  let die := selDie s.pnsel
  let n := selNode s.pnsel 0
  let nodes := (s.die die).nodes
  if nodeState nodes n = 1 ∧ nodeIdle s die n then some (nodes.filter fun y => !sameNode n y) else none

/-- A write to PNODE (R474): none when it raises ILLEGAL with cause FIELD. -/
def pnodeWrite (s : State) (v : Word) : Option (List Node) :=
  if v.getLsbD 63 then (if (vfAt s (bitsAt v 0 5)).valid then nodesAssigned s (bitsAt v 0 5) else none)
  else nodesReleased s

/-- The write's step at the die. -/
def writePnode (s : State) (v : Word) : State :=
  match pnodeWrite s v with
  | some nodes => s.setDie (selDie s.pnsel) { s.die (selDie s.pnsel) with nodes := nodes }
  | none => s

/-- PNODE_ASSIGN (R474). -/
def execPnodeAssign (v : Word) (s : State) : Out := .next (writePnode s (v ||| 0x8000000000000000#64))

/-- PNODE_RELEASE (R474). -/
def execPnodeRelease (v : Word) (s : State) : Out := .next (writePnode s (v &&& 0x7FFFFFFFFFFFFFFF#64))

/-! Virtual functions (R475, R478). -/

def State.setVf (s : State) (v : Nat) (x : Vf) : State := { s with vfs := tabSet s.vfs v x }

/-- PAUSED := 1 at this edge. -/
def pauseVf (s : State) (v : Nat) : State :=
  let x := vfAt s v
  if x.paused then s else s.setVf v { x with paused := true, gfrz := s.time - x.goff, edge := s.time }

/-- VF_PAUSE (R478). -/
def execVfPause (vf : Nat) (s : State) : Out := .next (pauseVf s vf)

/-- PAUSED := 0 at this edge. -/
def resumeVf (s : State) (v : Nat) : State :=
  let x := vfAt s v
  if x.paused then
    s.setVf v { x with paused := false, imported := false, goff := s.time - x.gfrz, gpt := x.gpt + (s.time - x.edge) }
  else s

/-- VF_RESUME (R478). -/
def execVfResume (vf : Nat) (s : State) : Out := .next (resumeVf s vf)

def vfcfgWord (x : Vf) : Word :=
  BitVec.ofNat 64 ((if x.valid then 2 ^ 63 else 0) + (if x.paused then 2 ^ 62 else 0) + x.acnt.toNat * 2 ^ 32 +
    x.abase.toNat * 2 ^ 16)

/-- The ASID ranges of a length from a base overlap. -/
def rangesMeet (a m b n : Nat) : Bool := decide (0 < m) && decide (0 < n) && decide (a < b + n) && decide (b < a + m)

/-- A write that VFCFG refuses (R475). -/
def vfcfgRefused (s : State) (v : Nat) (w : Word) : Bool :=
  let valid := w.getLsbD 63
  let n := bitsAt w 32 16
  let base := bitsAt w 16 16
  (valid && (n == 0 || base == 0)) || decide (65536 < base + n) ||
    ((upTo 32).any fun u => u != v && (vfAt s u).valid &&
      rangesMeet base n (vfAt s u).abase.toNat (vfAt s u).acnt.toNat) ||
    ((vfAt s v).valid && !valid && (upTo 4).any fun d => (s.die d).nodes.any fun x => x.vf == v)

/-- A write that it takes: PAUSED acts by R478, and VALID set together with PAUSED starts an import. -/
def writeVfcfg (s : State) (v : Nat) (w : Word) : State :=
  let x := vfAt s v
  let s := if w.getLsbD 62 then pauseVf s v else resumeVf s v
  let y := vfAt s v
  let y := { y with valid := w.getLsbD 63, acnt := w.extractLsb' 32 16, abase := w.extractLsb' 16 16 }
  s.setVf v (if !x.valid && y.valid && y.paused then { y with edge := s.time, imported := true } else y)

/-- A write of VFGFRZ that is refused (R478). -/
def gfrzRefused (x : Vf) (v : Word) : Bool := !x.paused || (x.valid && !x.imported && v.ult x.gfrz)

/-! Guest time (R480). -/

/-- The virtual function for which a thread reads GTIME and GPAUSE. -/
def guestOf (s : State) (t : Thread) : Option Nat :=
  match t.view with
  | .guest v => some v
  | _ => vfOfAsid s t.asid

def gtimeWord (s : State) (t : Thread) : Word :=
  match guestOf s t with
  | none => s.time
  | some v => let x := vfAt s v; if x.paused then x.gfrz else s.time - x.goff

def gpauseWord (s : State) (t : Thread) : Word :=
  match guestOf s t with
  | none => 0#64
  | some v => let x := vfAt s v; if x.paused then x.gpt + (s.time - x.edge) else x.gpt

end Sys2Proof.Machine
end

