-- ==== Sys2Proof/Machine/Boot.lean ====
section
/-! DEFINITION. Module, boot and host (24 R482 to R491): the ROM, BOOTSTAT, the SPDM responder, doorbells, the Barn's
interrupt sources, power events, function-level reset. -/

namespace Sys2Proof.Machine

/-! The boot flash and the ROM (R485 to R487). -/

/-- The n bytes of the flash from an offset on. -/
def flashBytes (m : List Host.Cell) (off : Nat) : Nat → List Byte
  | 0 => []
  | n + 1 => readByte m off :: flashBytes m (off + 1) n

def slotBase (b : Bool) : Nat := if b then 0x8000000 else 0

/-- The fields of the header at an offset. -/
def imageMagic (m : List Host.Cell) (o : Nat) : Nat := readBytes m o 4
def imageSvn (m : List Host.Cell) (o : Nat) : Nat := readBytes m (o + 4) 4
def imageSize (m : List Host.Cell) (o : Nat) : Nat := readBytes m (o + 8) 8
def imageEntry (m : List Host.Cell) (o : Nat) : Nat := readBytes m (o + 0x10) 8
def imageKey (m : List Host.Cell) (o : Nat) : List Byte := flashBytes m (o + 0x18) 97
def imageSig (m : List Host.Cell) (o : Nat) : List Byte := flashBytes m (o + 0x80) 128
def imageBody (m : List Host.Cell) (o : Nat) : List Byte := flashBytes m (o + 0x100) (imageSize m o)

/-- The code of the ROM's check of the slot at an offset (R486, R487): 0 passed, 1 MAGIC, 2 SVN, 3 KEY, 4 SIGNATURE,
5 READ (a SIZE that no body has, log 7, DESIGN CHOICE). -/
def slotCode (m : List Host.Cell) (o : Nat) : Nat :=
  if imageMagic m o ≠ 0x39465442 then 1
  else if imageSvn m o < Config.fusedMinSvn.toNat then 2
  else if imageSize m o = 0 ∨ 0x7FFFF00 < imageSize m o then 5
  else
    let key := imageKey m o
    let sig := imageSig m o
    if Config.sha384 key ≠ Config.fusedKeyHash ∨ (sig.drop 8).take 8 ≠ (hashOf key).take 8 then 3
    else if !Config.ecdsaVerify key (flashBytes m o 128 ++ imageBody m o) sig then 4
    else 0

/-- The slot that runs (R486): none when neither passes; and BOOTSTAT (R487). CODEB stays 0 when slot B is not
tried. -/
def bootChoice (m : List Host.Cell) : Option Bool × Word :=
  let a := slotCode m (slotBase false)
  if a = 0 then (some false, BitVec.ofNat 64 (imageSvn m 0 % 64 * 2 ^ 10))
  else
    let b := slotCode m (slotBase true)
    if b = 0 then (some true, BitVec.ofNat 64 (imageSvn m (slotBase true) % 64 * 2 ^ 10 + 2 ^ 8 + a))
    else (none, BitVec.ofNat 64 (3 * 2 ^ 8 + b * 2 ^ 4 + a))

/-- The ROM's mapping of Silo channel 0 for the system context (log 8, DEDUCED): virtual address 0, 16 GiB, read, write and
execute. -/
def bootEntry : TlbEntry where
  asid := 0#16
  base := 0#64
  level := 5
  leaf := 0x0800000000000073#64
  leafCell := 0

/-- The module with every core held in reset and nothing kept but the flash and the model's counter. -/
def powerReset (s : State) : State := { State.reset with flash := s.flash, nonce := s.nonce }

/-- System core 0 starts at pc in the hypervisor view, with the ROM's mapping. -/
def startImage (s : State) (pc : Word) : State :=
  let s := { s with entry := pc, cur := 8192, romMap := true }
  let s := s.setCore 1024 { Core.reset with heldInReset := false, tlb := [bootEntry] }
  s.setThr 8192 { Thread.empty with sstate := .run, view := .hypervisor, xview := .hypervisor, pc := pc }

/-- The thread of the system context on a core: slot 7 of a compute core, the thread of a system core. -/
def systemKey (core : Nat) : Nat := if isSystem core then 8 * core else 8 * core + 7

/-- The running image releases a core (R486), which has the ROM's mapping while that stands, and its system context starts at pc in the privileged view (R286); the manual names
no register for that (log 27, DEDUCED). -/
def coreRelease (s : State) (core : Nat) (pc : Word) : State :=
  let c := s.core core
  let k := systemKey core
  if !(isCompute core || (isSystem core && decide (core < 1040))) ∨ (s.core 1024).heldInReset ∨ c.health ≠ .good ∨
      (!c.heldInReset ∧ (s.thr k).sstate ≠ .empty) then s
  else (s.setCore core { c with
    heldInReset := false, tlb := if s.romMap && !c.tlb.contains bootEntry then c.tlb ++ [bootEntry] else c.tlb }).setThr k { Thread.empty with
    gen := (s.thr k).gen, sstate := .run, view := .hypervisor, xview := .hypervisor, pc := pc }

/-- POWER_ON_RESET (R486): the ROM checks the slots, copies the body of the first that passes and starts it. -/
def execPowerOnReset (s : State) : Out :=
  let s := { powerReset s with due := [] }
  match bootChoice s.flash with
  | (none, v) => .next { s with bootstat := v, cur := noThread }
  | (some b, v) =>
    let o := slotBase b
    let body := imageBody s.flash o
    let s := { s with
      bootstat := v, mem := writeList s.mem (physCell true 0) body
      imageHash := Config.sha384 (flashBytes s.flash o 256 ++ body) }
    .next (startImage s (BitVec.ofNat 64 (imageEntry s.flash o)))

/-! Attestation (R488). The messages stand for their content; the encoding of SPDM is that standard's. -/

/-- The measurements, index 1 to 4. -/
def measurements (s : State) : List Byte :=
  hashOf Config.romImage ++ hashBytes s.imageHash ++
    (upTo 8).map (fun i => s.bootstat.extractLsb' (8 * i) 8) ++ [Config.fusedMinSvn.setWidth 8] ++
    hashOf (s.keyTables.flatMap fun x => x.2.flatten)

/-- An answer that needs the negotiation done; an unnegotiated request gets none. -/
def spdmAnswer (s : State) (a : List Byte) : Out :=
  .next { s with spdm := { s.spdm with answer := if s.spdm.algorithms then a else [] } }

/-- GET_VERSION: version 1.2, and the connection begins anew. -/
def execGetVersion (s : State) : Out :=
  .next { s with spdm := { version := true, capabilities := false, algorithms := false, answer := [0x12#8] } }

/-- GET_CAPABILITIES: answered once the version is known, by the response code alone (log 40, PRESUMED). -/
def execGetCapabilities (s : State) : Out :=
  .next { s with spdm := { s.spdm with
    capabilities := s.spdm.version, answer := if s.spdm.version then [0x61#8] else [] } }

/-- The one algorithm set, ECDSA on P-384 with SHA-384, as the response code and the selection bits of the SPDM standard (log 40,
PRESUMED). -/
def algorithmSet : List Byte := [0x63#8, 0x80#8, 0x02#8]

/-- NEGOTIATE_ALGORITHMS: the one set is offered. -/
def execNegotiateAlgorithms (s : State) : Out :=
  .next { s with spdm := { s.spdm with
    algorithms := s.spdm.capabilities, answer := if s.spdm.capabilities then algorithmSet else [] } }

/-- GET_DIGESTS: of the certificate chain. -/
def execGetDigests (s : State) : Out := spdmAnswer s (hashOf Config.deviceCert)

/-- GET_CERTIFICATE. -/
def execGetCertificate (s : State) : Out := spdmAnswer s Config.deviceCert

/-- CHALLENGE: the device key signs the nonce and the measurements. -/
def execChallenge (nonce : BitVec 256) (s : State) : Out :=
  spdmAnswer s (Config.deviceSign ((upTo 32).map (fun i => nonce.extractLsb' (8 * i) 8) ++ measurements s))

/-- GET_MEASUREMENTS. -/
def execGetMeasurements (s : State) : Out := spdmAnswer s (measurements s)

/-! Doorbells (R489). -/

def State.hdbOf (s : State) (f : Nat) : Word := tabGet 0#64 s.hdb f

/-- Neither slot of the flash has passed (R486, R487): only the physical function enumerates. -/
def recovering (s : State) : Bool := bitsAt s.bootstat 8 2 == 3

/-- HOST_DOORBELL_WRITE: the host writes BAR0 offset 0 of function f; in recovery there is no virtual one (R486). -/
def execHostDoorbellWrite (f : Nat) (v : Word) (s : State) : Out :=
  if f ≤ 32 ∧ (f = 0 ∨ !recovering s) then .next { s with hdb := tabSet s.hdb f (s.hdbOf f ||| v) } else .next s

/-- A read of HDB returns the value and clears it. -/
def readHdb (s : State) (f : Nat) : Word × State := (s.hdbOf f, { s with hdb := tabSet s.hdb f 0#64 })

/-- HDB_READ. -/
def execHdbRead (key : Nat) (d : Reg) (f : Nat) (s : State) : Out :=
  .next (writeReg (readHdb s f).2 key d (readHdb s f).1)

/-! Interrupt sources (R490). -/

def sourcePending (s : State) (n : Nat) : Bool :=
  match n with
  | 4 => (s.cores.any fun c => c.2.qovc) || s.dies.any fun d => d.2.ports.any fun p => p.2.ovc
  | 5 => s.dies.any fun d => d.2.qip || d.2.qunread
  | 6 => s.hdb.any fun x => x.2 != 0#64
  | 7 => s.flr != []
  | 8 => s.power
  | n => decide (n < 4) && (s.die n).faults.any fun e => !e.taken

/-- IRQROUTE of a source. -/
def State.route (s : State) (n : Nat) : Word := s.irqroute.getD n 0#64

/-- The sources pending at a system core. -/
def pendingAt (s : State) (core : Nat) : List Nat :=
  (upTo 16).filter fun n => sourcePending s n && 1024 + bitsAt (s.route n) 0 4 == core

/-- IRQPEND. -/
def irqpendWord (s : State) (core : Nat) : Word :=
  BitVec.ofNat 64 ((pendingAt s core).map fun n => 2 ^ n).sum

/-- The source for which a system core enters: the lowest pending and enabled one. -/
def barnSource (s : State) (core : Nat) : Option Nat := findFirst (fun n => (s.route n).getLsbD 63) (pendingAt s core)

/-- BARN_INTERRUPT_ENTRY (R490). -/
def execBarnInterruptEntry (core : Nat) (s : State) : Out :=
  match barnSource s core with
  | some n =>
    if (s.thr (8 * core)).xin then .next s
    else .next (enterHandler (s.setThr (8 * core) { s.thr (8 * core) with sleep := none }) (8 * core)
      (s.thr (8 * core)).pc (causeWord true kindNOTIFY n) 0#64)
  | none => .next s

/-- POWER_OVERCURRENT (R483): source POWER, until a 1 ms window passes within the limits. -/
def execPowerOvercurrent (s : State) : Out := .next { s with power := true, powerSeen := true }

/-- POWER_TRIP (R483): the module takes a power-on reset. -/
def execPowerTrip (s : State) : Out := .next (powerReset s)

/-- The end of a 1 ms window. -/
def powerWindow (s : State) : State := { s with power := s.power && s.powerSeen, powerSeen := false }

/-! Function-level reset (R491). -/

/-- The groups in use of a virtual function's contexts. -/
def vfGroups (s : State) (v : Nat) : List (BitVec 16) :=
  s.dies.flatMap fun (d : Nat × Die) => (d.2.groups.filter fun g =>
    g.2.state != .free && vfHolds (vfAt s v) g.2.asid).map fun g => groupNumber d.1 g.1 g.2.gen

/-- Those that a kill changes (R339): one that is DRAINING is not killed again. -/
def vfActive (s : State) (v : Nat) : List (BitVec 16) := (vfGroups s v).filter fun g => (s.group g).state == .active

/-- The cores whose residence is one of the virtual function's. -/
def vfCores (s : State) (v : Nat) : List Nat :=
  (s.cores.filter fun c => c.2.residence != .free && vfHolds (vfAt s v) c.2.ctxAsid).map (·.1)

/-- A residence can be torn down: it runs nothing, or its save or load stands stopped. -/
def tornReady (s : State) (core : Nat) : Bool :=
  (s.core core).residence == .loaded || (s.core core).stopped

/-- One core's residence and the saved ones that its DIVERT entries name are gone. -/
def tearResidence (v : Nat) (s : State) (core : Nat) : State :=
  let mine := vfHolds (vfAt s v)
  let keys := ((upTo 7).map (8 * core + ·)).filter fun k => (s.thr k).lives && mine (s.thr k).asid
  let s := keys.foldl endThread s
  let c := s.core core
  s.setCore core { c with
    residence := if mine c.ctxAsid then .free else c.residence
    stopped := c.stopped && !mine c.ctxAsid, guestStop := if mine c.ctxAsid then none else c.guestStop
    diverts := c.diverts.map fun d => if d.valid && mine d.asid then { d with valid := false } else d }

/-- A group's threads that are saved with a torn residence are gone with it; what it will take at its next edge counts. -/
def loseSaved (s : State) (g : BitVec 16) : State :=
  (upTo ((s.group g).live - (s.group g).acts.length)).foldl (fun s _ => memberEnds s g .exit) s

/-- Step 3 and 4, and the end of the reset. -/
def finishReset (s : State) (v : Nat) : State :=
  let groups := vfGroups s v
  let s := (s.cores.map (·.1)).foldl (tearResidence v) s
  let s := groups.foldl loseSaved s
  let s := (upTo 4).foldl (fun s d =>
    let asids := ((s.die d).pool.filter fun x => x.2.used && vfHolds (vfAt s v) x.2.asid).map fun x => x.2.asid
    asids.foldl (fun s a => tearDownRecords s d a) s) s
  { s with
    heldKills := s.heldKills.filter fun x => !vfHolds (vfAt s v) x.1
    hdb := tabSet s.hdb (1 + v) 0#64, flr := s.flr.filter (· != v) }

/-- FUNCTION_LEVEL_RESET (R491): the pause and the kills at once; the rest when the residences have come to rest. A
second request is absorbed into the reset under way; in recovery there is no such function (R486). -/
def execFunctionLevelReset (vf : Nat) (s : State) : Out :=
  if 32 ≤ vf ∨ recovering s then .next s
  else
    let s := if s.flr.contains vf then s
      else (vfActive s vf).foldl killGroup (pauseVf { s with flr := s.flr ++ [vf] } vf)
    if (vfCores s vf).all (tornReady s) then .next (finishReset s vf)
    else if s.work.contains (.functionLevelReset vf) then .next s
    else .next (s.later (.functionLevelReset vf))

end Sys2Proof.Machine
end

