-- ==== Sys2Proof/Machine/Rep.lean ====
section
/-! DEFINITION. Engine registers (08 R195) and the repetition buffer (09 R221, R222). -/

namespace Sys2Proof.Machine

/-- Engine register n of thread k's bank of an engine (R195, R224, R242, R451). -/
def writeEngine (s : State) (k : Nat) (eng : BitVec 3) (n : Nat) (v : Word) : State :=
  let t := s.thr k
  match eng.toNat with
  | 1 => s.setThr k { t with copyRegs := t.copyRegs.setIfInBounds n v }
  | 2 => s.setThr k { t with matRegs := t.matRegs.setIfInBounds n v }
  | 4 => s.setThr k { t with linkRegs := t.linkRegs.setIfInBounds n v }
  | _ => s

/-- R195 ewr: on a system core it raises ILLEGAL with cause FIELD. -/
def execEwr (a : Reg) (eng : BitVec 3) (sr : BitVec 9) (s : State) : Out :=
  if isSystem (coreOf s.cur) then .next (illegalTrap s s.cur causeFIELD (encode (.ewr a eng sr)))
  else issue (.ewr a eng sr) s fun s => finish (writeEngine s s.cur eng sr.toNat (readReg s s.cur a))

/-! Capture (R221). -/

/-- The words that rep may capture: a command of eng 0 to 3, vfence included, or an ewr that names eng 0 to 3. -/
def captures (w : IWord) : Bool :=
  ((opOf w).toNat == 0x60 && decide ((engOf w).toNat ≤ 3)) ||
    ((opOf w).toNat == 0x6A && decide ((sregOf w).toNat / 512 ≤ 3))

/-- The cause that a captured word gives the rep, if any. -/
def captureCause (s : State) (k : Nat) (w : IWord) : Option Nat :=
  match decode w with
  | none => some (illegalCause w s k)
  | some i => match issueCause i s k with
    | some c => some c
    | none => if captures w then none else some causeFIELD

/-- A captured word takes a counter value: a vop, or mdrain (R200, R243). -/
def isCounted (w : IWord) : Bool :=
  (opOf w).toNat == 0x60 && (((engOf w).toNat == 0 && cmdOf w != 0xF0#8) || ((engOf w).toNat == 2 && cmdOf w == 0x09#8))

def countedIn (ws : List IWord) : Nat := (ws.filter isCounted).length

/-- Where one step of the capture leads: the words, or what the fetch of one of them meets: a fetch trap, a page fault or a walk, which
comes before a cause in any other captured word (log 39, DESIGN CHOICE: R221 names no outcome). -/
def captureWords (s : State) (k : Nat) (pc : Word) : Nat → Except (Word × Reach) (List IWord)
  | 0 => .ok []
  | n + 1 => match fetchReach s k pc with
    | .at p => (captureWords s k (pc + 4#64) n).map (fetchWord s p.cell :: ·)
    | r => .error (pc, r)

/-- The thread's sequence is still reissuing (R222). -/
def repRuns (s : State) (k : Nat) : Bool := (s.core (coreOf k)).reps.any fun r => r.key == k

/-- The sequence of captured words begins, and the thread goes on behind them. -/
def startRep (s : State) (a b : Word) (ws : List IWord) : State :=
  let k := s.cur
  let t := s.thr k
  let count := bitsAt a 0 16
  let r : RepSeq :=
    { id := s.nonce, key := k, words := ws, p := t.p, q := t.q, count := count, stagger := bitsAt b 0 4, base := t.seq,
      seed := (s.core (coreOf k)).rseed, fork := forkOf s k, k := 0, j := 0, fence := none }
  let s := s.setThr k { t with seq := t.seq + BitVec.ofNat 32 (count * countedIn ws) }
  let c := s.core (coreOf k)
  let s := if count = 0 then s else (s.setCore (coreOf k) { c with reps := c.reps ++ [r] }).tick.later (.repReissue k)
  retireTo s k (t.pc + BitVec.ofNat 64 (4 + 4 * ws.length)) []

/-- R221 rep. -/
def execRep (a b : Reg) (len : BitVec 4) (s : State) : Out :=
  issue (.rep a b len) s fun s =>
    let k := s.cur
    if repRuns s k then forfeit s
    else match captureWords s k ((s.thr k).pc + 4#64) (len.toNat + 1) with
      | .error (va, r) => withReach s kindFETCH va r fun _ => forfeit s
      | .ok ws => match ws.findSome? (captureCause s k) with
        | some c => .next (illegalTrap s k c (encode (.rep a b len)))
        | none => .next (startRep s (readReg s k a) (readReg s k b) ws)

/-! Reissue (R221, R222). -/

/-- A register field of the k-th round: shared registers step by the stagger. -/
def staggered (r : RepSeq) (c : Reg) : Reg :=
  if c.toNat < 16 then c else BitVec.ofNat 5 (16 + (c.toNat - 16 + r.k * r.stagger) % 16)

/-- The operand of a register field: codes 0 to 11 from the snapshot, shared registers now. -/
def repOperand (s : State) (r : RepSeq) (c : Reg) : Word :=
  if h : c.toNat < 10 then r.p[c.toNat]
  else if c.toNat = 11 then r.q
  else if c.toNat < 16 then 0#64
  else readReg s r.key (staggered r c)

/-- The counter value of the word at the sequence's position. -/
def repCounter (r : RepSeq) : BitVec 32 :=
  r.base + BitVec.ofNat 32 (r.k * countedIn r.words + countedIn (r.words.take r.j))

/-- The operation a Meadow command of a word asks for. -/
def meadowOpOf (cmd : Nat) : MeadowOp :=
  match cmd with
  | 1 => .cfg | 2 => .coef | 3 => .scale | 4 => .run | 5 => .hold | _ => .reset

/-- The engine command that a captured word is, with its operands. -/
def repCommand (s : State) (r : RepSeq) (w : IWord) : CmdResult :=
  let k := r.key
  let a := repOperand s r (dOf w)
  let b := repOperand s r (aOf w)
  let cmd := (cmdOf w).toNat
  match (engOf w).toNat with
  | 0 => vectorCommand s k cmd a b (repCounter r) none r.fork r.seed
  | 1 => if cmd = 3 then copyCancel s k a b else copyCommand s k cmd a b r.fork
  | 2 => matrixCommand s k cmd a b (repCounter r) r.fork r.seed
  | _ => match meadowIssue s k (meadowOpOf cmd) a b true with
    | .send q => .taken (s.later (.meadowApply q))
    | .saturated p => .trap kindMEADOW p 0#64
    | .operand => .trap kindADDRESS 0 a

/-- A captured vfence is met: no older vector operation of the thread remains. -/
def repFenceMet (s : State) (r : RepSeq) (n : Nat) : Bool :=
  (s.core (coreOf r.key)).vecQueue.all fun o => o.key != r.key || decide (n ≤ o.id)

def setRep (s : State) (r : RepSeq) : State :=
  let c := s.core (coreOf r.key)
  s.setCore (coreOf r.key) { c with reps := c.reps.map fun x => if x.id = r.id then r else x }

/-- The sequence moves past the word: to the next one, to the next round, or to its end. -/
def repAdvance (s : State) (r : RepSeq) : State :=
  let last := decide (r.words.length ≤ r.j + 1)
  if last && decide (r.count ≤ r.k + 1) then
    let c := s.core (coreOf r.key)
    s.setCore (coreOf r.key) { c with reps := c.reps.filter fun x => x.id != r.id }
  else (setRep s { r with k := if last then r.k + 1 else r.k, j := if last then 0 else r.j + 1, fence := none }).later
    (.repReissue r.key)

/-- The sequencer tries the same word again later. -/
def repWait (s : State) (r : RepSeq) : State := (setRep s r).later (.repReissue r.key)

/-- One word of the sequence. A command whose own operand check fails has no entry to trap at: it is dropped
(log 19, DESIGN CHOICE). -/
def repStep (s : State) (r : RepSeq) (w : IWord) : State :=
  if (opOf w).toNat = 0x6A then
    repAdvance (writeEngine s r.key (BitVec.ofNat 3 ((sregOf w).toNat / 512)) ((sregOf w).toNat % 512)
      (repOperand s r (aOf w))) r
  else if engOf w = 0#3 ∧ cmdOf w = 0xF0#8 then
    let n := r.fence.getD s.nonce
    if repFenceMet s r n then repAdvance s r else repWait s { r with fence := some n }
  else match repCommand s r w with
    | .taken s' => repAdvance s' r
    | .wait => repWait s r
    | .trap _ _ _ => repAdvance s r

/-- The sequence reissues nothing: its residence is pre-empted (R223), or its die is retired (R492). -/
def repHalts (s : State) (key : Nat) : Bool := opHalts s key || s.dieRetired (dieOf (coreOf key))

/-- An open acquire of the thread holds the word back (R494). -/
def repHeld (s : State) (key : Nat) (w : IWord) : Bool :=
  heldBack (s.thr key) && ((decode w).map memoryInstr).getD false

/-- REP_REISSUE (R221, R222). -/
def execRepReissue (key : Nat) (s : State) : Out :=
  match findFirst (fun r => r.key == key) (s.core (coreOf key)).reps with
  | none => .next s
  | some r => match r.words[r.j]? with
    | none => .next (s.setCore (coreOf key) { s.core (coreOf key) with
        reps := (s.core (coreOf key)).reps.filter fun x => x.id != r.id })
    | some w => .next (if repHalts s key || repHeld s key w then repWait s r else repStep s r w)

end Sys2Proof.Machine
end

