-- ==== Sys2Proof/Machine/Sysreg.lean ====
section
/-! DEFINITION. System registers (08 R185 to R195), the system call and the returns (R196 to R198), and the entries of
handlers (R181 to R184, R190, R191). -/

namespace Sys2Proof.Machine

/-! Which register a number names, and who may reach it (R185, R186). Of the per-core registers that R186 does not list,
CLUSLD exists only in compute cores, and a system core has CHKSTAT, LARRLOG, LBNDLOG and LSPARE of its own (log 36, DESIGN
CHOICE: R186 gives its list with "among them"). -/

/-- Access to a register: whether it exists only in compute cores, is kept to the hypervisor view, is readable and
writable in the user view, and in the privileged view. -/
structure RegAccess where
  compute : Bool
  hyper : Bool
  uread : Bool
  uwrite : Bool
  read : Bool
  write : Bool

def regBoth (w : Bool) : RegAccess := ⟨false, false, true, w, true, w⟩
def regPriv (r w : Bool) : RegAccess := ⟨false, false, false, false, r, w⟩
def regCompute (w : Bool) : RegAccess := ⟨true, false, false, false, true, w⟩
def regHyper (w : Bool) : RegAccess := ⟨false, true, false, false, true, w⟩

def within (lo hi n : Nat) : Bool := decide (lo ≤ n) && decide (n ≤ hi)

/-- The port and register of a link register number (R436, R442). -/
def linkPort (n : Nat) : Nat := (n - 0x200) / 8
def linkReg (n : Nat) : Nat := (n - 0x200) % 8

/-- Numbers below 0x0C0. -/
def regLow (n : Nat) : Option RegAccess :=
  if within 0x002 0x004 n then some (regBoth false)
  else if n = 0x008 then some (regCompute false)
  else if n = 0x00C then some ⟨true, false, true, false, true, false⟩
  else if n = 0x020 ∨ n = 0x023 ∨ n = 0x024 then some (regPriv true true)
  else if within 0x020 0x027 n then some (regPriv true false)
  else if n = 0x030 ∨ n = 0x031 then some (regBoth true)
  else if n = 0x032 then some (regBoth false)
  else if n = 0x04A then none
  else if n = 0x04D ∨ n = 0x04E then some (regPriv false false)
  else if within 0x040 0x04F n then some (regPriv false true)
  else if within 0x050 0x051 n then some (regCompute false)
  else if within 0x052 0x055 n || within 0x058 0x061 n then some (regCompute true)
  else if within 0x062 0x063 n then some (regCompute false)
  else if within 0x070 0x072 n || within 0x080 0x087 n then some (regCompute true)
  else if n = 0x090 ∨ n = 0x0A0 ∨ within 0x0A4 0x0A6 n then some (regPriv true true)
  else if within 0x0A1 0x0A3 n then some (regPriv true true)
  else if within 0x094 0x09B n then some (regPriv true false)
  else none

/-- Numbers from 0x0C0 on. -/
def regHigh (n : Nat) : Option RegAccess :=
  if within 0x0C0 0x0CF n then some (regCompute false)
  else if n = 0x0D0 ∨ n = 0x0D1 then some (regCompute true)
  else if n = 0x0E0 ∨ n = 0x0E1 ∨ n = 0x0E4 ∨ n = 0x0E5 ∨ n = 0x0E8 ∨ n = 0x0F0 ∨ n = 0x0F1 then some (regPriv true true)
  else if n = 0x0E6 ∨ n = 0x0E7 then some (regPriv true false)
  else if n = 0x0E2 ∨ n = 0x0E9 ∨ n = 0x0EA ∨ n = 0x0EC ∨ n = 0x0ED ∨ n = 0x0EE ∨ n = 0x0EF ∨ n = 0x0F2 then
    some (regHyper true)
  else if within 0x100 0x1FF n || n == 0x310 then some (regPriv true true)
  else if n == 0x318 || within 0x320 0x340 n then some (regPriv true false)
  else if within 0x200 0x25F n then
    let p := linkPort n
    let j := linkReg n
    if !portExists p || decide (6 ≤ j) || (j == 0 && decide (3 ≤ p)) then none
    else some (regPriv true true)
  else if within 0x300 0x30F n then some (regHyper true)
  else none

def regAccess (n : Nat) : Option RegAccess := if n < 0x0C0 then regLow n else regHigh n

/-- The registers whose fields are all RO and whose rules name no trap for a write: CTXST, MDIS0 to MDIS2, LARRLOG, LBNDLOG,
LSPARE, SPARE0, SPARE1, QRET, VFGOFF, JBUSY, the JENT words, IRQPEND, LPHELD and LAUDIT. A write has no effect (R4). -/
def writesNothing (n : Nat) : Bool :=
  n == 0x052 || within 0x070 0x072 n || within 0x0A1 0x0A5 n || n == 0x0D1 || n == 0x0EE || n == 0x0F0 ||
    within 0x100 0x1FF n || n == 0x310 ||
    (within 0x200 0x25F n && decide (4 ≤ linkReg n))

/-- The virtual function whose HDB a number names, for a thread: outside its own function there is none (R489). -/
def hdbFor (view : View) (n : Nat) : Option Nat :=
  match view with
  | .user => none
  | .hypervisor => if n = 0x320 then some 0 else none
  | .guest v => if n = 0x320 ∨ n = 0x321 + v then some (1 + v) else none

/-- An access to an HDB outside the thread's own function (R489). -/
def hdbForeign (view : View) (n : Nat) : Bool := within 0x320 0x340 n && (hdbFor view n).isNone

/-- The cause of R50 that an access to a register raises, if any: FIELD comes before PRIVILEGE, but at an HDB outside the
thread's own function any access is PRIVILEGE (R489); a sysw to the function's own HDB, which R489 grants nothing, is FIELD
(log 39, DESIGN CHOICE). write: sysw. -/
def regCause (t : Thread) (core n : Nat) (write : Bool) : Option Nat :=
  match regAccess n with
  | none => some causeFIELD
  | some r =>
    if hdbForeign t.view n then some causePRIVILEGE
    else if r.compute && isSystem core then some causeFIELD
    else if !(if write then r.write else r.read) then some causeFIELD
    else
      let ok := match t.view with
        | .user => if write then r.uwrite else r.uread
        | .guest _ => !r.hyper
        | .hypervisor => true
      if !ok then some causePRIVILEGE else none

/-! Values of registers. -/

/-- The thread whose trap and interrupt registers a privileged access reaches (R185). -/
def ownKey (k : Nat) : Nat := if isSystem (coreOf k) then k else 8 * coreOf k + 7

/-- The die whose copy a core reaches of a register with one copy per die: a system core reaches die 0's (log 20, DESIGN CHOICE). -/
def copyDie (core : Nat) : Nat := if isSystem core then 0 else dieOf core

/-- ORIENT (R19, R20). -/
def orientWord (die : Nat) : Word :=
  BitVec.ofNat 64 (16 * die * 2 ^ 8 + (match die with
    | 0 => 0 | 1 => 2 ^ 2 + 2 ^ 3 | 2 => 2 ^ 3 + 2 ^ 4 | _ => 2 ^ 2 + 2 ^ 4) + die)

/-- The silicon coordinates of a logical core: physical column and row (R21). -/
def siliconOf (s : State) (core : Nat) : Nat × Nat := (siliconCol s core, rowOf core)

/-- The position of a core in its die's tile in the package frame (R21), from SWAP, FLIPX and FLIPY. -/
def tilePosition (s : State) (core : Nat) : Nat × Nat :=
  let o := orientWord (dieOf core)
  let c := siliconOf s core
  let p := if o.getLsbD 2 then (c.2, c.1) else c
  let size := if o.getLsbD 2 then (14, 17) else (17, 14)
  (if o.getLsbD 3 then size.1 - 1 - p.1 else p.1, if o.getLsbD 4 then size.2 - 1 - p.2 else p.2)

/-- The physical MAC rows that the fuses leave, when n of them are disabled one after the other (R241). -/
def rowsLeft (core : Nat) : Nat → List Nat
  | 0 => upTo (matRows core + 8)
  | n + 1 =>
    let left := rowsLeft core n
    left.eraseIdx ((Config.mdis core n).toNat % left.length)

/-- MDIS0 to MDIS2 (R241): exactly 8 rows are disabled. -/
def mdisWord (core i : Nat) : Word :=
  let left := rowsLeft core 8
  BitVec.ofNat 64 (((upTo 64).filter fun k =>
    decide (64 * i + k < matRows core + 8) && !left.contains (64 * i + k)).map fun k => 2 ^ k).sum

/-- A bit map of the journal. -/
def journalMap (c : Core) (f : JournalEntry → Bool) : Word :=
  BitVec.ofNat 64 (((upTo 64).filter fun e => f (journalAt c e)).map fun e => 2 ^ e).sum

/-- Word j of journal entry x of a core (R161). -/
def jentWord (core : Nat) (x : JournalEntry) (j : Nat) : Word :=
  if !x.busy then 0#64
  else match j with
    | 0 => BitVec.ofNat 64 (2 ^ 63 + x.kind % 8 * 2 ^ 60 + x.cause.toNat * 2 ^ 56 + x.mode.toNat * 2 ^ 54 +
        x.size % 4 * 2 ^ 52 + x.ea.toNat % 2 ^ 52)
    | 1 => x.data
    | 2 => BitVec.ofNat 64 (x.eng.toNat * 2 ^ 24 + (nameWord (8 * core + x.slot) x.gen).toNat)
    | _ => x.time

/-- The DIVERT word (R287). -/
def divertWord (d : Divert) : Word :=
  BitVec.ofNat 64 ((if d.valid then 2 ^ 63 else 0) + d.asid.toNat * 2 ^ 47 + d.addr.toNat)

/-- ELEFT0 and ELEFT1 (R220). -/
def eleftWord (c : Core) (i : Nat) : Word :=
  BitVec.ofNat 64 (((upTo 4).map fun j => c.eleft.getD (4 * i + j) 0 % 2 ^ 16 * 2 ^ (16 * j)).sum)

/-- Registers 0x002 to 0x063. -/
def lowValue (s : State) (k n : Nat) : Word :=
  let t := s.thr k
  let core := coreOf k
  let c := s.core core
  let o := s.thr (ownKey k)
  match n with
  | 0x002 => s.time
  | 0x003 => gtimeWord s t
  | 0x004 => gpauseWord s t
  | 0x008 => orientWord (dieOf core)
  | 0x00C => clusldWord s core
  | 0x020 => o.xpc
  | 0x021 => o.xcause
  | 0x022 => o.xval
  | 0x023 => o.tvec
  | 0x024 => o.tsel.setWidth 64
  | 0x025 => c.tpend.setWidth 64
  | 0x026 => c.hevq.headD 0#64
  | 0x027 => BitVec.ofNat 64 ((if o.xdouble then 2 else 0) + (if o.xin then 1 else 0))
  | 0x030 => t.uvec
  | 0x031 => ustatWord t
  | 0x032 => t.upc
  | 0x050 => c.slottab
  | 0x051 => c.slotpend
  | 0x052 => ctxstWord s core
  | 0x053 => if c.quiet then 1#64 else 0#64
  | 0x054 => c.rseed
  | 0x055 => c.levctl.setWidth 64
  | 0x060 => c.eshare0
  | 0x061 => c.eshare1
  | 0x062 => eleftWord c 0
  | 0x063 => eleftWord c 1
  | n => divertWord (c.diverts.getD (n - 0x058) ⟨false, 0#16, 0#36⟩)

/-- Registers 0x070 to 0x0D1. -/
def midValue (s : State) (core n : Nat) : Word :=
  let c := s.core core
  let d := s.die (copyDie core)
  if n ≤ 0x072 then mdisWord core (n - 0x070)
  else if n ≤ 0x087 then mplotWord (s.plot (dieOf core) (n - 0x080))
  else if within 0x094 0x097 n then fqstatWord s (n - 0x094)
  else if within 0x098 0x09B n then fqseqWord s (n - 0x098)
  else if within 0x0C0 0x0CF n then qcfgOf c (n - 0x0C0)
  else match n with
    | 0x090 => s.asidtab
    | 0x0A0 => chkstatWord c
    | 0x0A1 => c.larrlog
    | 0x0A2 => c.lbndlog
    | 0x0A3 => c.lspare
    | 0x0A4 => spareWord d 0
    | 0x0A5 => spareWord d 1
    | 0x0A6 => chkdieWord d
    | 0x0D0 => qpoolWord c
    | _ => c.qret

/-- The virtual function that VFSEL selects. -/
def selVf (s : State) : Vf := vfAt s s.vfsel.toNat

def selBarrier (s : State) (k : Nat) : Barrier := s.barrier (barrierSelected (s.thr (ownKey k)).bsel)

/-- A link register of a port (R436, R442). -/
def linkValue (x : Port) (j : Nat) : Word :=
  match j with
  | 0 => ldirWord x | 1 => x.lpmin | 2 => x.lpcap | 3 => lpoolWord x | 4 => lpheldWord x | _ => lauditWord x

/-- Registers from 0x0E0 on. -/
def highValue (s : State) (k n : Nat) : Word :=
  let core := coreOf k
  let c := s.core core
  if within 0x100 0x1FF n then jentWord core (journalAt c ((n - 0x100) / 4)) ((n - 0x100) % 4)
  else if within 0x200 0x25F n then linkValue (s.port (copyDie core) (linkPort n)) (linkReg n)
  else if within 0x300 0x30F n then s.route (n - 0x300)
  else if within 0x320 0x340 n then s.hdbOf ((hdbFor (s.thr k).view n).getD 0)
  else match n with
    | 0x0E0 => s.diemap0
    | 0x0E1 => s.diemap1
    | 0x0E2 => s.dieret.setWidth 64
    | 0x0E4 => (s.thr (ownKey k)).bsel
    | 0x0E5 => BitVec.ofNat 64 ((if (selBarrier s k).valid then 2 ^ 63 else 0) + (selBarrier s k).asid.toNat)
    | 0x0E6 => barrierWord (selBarrier s k) false
    | 0x0E7 => BitVec.ofInt 64 (selBarrier s k).pend
    | 0x0E8 => (s.die (copyDie core)).dlcnt.setWidth 64
    | 0x0E9 => s.pnsel
    | 0x0EA => pnodeWord s
    | 0x0EC => s.vfsel.setWidth 64
    | 0x0ED => vfcfgWord (selVf s)
    | 0x0EE => (selVf s).goff
    | 0x0EF => (selVf s).gfrz
    | 0x0F0 => journalMap c JournalEntry.busy
    | 0x0F1 => journalMap c JournalEntry.ref
    | 0x0F2 => (selVf s).gpt
    | 0x310 => irqpendWord s core
    | _ => s.bootstat

/-- What sysr of a register returns to thread k. -/
def sysValue (s : State) (k n : Nat) : Word :=
  if n < 0x070 then lowValue s k n else if n < 0x0E0 then midValue s (coreOf k) n else highValue s k n

/-- A read of HEVQ removes the oldest entry (R189). -/
def dropHevq (s : State) (core : Nat) : State := s.setCore core { s.core core with hevq := (s.core core).hevq.tail }

/-- What a read changes: HEVQ, an HDB, and the mark of CHKDIE that its CAUSE is unread (R490). -/
def readEffect (s : State) (k n : Nat) : State :=
  if n = 0x026 then dropHevq s (coreOf k)
  else if n = 0x0A6 then
    let d := copyDie (coreOf k)
    s.setDie d { s.die d with qunread := false }
  else if within 0x320 0x340 n then (readHdb s ((hdbFor (s.thr k).view n).getD 0)).2
  else s

/-- HEVQ_READ (R189). -/
def execHevqRead (key : Nat) (d : Reg) (s : State) : Out :=
  .next (writeReg (dropHevq s (coreOf key)) key d ((s.core (coreOf key)).hevq.headD 0#64))

/-- R193 sysr. -/
def execSysr (d : Reg) (sr : BitVec 12) (s : State) : Out :=
  let k := s.cur
  match regCause (s.thr k) (coreOf k) sr.toNat false with
  | some c => .next (illegalTrap s k c (encode (.sysr d sr)))
  | none => issue (.sysr d sr) s fun s => finishWrite (readEffect s k sr.toNat) d (sysValue s k sr.toNat)

/-! Writes. -/

/-- What a sysw comes to: the state, ILLEGAL with cause FIELD, or a STATE trap with its DETAIL. -/
inductive SysWrite where
  | ok (s : State)
  | field
  | state (detail : Nat)

def okIf (b : Bool) (s : State) : SysWrite := if b then .ok s else .field

/-- SSTATE_WRITE (R188): value 0 resumes a TRAPPED slot at its EPC, 3 ends the thread as a member loss. -/
def sstateWrites (s : State) (key : Nat) (v : Nat) : Option State :=
  let t := s.thr key
  let core := coreOf key
  let c := s.core core
  match v, t.sstate with
  | 0, .trapped =>
    some ((s.setThr key { t with sstate := .run, pc := t.epc }).setCore core { c with
      tpend := c.tpend &&& ~~~(1#7 <<< slotOf key) })
  | 3, .trapped => some (loseThread (s.setCore core { c with tpend := c.tpend &&& ~~~(1#7 <<< slotOf key) }) key 2)
  | 3, .run => some (loseThread (s.setCore core { c with tpend := c.tpend &&& ~~~(1#7 <<< slotOf key) }) key 2)
  | _, _ => none

def execSstateWrite (key : Nat) (v : Word) (s : State) : Out := .next ((sstateWrites s key (bitsAt v 0 3)).getD s)

/-- A slot-state register of the slot that TSEL selects (R188). -/
def slotWrite (s : State) (k n : Nat) (v : Word) : SysWrite :=
  let core := coreOf k
  let sel := (s.thr (ownKey k)).tsel.toNat
  let key := 8 * core + sel
  let t := s.thr key
  if isSystem core then .state 4
  else if sel = 7 then .state 2
  else if n = 0x04F then
    if bitsAt v 0 3 ≠ 0 ∧ bitsAt v 0 3 ≠ 3 then .field
    else match sstateWrites s key (bitsAt v 0 3) with
      | some s' => .ok s'
      | none => .state 3
  else match t.sstate with
    | .trapped =>
      if n = 0x04B then .ok (s.setThr key { t with q := v })
      else if n = 0x04C then .ok (s.setThr key { t with epc := v })
      else .ok (s.setThr key { t with p := t.p.setIfInBounds (n - 0x040) v })
    | _ => .state 3

/-- What tsr returns of the selected slot (R188). -/
def slotValue (t : Thread) (n : Nat) : Word :=
  match n with
  | 0x04F => BitVec.ofNat 64 (sstateCode t.sstate)
  | 0x04C => if t.sstate = .empty then 0#64 else t.epc
  | 0x04D => if t.sstate = .empty then 0#64 else t.cause
  | 0x04E => if t.sstate = .empty then 0#64 else t.tval
  | n =>
    if t.sstate = .trapped ∨ t.sstate = .pagewait then
      (if n = 0x04B then t.q else t.p.getD (n - 0x040) 0#64)
    else 0#64

/-- R194 tsr. -/
def execTsr (d : Reg) (sr : BitVec 12) (s : State) : Out :=
  let k := s.cur
  let n := sr.toNat
  if !within 0x040 0x04F n || n == 0x04A then .next (illegalTrap s k causeFIELD (encode (.tsr d sr)))
  else issue (.tsr d sr) s fun s =>
    let sel := (s.thr (ownKey k)).tsel.toNat
    if isSystem (coreOf k) then finishTrap s kindSTATE 4 0#64
    else if sel = 7 then finishTrap s kindSTATE 2 0#64
    else finishWrite s d (slotValue (s.thr (8 * coreOf k + sel)) n)

/-- JREF_CLEAR (R161): the entries that recorded a refusal are freed, but for those that record one in this ck (R4). -/
def clearJref (s : State) (core : Nat) (mask : Word) : State :=
  ((upTo 64).filter fun e => mask.getLsbD e && (journalAt (s.core core) e).ref && !s.stays (.jref core e)).foldl
    (fun s e => setJournal s core e freeEntry) s

def execJrefClear (core : Nat) (mask : Word) (s : State) : Out := .next (clearJref s core mask)

/-- ESHARE_WRITE (R220). -/
def eshareWrites (s : State) (core : Nat) (high : Bool) (v : Word) : Option State :=
  let c := s.core core
  let e0 := if high then c.eshare0 else v
  let e1 := if high then v else c.eshare1
  if sharesExceed e0 e1 then none else some (s.setCore core { c with eshare0 := e0, eshare1 := e1 })

def execEshareWrite (core : Nat) (high : Bool) (v : Word) (s : State) : Out :=
  .next ((eshareWrites s core high v).getD s)

/-- DIERET_WRITE (R492): refused when it would clear a bit, set every bit, or retire a die that is in use. -/
def dieBusy (s : State) (d : Nat) : Bool :=
  s.cores.any (fun x => decide (x.1 < 1024) && dieOf x.1 == d && x.2.residence != .free) || (s.die d).nodes != [] ||
    (s.die d).pool.any (fun x => x.2.used) || validHoldings s d != []

/-- What waits at a home whose die is retired is refused (R492): lrws with RETIRED, gives with REFUSED. -/
def retireHome (s : State) (c : Nat) : State :=
  let x := s.core c
  let waiting := x.resv.filterMap Reservation.waiting ++ x.resvHeld
  let s := s.setCore c { x with resv := x.resv.filter fun r => r.waiting.isNone, resvHeld := [] }
  refuseGives (waiting.foldl (fun s r => refuse s r 5#4) s) c

/-- The cores of the dies that a value of DIERET retires anew. -/
def retiredHomes (s : State) (w : BitVec 4) : List Nat :=
  (s.cores.map (·.1)).filter fun c => isCompute c && w.getLsbD (dieOf c) && !s.dieRetired (dieOf c)

def dieretWrites (s : State) (v : Word) : Option State :=
  let w := v.extractLsb' 0 4
  if s.dieret &&& ~~~w != 0#4 || w == 15#4 || (upTo 4).any fun d => w.getLsbD d && !s.dieret.getLsbD d && dieBusy s d then
    none
  else some ((retiredHomes s w).foldl retireHome { s with dieret := w })

def execDieretWrite (_key : Nat) (v : Word) (s : State) : Out := .next ((dieretWrites s v).getD s)

/-- DIEMAP_WRITE (R138). -/
def writeDiemap (s : State) (high : Bool) (v : Word) : State :=
  if high then { s with diemap1 := v } else { s with diemap0 := v }

def execDiemapWrite (high : Bool) (v : Word) (s : State) : Out := .next (writeDiemap s high v)

/-- ASIDTAB_WRITE (R402): the reserved bits stay 0. -/
def writeAsidtab (s : State) (v : Word) : State := { s with asidtab := v &&& 0x080FFFFFFFF80001#64 }

def execAsidtabWrite (v : Word) (s : State) : Out := .next (writeAsidtab s v)

/-- BOWN_WRITE (R348): the object that the thread's BSEL names. -/
def writeBown (s : State) (k : Nat) (v : Word) : State :=
  writeOwner s (barrierSelected (s.thr (ownKey k)).bsel) (v.getLsbD 63) (v.extractLsb' 0 16)

def execBownWrite (key : Nat) (v : Word) (s : State) : Out := .next (writeBown s key v)

/-- The bits of BSEL, of a link register's five fields, of IRQROUTE. -/
def bselMask : Word := 0x3FFF3F#64
def fieldsMask : Word := 0x07FF7FF7FF7FF7FF#64
def routeMask : Word := 0x800000000000000F#64

/-- A write to a link register (R436, R442). -/
def linkWrite (s : State) (die p j : Nat) (v : Word) : SysWrite :=
  let x := s.port die p
  let w := v &&& fieldsMask
  let fields := fun (a : Word) => (upTo 5).map (minField a)
  match j with
  | 0 => .ok (s.setPort die p { x with excl := v.getLsbD 8 })
  | 1 =>
    okIf (decide (16 ≤ minField w 0) && decide (sumOf (fields w) ≤ x.capacity) &&
      (upTo 5).all fun c => decide (minField w c ≤ minField x.lpcap c)) (s.setPort die p { x with lpmin := w })
  | 2 =>
    okIf ((upTo 5).all fun c => decide (minField x.lpmin c ≤ minField w c) && decide (minField w c ≤ 1024))
      (s.setPort die p { x with lpcap := w })
  | _ => .ok (s.setPort die p { x with ovc := x.ovc && (!v.getLsbD 63 || s.stays (.portOvc die p)) })

/-- The registers of the thread and of its core. -/
def coreWrite (s : State) (k n : Nat) (v : Word) : SysWrite :=
  let t := s.thr k
  let o := s.thr (ownKey k)
  let core := coreOf k
  let c := s.core core
  match n with
  | 0x020 => .ok (s.setThr (ownKey k) { o with xpc := v })
  | 0x023 => .ok (s.setThr (ownKey k) { o with tvec := v })
  | 0x024 => .ok (s.setThr (ownKey k) { o with tsel := v.extractLsb' 0 3 })
  | 0x030 => .ok (s.setThr k { t with uvec := v })
  | 0x031 => .ok (s.setThr k { t with uie := v.extractLsb' 0 3 })
  | 0x053 => okIf (v.getLsbD 0 || c.ctxClass != 0#2) (s.setCore core { c with quiet := v.getLsbD 0 })
  | 0x054 => .ok (s.setCore core { c with rseed := v })
  | 0x055 => .ok (s.setCore core { c with levctl := v.extractLsb' 0 2 })
  | 0x060 => match eshareWrites s core false v with
    | some s' => .ok s'
    | none => .field
  | 0x061 => match eshareWrites s core true v with
    | some s' => .ok s'
    | none => .field
  | 0x0A0 => .ok (clearParked s core v)
  | 0x0A6 =>
    let d := copyDie core
    .ok (s.setDie d { s.die d with mfault := (s.die d).mfault &&&
      ~~~(BitVec.ofNat 8 (((upTo 8).filter fun p => v.getLsbD p && !s.stays (.mfault d p)).map (2 ^ ·)).sum) })
  | 0x0D0 => .ok (s.setCore core { c with qovc := c.qovc && (!v.getLsbD 63 || s.stays (.queueOvc core)) })
  | 0x0F1 => .ok (clearJref s core v)
  | n => .ok (s.setCore core { c with
      diverts := c.diverts.setIfInBounds (n - 0x058) ⟨v.getLsbD 63, v.extractLsb' 47 16, v.extractLsb' 0 36⟩ })

/-- The registers of the die and of the package. -/
def packageWrite (s : State) (k n : Nat) (v : Word) : SysWrite :=
  let core := coreOf k
  let o := s.thr (ownKey k)
  let x := selVf s
  match n with
  | 0x090 => .ok (writeAsidtab s v)
  | 0x0E0 => .ok (writeDiemap s false v)
  | 0x0E1 => .ok (writeDiemap s true v)
  | 0x0E2 => match dieretWrites s v with
    | some s' => .ok s'
    | none => .field
  | 0x0E4 => okIf (barrierSelectOk s (v &&& bselMask)) (s.setThr (ownKey k) { o with bsel := v &&& bselMask })
  | 0x0E5 => .ok (writeBown s k v)
  | 0x0E8 =>
    let d := copyDie core
    .ok (s.setDie d { s.die d with dlcnt := v.extractLsb' 0 32 })
  | 0x0E9 => okIf (selOk (v &&& selMask)) { s with pnsel := v &&& selMask }
  | 0x0EA => okIf (pnodeWrite s v).isSome (writePnode s v)
  | 0x0EC => .ok { s with vfsel := v.extractLsb' 0 5 }
  | 0x0ED => okIf (!vfcfgRefused s s.vfsel.toNat v) (writeVfcfg s s.vfsel.toNat v)
  | 0x0EF => okIf (!gfrzRefused x v) (s.setVf s.vfsel.toNat { x with gfrz := v })
  | 0x0F2 => okIf x.paused (s.setVf s.vfsel.toNat { x with gpt := v })
  | n =>
    if within 0x080 0x087 n then
      okIf (!mplotRefused s (dieOf core) (n - 0x080) v) (writeMplot s (dieOf core) (n - 0x080) v)
    else if within 0x200 0x25F n then linkWrite s (copyDie core) (linkPort n) (linkReg n) v
    else .ok { s with irqroute := s.irqroute.setIfInBounds (n - 0x300) (v &&& routeMask) }

/-- What a sysw of v to register n by thread k comes to. -/
def sysWrite (s : State) (k n : Nat) (v : Word) : SysWrite :=
  if writesNothing n then .ok s
  else if within 0x040 0x04F n then slotWrite s k n v
  else if n < 0x070 || n == 0x0A0 || n == 0x0A6 || n == 0x0D0 || n == 0x0F1 then coreWrite s k n v
  else packageWrite s k n v

/-- R193 sysw. -/
def execSysw (a : Reg) (sr : BitVec 12) (s : State) : Out :=
  let k := s.cur
  match regCause (s.thr k) (coreOf k) sr.toNat true with
  | some c => .next (illegalTrap s k c (encode (.sysw a sr)))
  | none => issue (.sysw a sr) s fun s =>
    match sysWrite s k sr.toNat (readReg s k a) with
    | .ok s' => finish s'
    | .field => .next (illegalTrap s k causeFIELD (encode (.sysw a sr)))
    | .state d => finishTrap s kindSTATE d 0#64

/-! The system call and the returns. -/

/-- R196 trap: it completes, and the thread resumes behind it. -/
def execTrap (imm : BitVec 15) (s : State) : Out :=
  issue (.trap imm) s fun s =>
    let k := s.cur
    let s' := retire s k
    .next (trapAt s' k (s'.thr k).pc kindSYSCALL 0 (imm.setWidth 64))

/-- R197 eret. -/
def execEret (s : State) : Out :=
  issue .eret s fun s =>
    let k := s.cur
    let t := s.thr k
    if t.xin then .next (closeWindows (leaveHandler (retireTo s k t.xpc []) k) k)
    else finishTrap s kindSTATE 1 0#64

/-- The return of R198: the thread's own p0 to p3, IN, UPC; the frozen windows go on. -/
def leaveUserHandler (s : State) (k : Nat) : State :=
  let t := s.thr k
  s.setThr k { t with
    p := withLowFour t.p t.ualt, ualt := lowFour t.p
    uin := false, pc := t.upc, view := t.uview
    windows := t.frozen ++ t.windows, frozen := [] }

/-- R198 uret. -/
def execUret (s : State) : Out :=
  issue .uret s fun s =>
    let k := s.cur
    let t := s.thr k
    if t.uin then .next (closeWindows (leaveUserHandler (retireTo s k t.upc []) k) k)
    else finishTrap s kindSTATE 1 0#64

/-! What an issue opportunity meets before the instruction (R181 to R184, R190, R191). -/

/-- POSTED_STORE_TRAP (R181, R182, R184): the oldest refusal of the thread; in a handler it waits. -/
def execPostedStoreTrap (key : Nat) (s : State) : Out :=
  let t := s.thr key
  match t.posted with
  | [] => .next s
  | (e, ea) :: es =>
    if takesOwnTraps key && t.xin then .next s
    else
      let s := s.setThr key { t with posted := es, stay := false, sleep := none }
      let cause := causeWord true kindPOSTED e
      if takesOwnTraps key then .next (enterHandler s key t.pc cause ea)
      else .next (trapSlot s key t.pc cause ea)

/-- A pre-emption request is pending for a core (R183, R294): a ctxsave with mode SAVE or EVACUATE that names it has been
asked for, or its save is under way. -/
def preemptionAsked (s : State) (core : Nat) : Bool :=
  s.work.any fun e => match e with
    | .ctxsaveRequest r => r.core == core && r.mode != 2#2
    | .saveImageWrite r => r.core == core && r.mode != 2#2
    | _ => false

/-- Slot 7 has something to be notified of (R183). -/
def notified (s : State) (core : Nat) : Bool :=
  let c := s.core core
  c.tpend != 0#7 || c.hevq != [] || preemptionAsked s core

/-- HANDLER_ENTRY (R183): slot 7 enters with NOTIFY. -/
def execHandlerEntry (key : Nat) (s : State) : Out :=
  let t := s.thr key
  if t.xin || slotOf key != 7 || isSystem (coreOf key) || !notified s (coreOf key) then .next s
  else .next (enterHandler (s.setThr key { t with sleep := none }) key t.pc (causeWord true kindNOTIFY 0) 0#64)

/-- The source delivered next: the lowest-numbered pending and enabled one (R190, R191). -/
def userSource (t : Thread) : Option Nat := findFirst (fun i => t.uip.getLsbD i && t.uie.getLsbD i) [0, 1, 2]

/-- The shadow p0 to p3 of a source (R191). -/
def sourceArgs (t : Thread) (i : Nat) : Vector Word 4 :=
  match i with
  | 0 => #v[1#64, t.argEngine, t.argEng.setWidth 64, 0#64]
  | 1 => #v[2#64, t.argEstate, 0#64, 0#64]
  | _ => #v[3#64, t.argMsg, 0#64, 0#64]

/-- Delivery of source i (R191): the handler runs in the user view, a privileged thread's too, and uret goes back to the view
that the thread had (log 36, DESIGN CHOICE: R191 names the first and not the second). -/
def deliverInterrupt (s : State) (k i : Nat) : State :=
  let t := s.thr k
  s.setThr k { t with
    upc := t.pc, uip := t.uip &&& ~~~(1#3 <<< i), uin := true, view := .user, uview := t.view
    p := withLowFour t.p (sourceArgs t i), ualt := lowFour t.p
    frozen := t.windows, windows := []
    latch := t.latch ||| latchUINT
    pc := t.uvec, stay := false, mismatch := false, spent := false, sleep := none }

/-- USER_INTERRUPT_DELIVERY (R190, R191). -/
def execUserInterruptDelivery (key : Nat) (s : State) : Out :=
  let t := s.thr key
  match userSource t with
  | some i => if t.uin || t.sstate != .run || t.hold != .none then .next s else .next (deliverInterrupt s key i)
  | none => .next s

/-- FETCH_FAULT (R125, R179): the fetch of the instruction at pc, beyond the translated addresses. -/
def execFetchFault (pc : Word) (s : State) : Out := .next (exactTrap s s.cur kindADDRESS 2 pc)

end Sys2Proof.Machine
end

