-- ==== Sys2Proof/Machine/Arrive.lean ====
section
/-! DEFINITION. The arrival of a long-latency result (02 R37, R495): a result that was known at issue, or the event of an
E instruction whose window waits for it. -/

namespace Sys2Proof.Machine

/-- An await of a restored thread goes back to its word (R39, R398); a word that its home refuses gives the refusal. -/
def rearmAwait (s : State) (k : Nat) (w : Window) : State :=
  let ea := addrOf w.a
  let place := if ea / 2 ^ 51 = 1 then
      (match globReach s (coreOf k) (s.thr k).asid ea false w.word with
        | .at p => .ok p
        | _ => .error s)
    else windowPlace s k ea kindLOAD false
  if s.awaiters.any fun x => x.wid == w.id then s
  else match place with
    | .error s => s.later (.longLatencyResultArrival k w.id)
    | .ok p => { s with
        awaiters := s.awaiters ++ [{ key := k, wid := w.id, cell := p.cell, home := p.home, ea := wordKey w.a, asid := (s.thr k).asid }] }

/-- A window with its result when its event has occurred; else the event is looked for again later. -/
def pollWith (s : State) (k : Nat) (w : Window) : Option Result → State
  | some r => arrive s k w.id r
  | none => s.later (.longLatencyResultArrival k w.id)

/-- A window that waits for an event (R36, R39): cpwait, mwait, kwait and recv look for it; an await or a ptake of a
restored thread takes its place again. -/
def pollWindow (s : State) (k : Nat) (w : Window) : State :=
  match decode w.word with
  | some (.cpwait _ _ _) => pollWith s k w (cpwaitEvent s k w)
  | some (.mwait _ _ _) => pollWith s k w (mwaitEvent s k w)
  | some (.kwait _ _ _) => pollWith s k w (kwaitEvent s k w)
  | some (.recv _ _ _ _) =>
    (match recvEvent s k w with
      | (s, some v) => arrive s k w.id (.one v)
      | (s, none) => s.later (.longLatencyResultArrival k w.id))
  | some (.await _ _ _) => rearmAwait s k w
  | some (.ptake _ _ _) => resendTake s k w
  | _ => s

/-- Stores to consecutive doublewords of a page, from place p on. -/
def replaced (p : Place) : List Request → List Request
  | [] => []
  | r :: rs => { r with cell := p.cell, home := p.home } :: replaced { p with cell := p.cell + 8 } rs

/-- A window whose stores have lost their translation takes it again as they issue (R420): the page's, or it walks. -/
def retranslate (s : State) (k wid : Nat) (v : Word) (l : List Request) : State :=
  match l with
  | [] => arrive s k wid (.one v)
  | r :: _ => match windowPlace s k (addrOf r.ea) kindSTORE true with
    | .ok p => arrive s k wid (.buffer v (replaced p l))
    | .error s => s.later (.longLatencyResultArrival k wid)

/-- LONG_LATENCY_RESULT_ARRIVAL (R37, R495): the result of window wid of thread k arrives. -/
def execLongLatencyResultArrival (k wid : Nat) (s : State) : Out :=
  match findFirst (fun w => w.id == wid) (s.thr k).allWindows with
  | some w => (match w.arrival with
    | .later r => .next (arrive s k wid r)
    | .dropped v l => .next (retranslate s k wid v l)
    | .pending => .next (pollWindow s k w)
    | .ready _ => .next s)
  | none => .next s

end Sys2Proof.Machine
end

