-- ==== Sys2Proof/Machine/Events.lean ====
section
/-! DEFINITION. The steps of the device that State.work and State.due hold: each is the meaning of the row of the opcode
table of its name, where the table has one; a reduction partial that arrives waits for its core's server, which runs the row's
meaning (R447). -/

namespace Sys2Proof.Machine

/-- One step of the device. -/
def runEvent (e : Event) (s : State) : Out :=
  match e with
  | .resultArrival r => execResultArrival r s
  | .remoteRequestArrival r => execRemoteRequestArrival r s
  | .reservationAdmit core => execReservationAdmit core s
  | .hostDoorbellWrite f v => execHostDoorbellWrite f v s
  | .frameBoundary core => execFrameBoundary core s
  | .energyRefill core => execEnergyRefill core s
  | .balancingInterval core => execBalancingInterval core s
  | .migrationSend key dst cause => execMigrationSend key dst cause s
  | .migrationPacketArrival p ck =>
    if s.ck < ck then .next (s.sooner (.migrationPacketArrival p ck)) else execMigrationPacketArrival p s
  | .packetTake core => .next (packetTake s core)
  | .migrationRefusalReturn p status => execMigrationRefusalReturn p status s
  | .vectorOpStart core => execVectorOpStart core s
  | .vectorBeat core => execVectorBeat core s
  | .vectorOpComplete core id => execVectorOpComplete core id s
  | .channelEntryMove core ch => execChannelEntryMove core ch s
  | .repReissue key => execRepReissue key s
  | .copyOpStart core => execCopyOpStart core s
  | .copyOpComplete core id => execCopyOpComplete core id s
  | .matrixCmdStart core => execMatrixCmdStart core s
  | .gangRelease die quad => execGangRelease die quad s
  | .matrixCmdComplete core => execMatrixCmdComplete core s
  | .meadowApply r => execMeadowApply r s
  | .settleFreeze die plot key wid => execSettleFreeze die plot key wid s
  | .settleTimeout die plot key wid => execSettleTimeout die plot key wid s
  | .plotSaturation die plot sum ix => execPlotSaturation die plot sum ix s
  | .calibrationStart die => execCalibrationStart die s
  | .calibrationEnd die => execCalibrationEnd die s
  | .calibrationStale die => execCalibrationStale die s
  | .kernelPromiseRelease die ix => execKernelPromiseRelease die ix s
  | .kernelTimedStart die ix => execKernelTimedStart die ix s
  | .kernelPlacement die ix => execKernelPlacement die ix s
  | .kernelThreadCreate die ix => execKernelThreadCreate die ix s
  | .kernelDrainEnd die group => execKernelDrainEnd die group s
  | .groupKillArrival key d asid group => execGroupKillArrival key d asid group s
  | .threadEnd key => execThreadEnd key s
  | .slotVacate key => execSlotVacate key s
  | .messageArrival m => execMessageArrival m s
  | .staleResponse m => execStaleResponse m s
  | .inboxResend m ck => if s.ck < ck then .next (s.sooner (.inboxResend m ck)) else execInboxResend m s
  | .payloadRead m rs => .next (readPayload s m rs)
  | .storeIssue rs => .next (issueStore s rs)
  | .conveyanceStart group => execConveyanceStart group s
  | .conveyanceStep group => execConveyanceStep group s
  | .arrivalRecordWrite group => execArrivalRecordWrite group s
  | .ctxsaveRequest r => execCtxsaveRequest r s
  | .saveImageWrite r => execSaveImageWrite r s
  | .ctxloadRequest r => execCtxloadRequest r s
  | .divertClearRequest core asid area _ => execDivertClearRequest core asid area s
  | .slotwRequest key d core v => execSlotwRequest key d core v s
  | .qcfgRequest key d core q v => execQcfgRequest key d core q v s
  | .walkEnd key => execWalkEnd key s
  | .presumeRelease name defer _ => execPresumeRelease name defer s
  | .giveRequest r => execGiveRequest r s
  | .giveEvent r => execGiveEvent r s
  | .giveAdmit core => execGiveAdmit core s
  | .takeRequest r => execTakeRequest r s
  | .linkTurnBoundary die port => execLinkTurnBoundary die port s
  | .turnSilenceEnd die port => execTurnSilenceEnd die port s
  | .flitArrival die port cls bad => execFlitArrival die port cls bad s
  | .flitReplay die port => execFlitReplay die port s
  | .returnFlitSend die port => execReturnFlitSend die port s
  | .returnFlitArrival die port good ret => execReturnFlitArrival die port good ret s
  | .auditFlitSend die port => execAuditFlitSend die port s
  | .auditFlitArrival die port sent => execAuditFlitArrival die port sent s
  | .permitBlockRetire die port => execPermitBlockRetire die port s
  | .partialArrival p => .next (partialReaches s p)
  | .rootResultWrite core ctx epoch v => execRootResultWrite core ctx epoch v s
  | .moduleFailure m => execModuleFailure m s
  | .clockSyncMessage ppm => execClockSyncMessage ppm s
  | .laneCharge core lane => .next (laneCharge s core lane)
  | .poolError core block double => .next (poolError s core block double)
  | .permitError die port block double => .next (permitError s die port block double)
  | .clockStep t => .next (clockStep s t)
  | .coreRelease core pc => .next (coreRelease s core pc)
  | .bindRequest asid file bases area stores => .next (bindRequest s asid file bases area stores)
  | .unbindRequest asid id => .next (unbindRequest s asid id)
  | .keyTableInstall asid keys => .next (keyTableInstall s asid keys)
  | .checkerMismatch key => execCheckerMismatch key s
  | .resultMismatch key wid => .next (resultMismatch s key wid)
  | .lineError line double => .next (lineError s line double)
  | .inboxError core cls n => .next (inboxError s core cls n)
  | .machineCheck key => execMachineCheck key s
  | .quarantine core cause => execQuarantine core cause s
  | .quarantineMapShift core => execQuarantineMapShift core s
  | .beatRetry core lane off givenUp => execBeatRetry core lane off givenUp s
  | .poolBlockRetire core block => execPoolBlockRetire core block s
  | .powerOvercurrent => execPowerOvercurrent s
  | .powerTrip => execPowerTrip s
  | .powerOnReset => execPowerOnReset s
  | .functionLevelReset vf => execFunctionLevelReset vf s
  | .getVersion => execGetVersion s
  | .getCapabilities => execGetCapabilities s
  | .negotiateAlgorithms => execNegotiateAlgorithms s
  | .getDigests => execGetDigests s
  | .getCertificate => execGetCertificate s
  | .challenge nonce => execChallenge nonce s
  | .getMeasurements => execGetMeasurements s
  | .longLatencyResultArrival key wid => execLongLatencyResultArrival key wid s
  | .levelledEntryArrival core q src entry => execLevelledEntryArrival core q src entry s
  | .killThreadArrival key d asid name => execKillThreadArrival key d asid name s
  | .portTrainingChange die port up => execPortTrainingChange die port up s
  | .answerArrival _ key d v => .next (answer s key d v)
  | .partialLeaves _ _ => .next s

end Sys2Proof.Machine
end

