-- ==== Sys2Proof/Machine/Float.lean ====
section
/-! DEFINITION. Meanings of the scalar floating-point instructions (05 R116 to R120). They raise no flags (R105). -/

namespace Sys2Proof.Machine

/-- R116 fadd.s. -/
def execFaddS (d a b : Reg) (rm : BitVec 3) (lk : BitVec 4) (s : State) : Out :=
  issue (.faddS d a b rm lk) s fun s =>
    finishFloat s (.faddS d a b rm lk) d rm fun r =>
      let x := floatOperand s .fp32 a
      let y := floatOperand s .fp32 b
      roundWord .fp32 r ((addVal r x y).1)

/-- R116 fsub.s. -/
def execFsubS (d a b : Reg) (rm : BitVec 3) (lk : BitVec 4) (s : State) : Out :=
  issue (.fsubS d a b rm lk) s fun s =>
    finishFloat s (.fsubS d a b rm lk) d rm fun r =>
      let x := floatOperand s .fp32 a
      let y := floatOperand s .fp32 b
      roundWord .fp32 r ((addVal r x (negVal y)).1)

/-- R116 fmul.s. -/
def execFmulS (d a b : Reg) (rm : BitVec 3) (lk : BitVec 4) (s : State) : Out :=
  issue (.fmulS d a b rm lk) s fun s =>
    finishFloat s (.fmulS d a b rm lk) d rm fun r =>
      let x := floatOperand s .fp32 a
      let y := floatOperand s .fp32 b
      roundWord .fp32 r ((mulVal x y).1)

/-- R116 fdiv.s. -/
def execFdivS (d a b : Reg) (rm : BitVec 3) (lk : BitVec 4) (s : State) : Out :=
  issue (.fdivS d a b rm lk) s fun s =>
    finishFloat s (.fdivS d a b rm lk) d rm fun r =>
      let x := floatOperand s .fp32 a
      let y := floatOperand s .fp32 b
      roundWord .fp32 r ((divVal x y).1)

/-- R116 fsqrt.s. -/
def execFsqrtS (d a : Reg) (rm : BitVec 3) (lk : BitVec 4) (s : State) : Out :=
  issue (.fsqrtS d a rm lk) s fun s =>
    finishFloat s (.fsqrtS d a rm lk) d rm fun r => roundWord .fp32 r (sqrtVal (floatOperand s .fp32 a)).1

/-- R116 fmin.s: no rounding, no draw. -/
def execFminS (d a b : Reg) (lk : BitVec 4) (s : State) : Out :=
  issue (.fminS d a b lk) s fun s =>
    finishLong s (.fminS d a b lk) d
      (.one (roundWord .fp32 nearest (minVal (floatOperand s .fp32 a) (floatOperand s .fp32 b))))

/-- R116 fmax.s: no rounding, no draw. -/
def execFmaxS (d a b : Reg) (lk : BitVec 4) (s : State) : Out :=
  issue (.fmaxS d a b lk) s fun s =>
    finishLong s (.fmaxS d a b lk) d
      (.one (roundWord .fp32 nearest (maxVal (floatOperand s .fp32 a) (floatOperand s .fp32 b))))

/-- R117 fma.s: d is the addend, read at issue. -/
def execFmaS (d a b : Reg) (rm : BitVec 3) (lk : BitVec 4) (s : State) : Out :=
  issue (.fmaS d a b rm lk) s fun s =>
    finishFloat s (.fmaS d a b rm lk) d rm fun r =>
      let x := floatOperand s .fp32 a
      let y := floatOperand s .fp32 b
      let z := floatOperand s .fp32 d
      roundWord .fp32 r (fmaVal r x y z).1

/-- R117 fms.s: d is the addend, read at issue. -/
def execFmsS (d a b : Reg) (rm : BitVec 3) (lk : BitVec 4) (s : State) : Out :=
  issue (.fmsS d a b rm lk) s fun s =>
    finishFloat s (.fmsS d a b rm lk) d rm fun r =>
      let x := floatOperand s .fp32 a
      let y := floatOperand s .fp32 b
      let z := floatOperand s .fp32 d
      roundWord .fp32 r (fmaVal r x y (negVal z)).1

/-- R117 fnma.s: d is the addend, read at issue. -/
def execFnmaS (d a b : Reg) (rm : BitVec 3) (lk : BitVec 4) (s : State) : Out :=
  issue (.fnmaS d a b rm lk) s fun s =>
    finishFloat s (.fnmaS d a b rm lk) d rm fun r =>
      let x := floatOperand s .fp32 a
      let y := floatOperand s .fp32 b
      let z := floatOperand s .fp32 d
      roundWord .fp32 r (fmaVal r (negVal x) y (negVal z)).1

/-- R117 fnms.s: d is the addend, read at issue. -/
def execFnmsS (d a b : Reg) (rm : BitVec 3) (lk : BitVec 4) (s : State) : Out :=
  issue (.fnmsS d a b rm lk) s fun s =>
    finishFloat s (.fnmsS d a b rm lk) d rm fun r =>
      let x := floatOperand s .fp32 a
      let y := floatOperand s .fp32 b
      let z := floatOperand s .fp32 d
      roundWord .fp32 r (fmaVal r (negVal x) y z).1

/-- R118 fcmp.s. -/
def execFcmpS (d a b : Reg) (cc : BitVec 3) (lk : BitVec 4) (s : State) : Out :=
  issue (.fcmpS d a b cc lk) s fun s =>
    finishLong s (.fcmpS d a b cc lk) d
      (.one (if compareVal cc (floatOperand s .fp32 a) (floatOperand s .fp32 b) then ~~~0#64 else 0#64))

/-- R116 fadd.d. -/
def execFaddD (d a b : Reg) (rm : BitVec 3) (lk : BitVec 4) (s : State) : Out :=
  issue (.faddD d a b rm lk) s fun s =>
    finishFloat s (.faddD d a b rm lk) d rm fun r =>
      let x := floatOperand s .fp64 a
      let y := floatOperand s .fp64 b
      roundWord .fp64 r ((addVal r x y).1)

/-- R116 fsub.d. -/
def execFsubD (d a b : Reg) (rm : BitVec 3) (lk : BitVec 4) (s : State) : Out :=
  issue (.fsubD d a b rm lk) s fun s =>
    finishFloat s (.fsubD d a b rm lk) d rm fun r =>
      let x := floatOperand s .fp64 a
      let y := floatOperand s .fp64 b
      roundWord .fp64 r ((addVal r x (negVal y)).1)

/-- R116 fmul.d. -/
def execFmulD (d a b : Reg) (rm : BitVec 3) (lk : BitVec 4) (s : State) : Out :=
  issue (.fmulD d a b rm lk) s fun s =>
    finishFloat s (.fmulD d a b rm lk) d rm fun r =>
      let x := floatOperand s .fp64 a
      let y := floatOperand s .fp64 b
      roundWord .fp64 r ((mulVal x y).1)

/-- R116 fdiv.d. -/
def execFdivD (d a b : Reg) (rm : BitVec 3) (lk : BitVec 4) (s : State) : Out :=
  issue (.fdivD d a b rm lk) s fun s =>
    finishFloat s (.fdivD d a b rm lk) d rm fun r =>
      let x := floatOperand s .fp64 a
      let y := floatOperand s .fp64 b
      roundWord .fp64 r ((divVal x y).1)

/-- R116 fsqrt.d. -/
def execFsqrtD (d a : Reg) (rm : BitVec 3) (lk : BitVec 4) (s : State) : Out :=
  issue (.fsqrtD d a rm lk) s fun s =>
    finishFloat s (.fsqrtD d a rm lk) d rm fun r => roundWord .fp64 r (sqrtVal (floatOperand s .fp64 a)).1

/-- R116 fmin.d: no rounding, no draw. -/
def execFminD (d a b : Reg) (lk : BitVec 4) (s : State) : Out :=
  issue (.fminD d a b lk) s fun s =>
    finishLong s (.fminD d a b lk) d
      (.one (roundWord .fp64 nearest (minVal (floatOperand s .fp64 a) (floatOperand s .fp64 b))))

/-- R116 fmax.d: no rounding, no draw. -/
def execFmaxD (d a b : Reg) (lk : BitVec 4) (s : State) : Out :=
  issue (.fmaxD d a b lk) s fun s =>
    finishLong s (.fmaxD d a b lk) d
      (.one (roundWord .fp64 nearest (maxVal (floatOperand s .fp64 a) (floatOperand s .fp64 b))))

/-- R117 fma.d: d is the addend, read at issue. -/
def execFmaD (d a b : Reg) (rm : BitVec 3) (lk : BitVec 4) (s : State) : Out :=
  issue (.fmaD d a b rm lk) s fun s =>
    finishFloat s (.fmaD d a b rm lk) d rm fun r =>
      let x := floatOperand s .fp64 a
      let y := floatOperand s .fp64 b
      let z := floatOperand s .fp64 d
      roundWord .fp64 r (fmaVal r x y z).1

/-- R117 fms.d: d is the addend, read at issue. -/
def execFmsD (d a b : Reg) (rm : BitVec 3) (lk : BitVec 4) (s : State) : Out :=
  issue (.fmsD d a b rm lk) s fun s =>
    finishFloat s (.fmsD d a b rm lk) d rm fun r =>
      let x := floatOperand s .fp64 a
      let y := floatOperand s .fp64 b
      let z := floatOperand s .fp64 d
      roundWord .fp64 r (fmaVal r x y (negVal z)).1

/-- R117 fnma.d: d is the addend, read at issue. -/
def execFnmaD (d a b : Reg) (rm : BitVec 3) (lk : BitVec 4) (s : State) : Out :=
  issue (.fnmaD d a b rm lk) s fun s =>
    finishFloat s (.fnmaD d a b rm lk) d rm fun r =>
      let x := floatOperand s .fp64 a
      let y := floatOperand s .fp64 b
      let z := floatOperand s .fp64 d
      roundWord .fp64 r (fmaVal r (negVal x) y (negVal z)).1

/-- R117 fnms.d: d is the addend, read at issue. -/
def execFnmsD (d a b : Reg) (rm : BitVec 3) (lk : BitVec 4) (s : State) : Out :=
  issue (.fnmsD d a b rm lk) s fun s =>
    finishFloat s (.fnmsD d a b rm lk) d rm fun r =>
      let x := floatOperand s .fp64 a
      let y := floatOperand s .fp64 b
      let z := floatOperand s .fp64 d
      roundWord .fp64 r (fmaVal r (negVal x) y z).1

/-- R118 fcmp.d. -/
def execFcmpD (d a b : Reg) (cc : BitVec 3) (lk : BitVec 4) (s : State) : Out :=
  issue (.fcmpD d a b cc lk) s fun s =>
    finishLong s (.fcmpD d a b cc lk) d
      (.one (if compareVal cc (floatOperand s .fp64 a) (floatOperand s .fp64 b) then ~~~0#64 else 0#64))

/-- R119 fcvt.s.d. -/
def execFcvtSD (d a : Reg) (rm : BitVec 3) (lk : BitVec 4) (s : State) : Out :=
  issue (.fcvtSD d a rm lk) s fun s => finishFloat s (.fcvtSD d a rm lk) d rm fun r => roundWord .fp32 r (floatOperand s .fp64 a)

/-- R119 fcvt.d.s. -/
def execFcvtDS (d a : Reg) (rm : BitVec 3) (lk : BitVec 4) (s : State) : Out :=
  issue (.fcvtDS d a rm lk) s fun s => finishFloat s (.fcvtDS d a rm lk) d rm fun r => roundWord .fp64 r (floatOperand s .fp32 a)

/-- R119 fcvt.s.l. -/
def execFcvtSL (d a : Reg) (rm : BitVec 3) (lk : BitVec 4) (s : State) : Out :=
  issue (.fcvtSL d a rm lk) s fun s => finishFloat s (.fcvtSL d a rm lk) d rm fun r => roundWord .fp32 r (intVal (readReg s s.cur a).toInt)

/-- R119 fcvt.d.l. -/
def execFcvtDL (d a : Reg) (rm : BitVec 3) (lk : BitVec 4) (s : State) : Out :=
  issue (.fcvtDL d a rm lk) s fun s => finishFloat s (.fcvtDL d a rm lk) d rm fun r => roundWord .fp64 r (intVal (readReg s s.cur a).toInt)

/-- R119 fcvt.l.s. -/
def execFcvtLS (d a : Reg) (rm : BitVec 3) (lk : BitVec 4) (s : State) : Out :=
  issue (.fcvtLS d a rm lk) s fun s => finishFloat s (.fcvtLS d a rm lk) d rm fun r => signedWord r (floatOperand s .fp32 a)

/-- R119 fcvt.l.d. -/
def execFcvtLD (d a : Reg) (rm : BitVec 3) (lk : BitVec 4) (s : State) : Out :=
  issue (.fcvtLD d a rm lk) s fun s => finishFloat s (.fcvtLD d a rm lk) d rm fun r => signedWord r (floatOperand s .fp64 a)

/-- R119 fcvt.d.lu. -/
def execFcvtDLu (d a : Reg) (rm : BitVec 3) (lk : BitVec 4) (s : State) : Out :=
  issue (.fcvtDLu d a rm lk) s fun s => finishFloat s (.fcvtDLu d a rm lk) d rm fun r => roundWord .fp64 r (intVal (readReg s s.cur a).toNat)

/-- R119 fcvt.lu.d. -/
def execFcvtLuD (d a : Reg) (rm : BitVec 3) (lk : BitVec 4) (s : State) : Out :=
  issue (.fcvtLuD d a rm lk) s fun s => finishFloat s (.fcvtLuD d a rm lk) d rm fun r => unsignedWord r (floatOperand s .fp64 a)

end Sys2Proof.Machine
end

