-- ==== Sys2Proof/Machine/Scalar.lean ====
section
/-! DEFINITION. Meanings of the scalar, pointer and control instructions (05 R106 to R127). -/

namespace Sys2Proof.Machine

/-- R106 add. -/
def execAdd (d a b : Reg) (s : State) : Out :=
  issue (.add d a b) s fun s => finishWrite s d (addWord (readReg s s.cur a) (readReg s s.cur b))

/-- R106 sub. -/
def execSub (d a b : Reg) (s : State) : Out :=
  issue (.sub d a b) s fun s => finishWrite s d (subWord (readReg s s.cur a) (readReg s s.cur b))

/-- R106 and. -/
def execAnd (d a b : Reg) (s : State) : Out :=
  issue (.and d a b) s fun s => finishWrite s d (andWord (readReg s s.cur a) (readReg s s.cur b))

/-- R106 or. -/
def execOr (d a b : Reg) (s : State) : Out :=
  issue (.or d a b) s fun s => finishWrite s d (orWord (readReg s s.cur a) (readReg s s.cur b))

/-- R106 xor. -/
def execXor (d a b : Reg) (s : State) : Out :=
  issue (.xor d a b) s fun s => finishWrite s d (xorWord (readReg s s.cur a) (readReg s s.cur b))

/-- R106 sll. -/
def execSll (d a b : Reg) (s : State) : Out :=
  issue (.sll d a b) s fun s => finishWrite s d (sllWord (readReg s s.cur a) (readReg s s.cur b))

/-- R106 srl. -/
def execSrl (d a b : Reg) (s : State) : Out :=
  issue (.srl d a b) s fun s => finishWrite s d (srlWord (readReg s s.cur a) (readReg s s.cur b))

/-- R106 sra. -/
def execSra (d a b : Reg) (s : State) : Out :=
  issue (.sra d a b) s fun s => finishWrite s d (sraWord (readReg s s.cur a) (readReg s s.cur b))

/-- R106 min. -/
def execMin (d a b : Reg) (s : State) : Out :=
  issue (.min d a b) s fun s => finishWrite s d (minWord (readReg s s.cur a) (readReg s s.cur b))

/-- R106 max. -/
def execMax (d a b : Reg) (s : State) : Out :=
  issue (.max d a b) s fun s => finishWrite s d (maxWord (readReg s s.cur a) (readReg s s.cur b))

/-- R106 minu. -/
def execMinu (d a b : Reg) (s : State) : Out :=
  issue (.minu d a b) s fun s => finishWrite s d (minuWord (readReg s s.cur a) (readReg s s.cur b))

/-- R106 maxu. -/
def execMaxu (d a b : Reg) (s : State) : Out :=
  issue (.maxu d a b) s fun s => finishWrite s d (maxuWord (readReg s s.cur a) (readReg s s.cur b))

/-- R106 sel: q is read before d is written. -/
def execSel (d a b : Reg) (s : State) : Out :=
  issue (.sel d a b) s fun s => finishWrite s d (selWord (readReg s s.cur a) (readReg s s.cur b) (s.thr s.cur).q)

/-- R107 mul: long-latency. -/
def execMul (d a b : Reg) (lk : BitVec 4) (s : State) : Out :=
  issue (.mul d a b lk) s fun s =>
    finishLong s (.mul d a b lk) d (.one (mulWord (readReg s s.cur a) (readReg s s.cur b)))

/-- R107 mulh: long-latency. -/
def execMulh (d a b : Reg) (lk : BitVec 4) (s : State) : Out :=
  issue (.mulh d a b lk) s fun s =>
    finishLong s (.mulh d a b lk) d (.one (mulhWord (readReg s s.cur a) (readReg s s.cur b)))

/-- R107 mulhu: long-latency. -/
def execMulhu (d a b : Reg) (lk : BitVec 4) (s : State) : Out :=
  issue (.mulhu d a b lk) s fun s =>
    finishLong s (.mulhu d a b lk) d (.one (mulhuWord (readReg s s.cur a) (readReg s s.cur b)))

/-- R108 div: long-latency. -/
def execDiv (d a b : Reg) (lk : BitVec 4) (s : State) : Out :=
  issue (.div d a b lk) s fun s =>
    finishLong s (.div d a b lk) d (.one (divWord (readReg s s.cur a) (readReg s s.cur b)))

/-- R108 divu: long-latency. -/
def execDivu (d a b : Reg) (lk : BitVec 4) (s : State) : Out :=
  issue (.divu d a b lk) s fun s =>
    finishLong s (.divu d a b lk) d (.one (divuWord (readReg s s.cur a) (readReg s s.cur b)))

/-- R108 rem: long-latency. -/
def execRem (d a b : Reg) (lk : BitVec 4) (s : State) : Out :=
  issue (.rem d a b lk) s fun s =>
    finishLong s (.rem d a b lk) d (.one (remWord (readReg s s.cur a) (readReg s s.cur b)))

/-- R108 remu: long-latency. -/
def execRemu (d a b : Reg) (lk : BitVec 4) (s : State) : Out :=
  issue (.remu d a b lk) s fun s =>
    finishLong s (.remu d a b lk) d (.one (remuWord (readReg s s.cur a) (readReg s s.cur b)))

/-- R109 clz. -/
def execClz (d a : Reg) (s : State) : Out :=
  issue (.clz d a) s fun s => finishWrite s d (clzWord (readReg s s.cur a))

/-- R109 ctz. -/
def execCtz (d a : Reg) (s : State) : Out :=
  issue (.ctz d a) s fun s => finishWrite s d (ctzWord (readReg s s.cur a))

/-- R109 pop. -/
def execPop (d a : Reg) (s : State) : Out :=
  issue (.pop d a) s fun s => finishWrite s d (popWord (readReg s s.cur a))

/-- R110 bext. -/
def execBext (d a b : Reg) (s : State) : Out :=
  issue (.bext d a b) s fun s => finishWrite s d (bextWord (readReg s s.cur a) (readReg s s.cur b))

/-- R110 bdep. -/
def execBdep (d a b : Reg) (s : State) : Out :=
  issue (.bdep d a b) s fun s => finishWrite s d (bdepWord (readReg s s.cur a) (readReg s s.cur b))

/-- R113 padd. -/
def execPadd (d a b : Reg) (s : State) : Out :=
  issue (.padd d a b) s fun s => finishPointer s d (paddWord (readReg s s.cur a) (readReg s s.cur b))

/-- R114 pidx. -/
def execPidx (d a b : Reg) (s : State) : Out :=
  issue (.pidx d a b) s fun s => finishPointer s d (pidxWord (readReg s s.cur a) (readReg s s.cur b))

/-- R115 ptagset. -/
def execPtagset (d a b : Reg) (s : State) : Out :=
  issue (.ptagset d a b) s fun s => finishPointer s d (ptagsetWord (readReg s s.cur a) (readReg s s.cur b))

/-- R115 ptag. -/
def execPtag (d a : Reg) (s : State) : Out :=
  issue (.ptag d a) s fun s => finishWrite s d (readReg s s.cur a >>> 52)

/-- R111 addi. -/
def execAddi (d a : Reg) (imm : BitVec 15) (s : State) : Out :=
  issue (.addi d a imm) s fun s => finishWrite s d (addWord (readReg s s.cur a) (imm.signExtend 64))

/-- R111 andi. -/
def execAndi (d a : Reg) (imm : BitVec 15) (s : State) : Out :=
  issue (.andi d a imm) s fun s => finishWrite s d (andWord (readReg s s.cur a) (imm.signExtend 64))

/-- R111 ori. -/
def execOri (d a : Reg) (imm : BitVec 15) (s : State) : Out :=
  issue (.ori d a imm) s fun s => finishWrite s d (orWord (readReg s s.cur a) (imm.signExtend 64))

/-- R111 xori. -/
def execXori (d a : Reg) (imm : BitVec 15) (s : State) : Out :=
  issue (.xori d a imm) s fun s => finishWrite s d (xorWord (readReg s s.cur a) (imm.signExtend 64))

/-- R111 slli. -/
def execSlli (d a : Reg) (imm : BitVec 6) (s : State) : Out :=
  issue (.slli d a imm) s fun s => finishWrite s d (sllWord (readReg s s.cur a) (imm.setWidth 64))

/-- R111 srli. -/
def execSrli (d a : Reg) (imm : BitVec 6) (s : State) : Out :=
  issue (.srli d a imm) s fun s => finishWrite s d (srlWord (readReg s s.cur a) (imm.setWidth 64))

/-- R111 srai. -/
def execSrai (d a : Reg) (imm : BitVec 6) (s : State) : Out :=
  issue (.srai d a imm) s fun s => finishWrite s d (sraWord (readReg s s.cur a) (imm.setWidth 64))

/-- R111 paddi: as padd, with the sign-extended immediate. -/
def execPaddi (d a : Reg) (imm : BitVec 15) (s : State) : Out :=
  issue (.paddi d a imm) s fun s => finishPointer s d (paddWord (readReg s s.cur a) (imm.signExtend 64))

/-- R112 lui. -/
def execLui (d : Reg) (imm : BitVec 20) (s : State) : Out :=
  issue (.lui d imm) s fun s => finishWrite s d (imm.signExtend 64 <<< 15)

/-- R121 beq. -/
def execBeq (a b : Reg) (disp : BitVec 15) (s : State) : Out :=
  issue (.beq a b disp) s fun s =>
    branch s (decide (readReg s s.cur a = readReg s s.cur b)) (4 * disp.toInt)

/-- R121 bne. -/
def execBne (a b : Reg) (disp : BitVec 15) (s : State) : Out :=
  issue (.bne a b disp) s fun s =>
    branch s (decide (readReg s s.cur a ≠ readReg s s.cur b)) (4 * disp.toInt)

/-- R121 blt. -/
def execBlt (a b : Reg) (disp : BitVec 15) (s : State) : Out :=
  issue (.blt a b disp) s fun s =>
    branch s ((readReg s s.cur a).slt (readReg s s.cur b)) (4 * disp.toInt)

/-- R121 bge. -/
def execBge (a b : Reg) (disp : BitVec 15) (s : State) : Out :=
  issue (.bge a b disp) s fun s =>
    branch s (!(readReg s s.cur a).slt (readReg s s.cur b)) (4 * disp.toInt)

/-- R121 bltu. -/
def execBltu (a b : Reg) (disp : BitVec 15) (s : State) : Out :=
  issue (.bltu a b disp) s fun s =>
    branch s ((readReg s s.cur a).ult (readReg s s.cur b)) (4 * disp.toInt)

/-- R121 bgeu. -/
def execBgeu (a b : Reg) (disp : BitVec 15) (s : State) : Out :=
  issue (.bgeu a b disp) s fun s =>
    branch s (!(readReg s s.cur a).ult (readReg s s.cur b)) (4 * disp.toInt)

/-- R122 bbs. -/
def execBbs (a b : Reg) (disp : BitVec 15) (s : State) : Out :=
  issue (.bbs a b disp) s fun s =>
    branch s (testBit (readReg s s.cur a) (readReg s s.cur b)) (4 * disp.toInt)

/-- R122 bbc. -/
def execBbc (a b : Reg) (disp : BitVec 15) (s : State) : Out :=
  issue (.bbc a b disp) s fun s =>
    branch s (!testBit (readReg s s.cur a) (readReg s s.cur b)) (4 * disp.toInt)

/-- R123 jal: p9 becomes the return address; a target out of range traps and writes no link. -/
def execJal (disp : BitVec 25) (s : State) : Out :=
  issue (.jal disp) s fun s =>
    let pc := (s.thr s.cur).pc
    let t := (pc.toNat : Int) + 4 * disp.toInt
    if targetOk t then .next (retireTo (writeReg s s.cur 9#5 (pc + 4#64)) s.cur (BitVec.ofInt 64 t) [])
    else finishTrap s kindADDRESS 0 (BitVec.ofInt 64 t)

/-- R124 jalr: the source is read before d is written; a target out of range or misaligned traps. -/
def execJalr (d a : Reg) (imm : BitVec 15) (s : State) : Out :=
  issue (.jalr d a imm) s fun s =>
    let pc := (s.thr s.cur).pc
    let t := formEa (readReg s s.cur a) imm.toInt
    if targetOk t && t % 4 == 0 then .next (retireTo (writeReg s s.cur d (pc + 4#64)) s.cur (BitVec.ofInt 64 t) [])
    else finishTrap s kindADDRESS 0 (BitVec.ofInt 64 t)

/-- R127 wait: the latch bits that the mask selects, and the TIME event; without a hit the thread sleeps at the
instruction. -/
def execWait (d a : Reg) (imm : BitVec 5) (s : State) : Out :=
  issue (.wait d a imm) s fun s => waitFor s d a imm false

end Sys2Proof.Machine
end

