-- ==== Sys2Proof/Machine/Dispatch.lean ====
section
/-! DEFINITION. The meaning of every instruction and of every step of the device: one arm per constructor of Instr. -/

namespace Sys2Proof.Machine

def exec (i : Instr) (s : State) : Host.Outcome State Fault Refusal :=
  match i with
  | .add d a b => Sys2Proof.Machine.execAdd d a b s
  | .sub d a b => Sys2Proof.Machine.execSub d a b s
  | .and d a b => Sys2Proof.Machine.execAnd d a b s
  | .or d a b => Sys2Proof.Machine.execOr d a b s
  | .xor d a b => Sys2Proof.Machine.execXor d a b s
  | .sll d a b => Sys2Proof.Machine.execSll d a b s
  | .srl d a b => Sys2Proof.Machine.execSrl d a b s
  | .sra d a b => Sys2Proof.Machine.execSra d a b s
  | .min d a b => Sys2Proof.Machine.execMin d a b s
  | .max d a b => Sys2Proof.Machine.execMax d a b s
  | .minu d a b => Sys2Proof.Machine.execMinu d a b s
  | .maxu d a b => Sys2Proof.Machine.execMaxu d a b s
  | .sel d a b => Sys2Proof.Machine.execSel d a b s
  | .mul d a b lk => Sys2Proof.Machine.execMul d a b lk s
  | .mulh d a b lk => Sys2Proof.Machine.execMulh d a b lk s
  | .mulhu d a b lk => Sys2Proof.Machine.execMulhu d a b lk s
  | .div d a b lk => Sys2Proof.Machine.execDiv d a b lk s
  | .divu d a b lk => Sys2Proof.Machine.execDivu d a b lk s
  | .rem d a b lk => Sys2Proof.Machine.execRem d a b lk s
  | .remu d a b lk => Sys2Proof.Machine.execRemu d a b lk s
  | .clz d a => Sys2Proof.Machine.execClz d a s
  | .ctz d a => Sys2Proof.Machine.execCtz d a s
  | .pop d a => Sys2Proof.Machine.execPop d a s
  | .bext d a b => Sys2Proof.Machine.execBext d a b s
  | .bdep d a b => Sys2Proof.Machine.execBdep d a b s
  | .padd d a b => Sys2Proof.Machine.execPadd d a b s
  | .pidx d a b => Sys2Proof.Machine.execPidx d a b s
  | .ptag d a => Sys2Proof.Machine.execPtag d a s
  | .ptagset d a b => Sys2Proof.Machine.execPtagset d a b s
  | .addi d a imm => Sys2Proof.Machine.execAddi d a imm s
  | .andi d a imm => Sys2Proof.Machine.execAndi d a imm s
  | .ori d a imm => Sys2Proof.Machine.execOri d a imm s
  | .xori d a imm => Sys2Proof.Machine.execXori d a imm s
  | .slli d a imm => Sys2Proof.Machine.execSlli d a imm s
  | .srli d a imm => Sys2Proof.Machine.execSrli d a imm s
  | .srai d a imm => Sys2Proof.Machine.execSrai d a imm s
  | .paddi d a imm => Sys2Proof.Machine.execPaddi d a imm s
  | .lui d imm => Sys2Proof.Machine.execLui d imm s
  | .faddS d a b rm lk => Sys2Proof.Machine.execFaddS d a b rm lk s
  | .fsubS d a b rm lk => Sys2Proof.Machine.execFsubS d a b rm lk s
  | .fmulS d a b rm lk => Sys2Proof.Machine.execFmulS d a b rm lk s
  | .fdivS d a b rm lk => Sys2Proof.Machine.execFdivS d a b rm lk s
  | .fsqrtS d a rm lk => Sys2Proof.Machine.execFsqrtS d a rm lk s
  | .fminS d a b lk => Sys2Proof.Machine.execFminS d a b lk s
  | .fmaxS d a b lk => Sys2Proof.Machine.execFmaxS d a b lk s
  | .faddD d a b rm lk => Sys2Proof.Machine.execFaddD d a b rm lk s
  | .fsubD d a b rm lk => Sys2Proof.Machine.execFsubD d a b rm lk s
  | .fmulD d a b rm lk => Sys2Proof.Machine.execFmulD d a b rm lk s
  | .fdivD d a b rm lk => Sys2Proof.Machine.execFdivD d a b rm lk s
  | .fsqrtD d a rm lk => Sys2Proof.Machine.execFsqrtD d a rm lk s
  | .fminD d a b lk => Sys2Proof.Machine.execFminD d a b lk s
  | .fmaxD d a b lk => Sys2Proof.Machine.execFmaxD d a b lk s
  | .fmaS d a b rm lk => Sys2Proof.Machine.execFmaS d a b rm lk s
  | .fmsS d a b rm lk => Sys2Proof.Machine.execFmsS d a b rm lk s
  | .fnmaS d a b rm lk => Sys2Proof.Machine.execFnmaS d a b rm lk s
  | .fnmsS d a b rm lk => Sys2Proof.Machine.execFnmsS d a b rm lk s
  | .fmaD d a b rm lk => Sys2Proof.Machine.execFmaD d a b rm lk s
  | .fmsD d a b rm lk => Sys2Proof.Machine.execFmsD d a b rm lk s
  | .fnmaD d a b rm lk => Sys2Proof.Machine.execFnmaD d a b rm lk s
  | .fnmsD d a b rm lk => Sys2Proof.Machine.execFnmsD d a b rm lk s
  | .fcmpS d a b cc lk => Sys2Proof.Machine.execFcmpS d a b cc lk s
  | .fcmpD d a b cc lk => Sys2Proof.Machine.execFcmpD d a b cc lk s
  | .fcvtSD d a rm lk => Sys2Proof.Machine.execFcvtSD d a rm lk s
  | .fcvtDS d a rm lk => Sys2Proof.Machine.execFcvtDS d a rm lk s
  | .fcvtSL d a rm lk => Sys2Proof.Machine.execFcvtSL d a rm lk s
  | .fcvtDL d a rm lk => Sys2Proof.Machine.execFcvtDL d a rm lk s
  | .fcvtLS d a rm lk => Sys2Proof.Machine.execFcvtLS d a rm lk s
  | .fcvtLD d a rm lk => Sys2Proof.Machine.execFcvtLD d a rm lk s
  | .fcvtDLu d a rm lk => Sys2Proof.Machine.execFcvtDLu d a rm lk s
  | .fcvtLuD d a rm lk => Sys2Proof.Machine.execFcvtLuD d a rm lk s
  | .beq a b disp => Sys2Proof.Machine.execBeq a b disp s
  | .bne a b disp => Sys2Proof.Machine.execBne a b disp s
  | .blt a b disp => Sys2Proof.Machine.execBlt a b disp s
  | .bge a b disp => Sys2Proof.Machine.execBge a b disp s
  | .bltu a b disp => Sys2Proof.Machine.execBltu a b disp s
  | .bgeu a b disp => Sys2Proof.Machine.execBgeu a b disp s
  | .bbs a b disp => Sys2Proof.Machine.execBbs a b disp s
  | .bbc a b disp => Sys2Proof.Machine.execBbc a b disp s
  | .jal disp => Sys2Proof.Machine.execJal disp s
  | .jalr d a imm => Sys2Proof.Machine.execJalr d a imm s
  | .wait d a imm => Sys2Proof.Machine.execWait d a imm s
  | .ldB d a mode rx off lk => Sys2Proof.Machine.execLdB d a mode rx off lk s
  | .ldH d a mode rx off lk => Sys2Proof.Machine.execLdH d a mode rx off lk s
  | .ldW d a mode rx off lk => Sys2Proof.Machine.execLdW d a mode rx off lk s
  | .ldD d a mode rx off lk => Sys2Proof.Machine.execLdD d a mode rx off lk s
  | .ldBu d a mode rx off lk => Sys2Proof.Machine.execLdBu d a mode rx off lk s
  | .ldHu d a mode rx off lk => Sys2Proof.Machine.execLdHu d a mode rx off lk s
  | .ldWu d a mode rx off lk => Sys2Proof.Machine.execLdWu d a mode rx off lk s
  | .stB d a mode rx off => Sys2Proof.Machine.execStB d a mode rx off s
  | .stH d a mode rx off => Sys2Proof.Machine.execStH d a mode rx off s
  | .stW d a mode rx off => Sys2Proof.Machine.execStW d a mode rx off s
  | .stD d a mode rx off => Sys2Proof.Machine.execStD d a mode rx off s
  | .ldAcq d a mode off lk => Sys2Proof.Machine.execLdAcq d a mode off lk s
  | .stRel d a mode off => Sys2Proof.Machine.execStRel d a mode off s
  | .fenceScope sc => Sys2Proof.Machine.execFenceScope sc s
  | .fenceLoop => Sys2Proof.Machine.execFenceLoop s
  | .amoAddD d a b sc lk => Sys2Proof.Machine.execAmoAddD d a b sc lk s
  | .amoMinD d a b sc lk => Sys2Proof.Machine.execAmoMinD d a b sc lk s
  | .amoMaxD d a b sc lk => Sys2Proof.Machine.execAmoMaxD d a b sc lk s
  | .amoXchgD d a b sc lk => Sys2Proof.Machine.execAmoXchgD d a b sc lk s
  | .amoCasD d a b sc lk => Sys2Proof.Machine.execAmoCasD d a b sc lk s
  | .amoMinuD d a b sc lk => Sys2Proof.Machine.execAmoMinuD d a b sc lk s
  | .amoMaxuD d a b sc lk => Sys2Proof.Machine.execAmoMaxuD d a b sc lk s
  | .amoAddW d a b sc lk => Sys2Proof.Machine.execAmoAddW d a b sc lk s
  | .amoMinW d a b sc lk => Sys2Proof.Machine.execAmoMinW d a b sc lk s
  | .amoMaxW d a b sc lk => Sys2Proof.Machine.execAmoMaxW d a b sc lk s
  | .amoXchgW d a b sc lk => Sys2Proof.Machine.execAmoXchgW d a b sc lk s
  | .amoCasW d a b sc lk => Sys2Proof.Machine.execAmoCasW d a b sc lk s
  | .amoMinuW d a b sc lk => Sys2Proof.Machine.execAmoMinuW d a b sc lk s
  | .amoMaxuW d a b sc lk => Sys2Proof.Machine.execAmoMaxuW d a b sc lk s
  | .lrw d a mode off lk => Sys2Proof.Machine.execLrw d a mode off lk s
  | .sc d a b lk => Sys2Proof.Machine.execSc d a b lk s
  | .rupAdd a b sc => Sys2Proof.Machine.execRupAdd a b sc s
  | .rupMin a b sc => Sys2Proof.Machine.execRupMin a b sc s
  | .rupMax a b sc => Sys2Proof.Machine.execRupMax a b sc s
  | .rupOr a b sc => Sys2Proof.Machine.execRupOr a b sc s
  | .rupAnd a b sc => Sys2Proof.Machine.execRupAnd a b sc s
  | .rupXor a b sc => Sys2Proof.Machine.execRupXor a b sc s
  | .barinit d a b sc => Sys2Proof.Machine.execBarinit d a b sc s
  | .barjoin d a b sc => Sys2Proof.Machine.execBarjoin d a b sc s
  | .barwait d a b sc lk => Sys2Proof.Machine.execBarwait d a b sc lk s
  | .barbytes d a b sc => Sys2Proof.Machine.execBarbytes d a b sc s
  | .qput d a b => Sys2Proof.Machine.execQput d a b s
  | .qget d a b lk => Sys2Proof.Machine.execQget d a b lk s
  | .qcfg d a b => Sys2Proof.Machine.execQcfg d a b s
  | .qstat d a => Sys2Proof.Machine.execQstat d a s
  | .hold d a b lk => Sys2Proof.Machine.execHold d a b lk s
  | .unhold d a lk => Sys2Proof.Machine.execUnhold d a lk s
  | .heir d a b lk => Sys2Proof.Machine.execHeir d a b lk s
  | .promise d a lk => Sys2Proof.Machine.execPromise d a lk s
  | .fulfil d a b => Sys2Proof.Machine.execFulfil d a b s
  | .await d a lk => Sys2Proof.Machine.execAwait d a lk s
  | .estq d a b lk => Sys2Proof.Machine.execEstq d a b lk s
  | .vadd a b => Sys2Proof.Machine.execVadd a b s
  | .vsub a b => Sys2Proof.Machine.execVsub a b s
  | .vmul a b => Sys2Proof.Machine.execVmul a b s
  | .vdiv a b => Sys2Proof.Machine.execVdiv a b s
  | .vmin a b => Sys2Proof.Machine.execVmin a b s
  | .vmax a b => Sys2Proof.Machine.execVmax a b s
  | .vfma a b => Sys2Proof.Machine.execVfma a b s
  | .vabs a b => Sys2Proof.Machine.execVabs a b s
  | .vneg a b => Sys2Proof.Machine.execVneg a b s
  | .vsqrt a b => Sys2Proof.Machine.execVsqrt a b s
  | .vcvt a b => Sys2Proof.Machine.execVcvt a b s
  | .vand a b => Sys2Proof.Machine.execVand a b s
  | .vor a b => Sys2Proof.Machine.execVor a b s
  | .vxor a b => Sys2Proof.Machine.execVxor a b s
  | .vshl a b => Sys2Proof.Machine.execVshl a b s
  | .vshr a b => Sys2Proof.Machine.execVshr a b s
  | .vsum a b => Sys2Proof.Machine.execVsum a b s
  | .vrmax a b => Sys2Proof.Machine.execVrmax a b s
  | .vrmin a b => Sys2Proof.Machine.execVrmin a b s
  | .vsumsq a b => Sys2Proof.Machine.execVsumsq a b s
  | .vexp a b => Sys2Proof.Machine.execVexp a b s
  | .vlog a b => Sys2Proof.Machine.execVlog a b s
  | .vrcp a b => Sys2Proof.Machine.execVrcp a b s
  | .vrsqrt a b => Sys2Proof.Machine.execVrsqrt a b s
  | .vtanh a b => Sys2Proof.Machine.execVtanh a b s
  | .vsilu a b => Sys2Proof.Machine.execVsilu a b s
  | .vgelu a b => Sys2Proof.Machine.execVgelu a b s
  | .vfence => Sys2Proof.Machine.execVfence s
  | .cpbox a b => Sys2Proof.Machine.execCpbox a b s
  | .cpmc a b => Sys2Proof.Machine.execCpmc a b s
  | .cpcan a b => Sys2Proof.Machine.execCpcan a b s
  | .cpredAddF32 a b => Sys2Proof.Machine.execCpredAddF32 a b s
  | .cpredAddBf16 a b => Sys2Proof.Machine.execCpredAddBf16 a b s
  | .cpredMaxF32 a b => Sys2Proof.Machine.execCpredMaxF32 a b s
  | .cpredMaxBf16 a b => Sys2Proof.Machine.execCpredMaxBf16 a b s
  | .cpredMinF32 a b => Sys2Proof.Machine.execCpredMinF32 a b s
  | .cpredMinBf16 a b => Sys2Proof.Machine.execCpredMinBf16 a b s
  | .mgath a b => Sys2Proof.Machine.execMgath a b s
  | .mgang => Sys2Proof.Machine.execMgang s
  | .mzero a => Sys2Proof.Machine.execMzero a s
  | .mdrain a b => Sys2Proof.Machine.execMdrain a b s
  | .mband a => Sys2Proof.Machine.execMband a s
  | .mmaF4 a b => Sys2Proof.Machine.execMmaF4 a b s
  | .mmaF8 a b => Sys2Proof.Machine.execMmaF8 a b s
  | .mmaBf16 a b => Sys2Proof.Machine.execMmaBf16 a b s
  | .mmaI8 a b => Sys2Proof.Machine.execMmaI8 a b s
  | .acfg a b => Sys2Proof.Machine.execAcfg a b s
  | .acoef a b => Sys2Proof.Machine.execAcoef a b s
  | .ascale a b => Sys2Proof.Machine.execAscale a b s
  | .arun a => Sys2Proof.Machine.execArun a s
  | .ahold a => Sys2Proof.Machine.execAhold a s
  | .areset a => Sys2Proof.Machine.execAreset a s
  | .lturn a b => Sys2Proof.Machine.execLturn a b s
  | .rsvr a b => Sys2Proof.Machine.execRsvr a b s
  | .rpart a b => Sys2Proof.Machine.execRpart a b s
  | .rep a b len => Sys2Proof.Machine.execRep a b len s
  | .vbusy d a => Sys2Proof.Machine.execVbusy d a s
  | .vcmpm d a b lk => Sys2Proof.Machine.execVcmpm d a b lk s
  | .cpstat d a => Sys2Proof.Machine.execCpstat d a s
  | .cpwait d a lk => Sys2Proof.Machine.execCpwait d a lk s
  | .mwait d a lk => Sys2Proof.Machine.execMwait d a lk s
  | .astat d a => Sys2Proof.Machine.execAstat d a s
  | .asettle d a b lk => Sys2Proof.Machine.execAsettle d a b lk s
  | .asample d a b lk => Sys2Proof.Machine.execAsample d a b lk s
  | .lstat d a => Sys2Proof.Machine.execLstat d a s
  | .grpq d a lk => Sys2Proof.Machine.execGrpq d a lk s
  | .sysr d sr => Sys2Proof.Machine.execSysr d sr s
  | .sysw a sr => Sys2Proof.Machine.execSysw a sr s
  | .tsr d sr => Sys2Proof.Machine.execTsr d sr s
  | .ewr a eng sr => Sys2Proof.Machine.execEwr a eng sr s
  | .trap imm => Sys2Proof.Machine.execTrap imm s
  | .eret => Sys2Proof.Machine.execEret s
  | .uret => Sys2Proof.Machine.execUret s
  | .ctxsave d a b => Sys2Proof.Machine.execCtxsave d a b s
  | .ctxload d a b => Sys2Proof.Machine.execCtxload d a b s
  | .slotw d a b => Sys2Proof.Machine.execSlotw d a b s
  | .yield d a => Sys2Proof.Machine.execYield d a s
  | .migrate d a => Sys2Proof.Machine.execMigrate d a s
  | .pin d a => Sys2Proof.Machine.execPin d a s
  | .launch d a b lk => Sys2Proof.Machine.execLaunch d a b lk s
  | .tlaunch d a b lk => Sys2Proof.Machine.execTlaunch d a b lk s
  | .kwait d a lk => Sys2Proof.Machine.execKwait d a lk s
  | .kstat d a => Sys2Proof.Machine.execKstat d a s
  | .spawn d a b lk => Sys2Proof.Machine.execSpawn d a b lk s
  | .exit => Sys2Proof.Machine.execExit s
  | .kill d a b => Sys2Proof.Machine.execKill d a b s
  | .send a b => Sys2Proof.Machine.execSend a b s
  | .recv d a b lk => Sys2Proof.Machine.execRecv d a b lk s
  | .gstat d a => Sys2Proof.Machine.execGstat d a s
  | .pfq d a b lk => Sys2Proof.Machine.execPfq d a b lk s
  | .presume d a b => Sys2Proof.Machine.execPresume d a b s
  | .pinv d a b => Sys2Proof.Machine.execPinv d a b s
  | .pgive d a b => Sys2Proof.Machine.execPgive d a b s
  | .ptake d a lk => Sys2Proof.Machine.execPtake d a lk s
  | .resultArrival r => Sys2Proof.Machine.execResultArrival r s
  | .remoteRequestArrival r => Sys2Proof.Machine.execRemoteRequestArrival r s
  | .reservationAdmit core => Sys2Proof.Machine.execReservationAdmit core s
  | .postedStoreTrap key => Sys2Proof.Machine.execPostedStoreTrap key s
  | .jrefClear core mask => Sys2Proof.Machine.execJrefClear core mask s
  | .handlerEntry key => Sys2Proof.Machine.execHandlerEntry key s
  | .userInterruptDelivery key => Sys2Proof.Machine.execUserInterruptDelivery key s
  | .hevqRead key d => Sys2Proof.Machine.execHevqRead key d s
  | .sstateWrite key v => Sys2Proof.Machine.execSstateWrite key v s
  | .dieretWrite key v => Sys2Proof.Machine.execDieretWrite key v s
  | .diemapWrite high v => Sys2Proof.Machine.execDiemapWrite high v s
  | .asidtabWrite v => Sys2Proof.Machine.execAsidtabWrite v s
  | .eshareWrite core high v => Sys2Proof.Machine.execEshareWrite core high v s
  | .mplotWrite die p v => Sys2Proof.Machine.execMplotWrite die p v s
  | .bownWrite key v => Sys2Proof.Machine.execBownWrite key v s
  | .pnodeAssign v => Sys2Proof.Machine.execPnodeAssign v s
  | .pnodeRelease v => Sys2Proof.Machine.execPnodeRelease v s
  | .vfPause vf => Sys2Proof.Machine.execVfPause vf s
  | .vfResume vf => Sys2Proof.Machine.execVfResume vf s
  | .hdbRead key d f => Sys2Proof.Machine.execHdbRead key d f s
  | .hostDoorbellWrite f v => Sys2Proof.Machine.execHostDoorbellWrite f v s
  | .parkedClear core mask => Sys2Proof.Machine.execParkedClear core mask s
  | .frameBoundary core => Sys2Proof.Machine.execFrameBoundary core s
  | .energyRefill core => Sys2Proof.Machine.execEnergyRefill core s
  | .balancingInterval core => Sys2Proof.Machine.execBalancingInterval core s
  | .migrationSend key dst cause => Sys2Proof.Machine.execMigrationSend key dst cause s
  | .migrationPacketArrival p => Sys2Proof.Machine.execMigrationPacketArrival p s
  | .migrationRefusalReturn p status => Sys2Proof.Machine.execMigrationRefusalReturn p status s
  | .vectorOpStart core => Sys2Proof.Machine.execVectorOpStart core s
  | .vectorBeat core => Sys2Proof.Machine.execVectorBeat core s
  | .vectorOpComplete core id => Sys2Proof.Machine.execVectorOpComplete core id s
  | .channelEntryMove core ch => Sys2Proof.Machine.execChannelEntryMove core ch s
  | .repReissue key => Sys2Proof.Machine.execRepReissue key s
  | .copyOpStart core => Sys2Proof.Machine.execCopyOpStart core s
  | .copyOpComplete core id => Sys2Proof.Machine.execCopyOpComplete core id s
  | .matrixCmdStart core => Sys2Proof.Machine.execMatrixCmdStart core s
  | .gangRelease die quad => Sys2Proof.Machine.execGangRelease die quad s
  | .matrixCmdComplete core => Sys2Proof.Machine.execMatrixCmdComplete core s
  | .meadowApply r => Sys2Proof.Machine.execMeadowApply r s
  | .settleFreeze die plot key wid => Sys2Proof.Machine.execSettleFreeze die plot key wid s
  | .settleTimeout die plot key wid => Sys2Proof.Machine.execSettleTimeout die plot key wid s
  | .plotSaturation die plot sum ix => Sys2Proof.Machine.execPlotSaturation die plot sum ix s
  | .calibrationStart die => Sys2Proof.Machine.execCalibrationStart die s
  | .calibrationEnd die => Sys2Proof.Machine.execCalibrationEnd die s
  | .calibrationStale die => Sys2Proof.Machine.execCalibrationStale die s
  | .kernelPromiseRelease die ix => Sys2Proof.Machine.execKernelPromiseRelease die ix s
  | .kernelTimedStart die ix => Sys2Proof.Machine.execKernelTimedStart die ix s
  | .kernelPlacement die ix => Sys2Proof.Machine.execKernelPlacement die ix s
  | .kernelThreadCreate die ix => Sys2Proof.Machine.execKernelThreadCreate die ix s
  | .kernelDrainEnd die group => Sys2Proof.Machine.execKernelDrainEnd die group s
  | .groupKillArrival key d asid group => Sys2Proof.Machine.execGroupKillArrival key d asid group s
  | .threadEnd key => Sys2Proof.Machine.execThreadEnd key s
  | .slotVacate key => Sys2Proof.Machine.execSlotVacate key s
  | .messageArrival m => Sys2Proof.Machine.execMessageArrival m s
  | .staleResponse m => Sys2Proof.Machine.execStaleResponse m s
  | .inboxResend m => Sys2Proof.Machine.execInboxResend m s
  | .conveyanceStart group => Sys2Proof.Machine.execConveyanceStart group s
  | .conveyanceStep group => Sys2Proof.Machine.execConveyanceStep group s
  | .arrivalRecordWrite group => Sys2Proof.Machine.execArrivalRecordWrite group s
  | .ctxsaveRequest r => Sys2Proof.Machine.execCtxsaveRequest r s
  | .saveImageWrite r => Sys2Proof.Machine.execSaveImageWrite r s
  | .ctxloadRequest r => Sys2Proof.Machine.execCtxloadRequest r s
  | .divertClearRequest core asid area => Sys2Proof.Machine.execDivertClearRequest core asid area s
  | .slotwRequest key d core v => Sys2Proof.Machine.execSlotwRequest key d core v s
  | .qcfgRequest key d core q v => Sys2Proof.Machine.execQcfgRequest key d core q v s
  | .walkEnd key => Sys2Proof.Machine.execWalkEnd key s
  | .presumeRelease name defer => Sys2Proof.Machine.execPresumeRelease name defer s
  | .giveRequest r => Sys2Proof.Machine.execGiveRequest r s
  | .giveEvent r => Sys2Proof.Machine.execGiveEvent r s
  | .giveAdmit core => Sys2Proof.Machine.execGiveAdmit core s
  | .takeRequest r => Sys2Proof.Machine.execTakeRequest r s
  | .linkTurnBoundary die port => Sys2Proof.Machine.execLinkTurnBoundary die port s
  | .turnSilenceEnd die port => Sys2Proof.Machine.execTurnSilenceEnd die port s
  | .flitArrival die port cls bad => Sys2Proof.Machine.execFlitArrival die port cls bad s
  | .flitReplay die port => Sys2Proof.Machine.execFlitReplay die port s
  | .returnFlitSend die port => Sys2Proof.Machine.execReturnFlitSend die port s
  | .returnFlitArrival die port good ret => Sys2Proof.Machine.execReturnFlitArrival die port good ret s
  | .auditFlitSend die port => Sys2Proof.Machine.execAuditFlitSend die port s
  | .auditFlitArrival die port sent => Sys2Proof.Machine.execAuditFlitArrival die port sent s
  | .permitBlockRetire die port => Sys2Proof.Machine.execPermitBlockRetire die port s
  | .partialArrival p => Sys2Proof.Machine.execPartialArrival p s
  | .rootResultWrite core ctx epoch v => Sys2Proof.Machine.execRootResultWrite core ctx epoch v s
  | .moduleFailure m => Sys2Proof.Machine.execModuleFailure m s
  | .clockSyncMessage ppm => Sys2Proof.Machine.execClockSyncMessage ppm s
  | .checkerMismatch key => Sys2Proof.Machine.execCheckerMismatch key s
  | .machineCheck key => Sys2Proof.Machine.execMachineCheck key s
  | .quarantine core cause => Sys2Proof.Machine.execQuarantine core cause s
  | .quarantineMapShift core => Sys2Proof.Machine.execQuarantineMapShift core s
  | .beatRetry core lane off givenUp => Sys2Proof.Machine.execBeatRetry core lane off givenUp s
  | .poolBlockRetire core block => Sys2Proof.Machine.execPoolBlockRetire core block s
  | .powerOvercurrent => Sys2Proof.Machine.execPowerOvercurrent s
  | .powerTrip => Sys2Proof.Machine.execPowerTrip s
  | .powerOnReset => Sys2Proof.Machine.execPowerOnReset s
  | .barnInterruptEntry core => Sys2Proof.Machine.execBarnInterruptEntry core s
  | .functionLevelReset vf => Sys2Proof.Machine.execFunctionLevelReset vf s
  | .getVersion => Sys2Proof.Machine.execGetVersion s
  | .getCapabilities => Sys2Proof.Machine.execGetCapabilities s
  | .negotiateAlgorithms => Sys2Proof.Machine.execNegotiateAlgorithms s
  | .getDigests => Sys2Proof.Machine.execGetDigests s
  | .getCertificate => Sys2Proof.Machine.execGetCertificate s
  | .challenge nonce => Sys2Proof.Machine.execChallenge nonce s
  | .getMeasurements => Sys2Proof.Machine.execGetMeasurements s
  | .illegalInstruction w => Sys2Proof.Machine.execIllegalInstruction w s
  | .fetchFault pc => Sys2Proof.Machine.execFetchFault pc s
  | .longLatencyResultArrival key wid => Sys2Proof.Machine.execLongLatencyResultArrival key wid s
  | .levelledEntryArrival core q src entry => Sys2Proof.Machine.execLevelledEntryArrival core q src entry s
  | .killThreadArrival key d asid name => Sys2Proof.Machine.execKillThreadArrival key d asid name s
  | .portTrainingChange die port up => Sys2Proof.Machine.execPortTrainingChange die port up s

end Sys2Proof.Machine
end

