-- ==== Sys2Proof/Machine/Schedule.lean ====
section
/-! DEFINITION. Which step of the module comes next: the steps due, the steps under way in a free order that keeps the
orders the rules state (Machine/Ports.lean), the core cycle and the shared clock (R24 to R26), and what a thread
does with its issue opportunity (R181, R281 to R283), up to the fetch of its instruction. -/

namespace Sys2Proof.Machine

/-- The step under way that number n chooses: the earliest of its stream. -/
def chosenWork (s : State) (n : Nat) : Option Event := (s.work[n]?).map (streamHead s.work.length s.work)

/-! The order of the steps that reach one queue in one ck (R366), and one plot (R266). -/

/-- The queues of a core that its vector unit's channels are. -/
def channelQueues (core : Nat) : List Nat := (upTo 8).map fun j => 16 * core + 8 + j

/-- What a step reaches, queue q of a core as 16 × core + q and a plot as 2 ^ 16 + 8 × die + plot, and its rank there: engine
commands and completions 2, network arrivals 3, levelling 4; at a plot its thread. Thread instructions come before. -/
def reaches (s : State) : Event → List Nat × Nat
  | .vectorBeat core => (channelQueues core, 2)
  | .vectorOpComplete core _ => ([16 * core + 5], 2)
  | .copyOpComplete core _ => ([16 * core + 6], 2)
  | .matrixCmdComplete core => ((quadCores (dieOf core) (quadOf core)).map (16 * · + 7), 2)
  | .repReissue key => ([5, 6, 7].map (16 * coreOf key + ·), 2)
  | .messageArrival m => ([16 * msgCore m + msgClass m], 3)
  | .inboxResend m _ => ([16 * msgCore m + msgClass m], 3)
  | .qcfgRequest _ _ core q _ => ([16 * core + q], 3)
  | .migrationPacketArrival p _ => ([16 * p.dst + 3], 3)
  | .packetTake core => ([16 * core + 3], 3)
  | .channelEntryMove core ch =>
    let w := qcfgOf (s.core core) (8 + ch)
    ([16 * core + 8 + ch, 16 * qPeerCore w + 8 + qPeerChannel w], 3)
  | .levelledEntryArrival core q _ _ => ([16 * core + q], 4)
  | .meadowApply r => ([plotRank r.die r.plot], 1 + r.key)
  | _ => ([], 0)

/-- A step may come now: what it reaches has met no step of a higher rank in this ck. -/
def inRank (s : State) (e : Event) : Bool := (reaches s e).1.all fun q => decide (tabGet 0 s.ranks q ≤ (reaches s e).2)

/-- It has come. -/
def ranked (s : State) (e : Event) : State :=
  { s with ranks := (reaches s e).1.foldl (fun t q => tabSet t q (reaches s e).2) s.ranks }

/-! The way of a step between dies (R433, R434, R440). -/

/-- The ports that a step passes, its class, and its number of flits; a step that no other die sees has
none. Which traffic is not counted is said in the log (log 18, DESIGN CHOICE). The data of a copy pass with its elements (Machine/Copy.lean). -/
def routeOf (s : State) : Event → List (Nat × Nat) × Nat × Nat
  | .messageArrival m => (hops m.src (msgCore m), msgClass m, 1)
  | .inboxResend m _ => (hops m.src (msgCore m), msgClass m, 1)
  | .staleResponse m => (hops (msgCore m) m.src, 1, 1)
  | .remoteRequestArrival r => (hops (coreOf r.key) r.home, 2, 1)
  | .resultArrival r => (hops r.home (coreOf r.key), 1, 1)
  | .takeRequest r => (hops (coreOf r.key) r.home, 2, 1)
  | .giveRequest r => (hops (coreOf r.key) r.home, 2, 1)
  | .slotwRequest key _ core _ => (hops (coreOf key) core, 0, 1)
  | .qcfgRequest key _ core _ _ => (hops (coreOf key) core, 0, 1)
  | .ctxsaveRequest r => (hops (coreOf r.key) r.core, 0, 1)
  | .ctxloadRequest r => (if r.mode = 0#2 then hops (coreOf r.key) r.core else [], 0, 1)
  | .divertClearRequest core _ _ src => (hops src core, 0, 1)
  | .presumeRelease name _ die => (hops (256 * die) (nameCore name.toNat), 0, 1)
  | .answerArrival src key _ _ => (hops src (coreOf key), 1, 1)
  | .migrationPacketArrival p _ => (hops (coreOf p.src) p.dst, 3, 2)
  | .migrationRefusalReturn p _ => (hops p.dst (coreOf p.src), 1, 1)
  | .partialArrival p => (hops p.src p.core, 3, 1)
  | .partialLeaves p port => ([(dieOf p.src, port)], 3, 1)
  | .levelledEntryArrival core _ src _ => (hops src core, 3, 1)
  | .rootResultWrite core ctx _ v => (rootWay s core ctx v, 2, 1)
  | _ => ([], 0, 0)

/-- One turn of step e, which is under way, on its way between dies. -/
def passStep (s : State) (e : Event) : Passage :=
  let r := routeOf s e
  pass s e r.1 r.2.1 r.2.2

/-- Step e has run, from s to s': unless it waits on where it was, its way is over. -/
def arrived (e : Event) (s s' : State) : State := if s'.work.count e == s.work.count e then s' else dropTransit s' e

/-- Steps that are under way no more are on no way. -/
def keepTransit (s : State) : State :=
  if s.transit = [] then s
  else { s with transit := s.transit.filter fun x => s.work.contains x.event || copyMoves s x.event }

/-- An entry or packet that its addressee refused is not sent again yet (R365). -/
def notYet (s : State) : Event → Bool
  | .inboxResend _ ck => decide (s.ck < ck)
  | .migrationPacketArrival _ ck => decide (s.ck < ck)
  | _ => false

/-! Cores and cycles. -/

/-- A core that issues: not held in reset, good, and its die not retired (R463, R486, R492). -/
def coreLives (s : State) (n : Nat) (c : Core) : Bool :=
  !c.heldInReset && c.health == .good && (isSystem n || !s.dieRetired (dieOf n))

/-- The thread whose opportunity the present cycle is on a core, if any (R281). -/
def cycleThread (s : State) (x : Nat × Core) : Option Nat :=
  if !coreLives s x.1 x.2 then none
  else if isSystem x.1 then some (8 * x.1)
  else
    let e := tableEntry x.2.slottab (s.coreCk x.1 % 16)
    if e < 8 then some (8 * x.1 + e) else none

/-- The opportunities of the cycle, core by core. -/
def cycleThreads (s : State) : List Nat := s.cores.filterMap (cycleThread s)

/-- The one after the present thread's core; noThread at the end of the cycle. -/
def nextThread (s : State) : Nat :=
  ((cycleThreads { s with cores := (s.cores.dropWhile fun x => x.1 != coreOf s.cur).tail }).head?).getD noThread

/-- The compute cores that run (R282). -/
def computeCores (s : State) : List Nat :=
  (s.cores.filter fun x => isCompute x.1 && coreLives s x.1 x.2).map (·.1)

/-- What a new cycle brings on each core, by the core's own ck (R281): the frame boundary and the refill (R219, R282). -/
def cycleEvents (s : State) : List Event :=
  (computeCores s).flatMap fun c =>
    (if s.coreCk c % 16 = 0 then [Event.frameBoundary c] else []) ++
      (if s.coreCk c % 256 = 0 then [Event.energyRefill c] else [])

/-- The balancing intervals of the ck (R341): its last steps (R366). -/
def intervals (s : State) : List Event :=
  ((computeCores s).filter fun c => s.coreCk c % 4096 == 0).map Event.balancingInterval

/-- The quads whose four cores are arrived at the end of the ck, behind its withdrawals and arrivals (R247). -/
def gangReleases (s : State) : List Event :=
  ((computeCores s).filter fun c =>
    c == (quadCores (dieOf c) (quadOf c)).headD 0 && (quadCores (dieOf c) (quadOf c)).all fun x => (s.core x).arrived).map
      fun c => .gangRelease (dieOf c) (quadOf c)

/-- An edge of the shared clock on a die: its plots, its launch pool, and every 250 ns its links (R271, R309, R437). -/
def dieEdge (s : State) (d : Nat) : State :=
  if s.dieRetired d then groupsEdge s d
  else
    let s := groupsEdge (poolEdge (meadowEdge s d) d) d
    if s.time.toNat % 250 = 0 then
      { s with due := s.due ++ [.linkTurnBoundary d 0, .linkTurnBoundary d 1, .linkTurnBoundary d 2] }
    else s

/-- An edge of the shared clock (R25). -/
def clockEdge (s : State) : State :=
  let s := { s with time := s.time + 1#64 }
  let s := (upTo 4).foldl dieEdge s
  if s.time.toNat % 1000000 = 0 then powerWindow s else s

/-- The ck's last steps: the releases of the gangs (R247), then the balancing intervals (R366); shipped entries enter their
outbound queues (R361). -/
def closeCycle (s : State) : State :=
  let s := shipAll s
  { s with due := s.due ++ gangReleases s ++ intervals s, cur := closing }

/-- The next core cycle begins (R24): 2.1 cycles make one edge, at the rate the clock is slewed to (R26). -/
def endCycle (s : State) : State :=
  let phase := s.phase + (10 * (1000000 + s.ppm)).toNat
  let s := { s with ck := s.ck + 1, cur := opening, sticky := [], ranks := [], erring := [] }
  let s := { s with due := s.due ++ cycleEvents s }
  if 21000000 ≤ phase then clockEdge { s with phase := phase - 21000000 } else { s with phase := phase }

/-- The first opportunity of the ck; noThread where it has none. -/
def openCycle (s : State) : State := { s with cur := (cycleThreads s).headD noThread }

/-- After an opportunity: the next thread's; after the last, the steps under way in the ck. -/
def advance (s : State) : State := { s with cur := nextThread s }

/-! The issue opportunity (R181, R283). -/

/-- Whether the slot's thread may issue at all: it runs, its residence runs, and it may issue in this frame. -/
def mayIssue (s : State) (k : Nat) : Bool :=
  let t := s.thr k
  let c := s.core (coreOf k)
  t.sstate == .run && (!userKey k || (c.residence == .running && !c.arming && !t.fresh))

/-- What an issue opportunity comes to before the fetch. -/
inductive Turn where
  | unused
  | serve
  | retry
  | kill
  | posted
  | notify
  | interrupt
  | deliver
  | issue
  deriving DecidableEq, Repr

/-- The first reason of R181 that applies at the opportunity of thread k, but that an instruction that the checker has issued
again comes first (R459); in slot 7 the work of the reduction server comes before
its thread (R447). While the thread waits for a fence, a vfence, a walk or an answer its opportunity is forfeited (R283), and a
POSTED trap, a user interrupt or a notification waits with it (log 30, DESIGN CHOICE: R181 and R283 do not say which comes
first). A slot that is exhausted still takes them: it forfeits only the issue of its instruction (log 39, DESIGN CHOICE: R181, R219 and
R283 do not say). -/
def turnOf (s : State) (k : Nat) : Turn :=
  let t := s.thr k
  if !isSystem (coreOf k) && slotOf k == 7 && !(s.core (coreOf k)).server.isEmpty then .serve
  else if !mayIssue s k then .unused
  else if t.killed && t.hold != .migrating then .kill
  else if t.toRetry.isSome then .retry
  else if t.hold != .none then .unused
  else if t.posted != [] && !(takesOwnTraps k && t.xin) then .posted
  else if !isSystem (coreOf k) && slotOf k == 7 && !t.xin && notified s (coreOf k) then .notify
  else if isSystem (coreOf k) && !t.xin && (barnSource s (coreOf k)).isSome then .interrupt
  else if !t.uin && (userSource t).isSome then .deliver
  else if asleep s k || (!isSystem (coreOf k) && (s.core (coreOf k)).exhausted.getLsbD (slotOf k)) then .unused
  else .issue

/-- What the fetch at a thread's pc comes to (R125, R405). -/
inductive Fetched where
  | fault
  | page (reason : Nat)
  | miss
  | word (w : IWord)
  deriving DecidableEq, Repr

def fetchAt (s : State) (k : Nat) : Fetched :=
  match fetchReach s k (s.thr k).pc with
  | .trap _ _ _ => .fault
  | .page r => .page r
  | .miss => .miss
  | .at p => .word (fetchWord s p.cell)

end Sys2Proof.Machine
end

