-- ==== Sys2Proof/Machine/Step.lean ====
section
/-! DEFINITION. One step of the module: a step that is due, a step under way, or the issue opportunity of one thread. -/

namespace Sys2Proof.Machine

/-- Go on with the next state of an outcome. -/
def andThen (f : State → State) : Out → Out
  | .next s => .next (f s)
  | .fault r => .fault r
  | .refused r => .refused r

/-- The thread whose opportunity it is fetches, and the instruction it finds is decoded and run. -/
def fetchStep (s : State) : Out :=
  match fetchAt s s.cur with
  | .fault => execFetchFault (s.thr s.cur).pc s
  | .page r => .next (pageFault s s.cur (s.thr s.cur).pc r kindFETCH)
  | .miss => .next (startWalk s s.cur (s.thr s.cur).pc kindFETCH)
  | .word w => match decode w with
    | some i => exec i s
    | none => execIllegalInstruction w s

/-- The issue opportunity of the thread s.cur (R181); the one that an issue that failed its check has used goes by (R459). -/
def turnStep (s : State) : Out :=
  let s := settleHold s s.cur
  match turnOf s s.cur with
  | .unused => .next s
  | .serve => serverStep s (coreOf s.cur)
  | .retry => .next (reissueOldest s s.cur)
  | .kill => execThreadEnd s.cur s
  | .posted => execPostedStoreTrap s.cur s
  | .notify => execHandlerEntry s.cur s
  | .interrupt => execBarnInterruptEntry (coreOf s.cur) s
  | .deliver => execUserInterruptDelivery s.cur s
  | .issue => if (s.thr s.cur).spent then .next (s.setThr s.cur { s.thr s.cur with spent := false }) else fetchStep s

/-- The next issue opportunity of the present cycle; behind the last, the cycle closes, the next begins, and its
opportunities come. -/
def issueStep (s : State) : Out :=
  if s.cur < noThread then andThen advance (turnStep s)
  else if s.cur = noThread then .next (closeCycle s)
  else if s.cur = closing then .next (endCycle s)
  else .next (openCycle s)

/-- Which step comes next where nothing is due: 0 an issue opportunity or the turn of the cycle, n + 1 the n-th step under way. A
step under way comes behind the opportunities of its ck, which stand together (log 2, DEDUCED). -/
def choiceOf (s : State) : Nat :=
  if s.work = [] ∨ s.cur ≠ noThread then 0 else Config.choice s.nonce % (s.work.length + 1)

/-- A step without what follows it. -/
def rawStep (s : State) : Out :=
  match s.due with
  | e :: es => runEvent e { s with due := es }
  | [] => match choiceOf s with
    | 0 => issueStep s.tick
    | n + 1 => match chosenWork s n with
      | some e =>
        if notYet s e || !inRank s e then .next s.tick
        else match passStep s.tick e with
          | .waits s => .next s
          | .arrives s => andThen (arrived e s) (runEvent e (ranked { s with work := s.work.erase e } e))
      | none => .next s.tick

/-- What every step is followed by: each await sees its word (R398), and what has left a pool leaves its blocks (R369). -/
def afterStep (s : State) : State := keepTransit (settlePools (wakeAwaits s))

/-- One step of the module. -/
def step (s : State) : Host.Outcome State Fault Refusal := andThen afterStep (rawStep s)

/-- The cell at which the first instruction of withFetchWord stands: Silo channel 0, offset 0. -/
def bootCell : Nat := 2 ^ 52

/-- The same machine with an instruction where the next step fetches: it stands for the load of a boot image
(log 21, DEDUCED). Nothing is due or under way, system core 0 alone issues, in the hypervisor view, at virtual address 0, which
the ROM's mapping puts at offset 0 of Silo channel 0; its thread keeps its registers, and waits for nothing. -/
def State.withFetchWord (s : State) (nbits w : Nat) : State :=
  let t := s.thr 8192
  let c := s.core 1024
  let c := { c with heldInReset := false, health := .good, tlb := bootEntry :: c.tlb }
  let s := s.setThr 8192 { t with
    sstate := .run, view := .hypervisor, pc := 0#64, windows := [], frozen := [], held := [], posted := [], hold := .none
    sleep := none, spent := false, killed := false, uip := 0#3 }
  { s with
    due := [], work := [], transit := [], erring := [], cur := 8192
    cores := (tabSet s.cores 1024 c).map fun x => if x.1 = 1024 then x else (x.1, { x.2 with heldInReset := true })
    mem := writeBytes s.mem bootCell 4 (w % 2 ^ nbits) }

end Sys2Proof.Machine
end

