-- ==== Sys2Proof/Safety.lean ====
section
/-! DEFINITION. The terms in which claims about the machine are stated: an instruction that may issue, and what a state
keeps. -/

namespace Sys2Proof.Machine

/-- Nothing stands between the thread s.cur and the effect of instruction i: no cause of R50, no open acquire that holds
back an access (R494), and for a long-latency instruction fewer than 8 open windows, frozen and held ones
among them (R38, R39). -/
def ready (i : Instr) (s : State) : Bool :=
  (issueCause i s s.cur).isNone && !(memoryInstr i && heldBack (s.thr s.cur)) &&
    (!isLong i || decide ((s.thr s.cur).allWindows.length < 8))

/-- A write to operand r by thread k remains: in this ck no write of a higher slot has landed in the shared register, nor
one of the same slot by a window's close before a result (R35). close: the write is a window's close. -/
def remains (close : Bool) (s : State) (k : Nat) (r : Reg) : Bool :=
  decide (r.toNat < 16) || !(s.core (coreOf k)).outranks s.ck (r.toNat - 16) (writeRank k close)

/-- The invariant of the memory: its one canonical form (log 5, DESIGN CHOICE). -/
def MemoryKept (s : State) : Prop := Memory.wf s.mem

end Sys2Proof.Machine
end

