-- ==== Sys2Proof/Certificates/Slice0/Obligations.lean ====
section
/-! DEFINITION. The statements for the provers. First the terms they share: what an instruction that issues leaves
behind, and the tables of the manual that give results. -/

open Sys2Proof Sys2Proof.Machine

namespace Sys2Proof.Machine

/-! The next states that the rules name. -/

/-- A short-latency instruction has issued and given operand d the value v (R33, R36): the pc is at the next word and
the open windows have counted it (R37). -/
def wrote (s : State) (d : Reg) (v : Word) : Out := .next (retire (writeReg s s.cur d v) s.cur)

/-- A short-latency instruction that writes no register has issued. -/
def passed (s : State) : Out := .next (retire s s.cur)

/-- Execution continues at byte address t. -/
def wentTo (s : State) (t : Int) : Out := .next (retireTo s s.cur (BitVec.ofInt 64 t) [])

/-- The exact trap at the instruction (R179): kind, DETAIL, TVAL. -/
def trapped (s : State) (kind detail : Nat) (tval : Word) : Out := .next (exactTrap s s.cur kind detail tval)

/-- A long-latency instruction with lookahead count lk has issued: a window for d is open, its result v is on its way
(R37, R495), and the counter's value names both. -/
def opened (s : State) (i : Instr) (d : Reg) (lk : BitVec 4) (v : Word) : Out :=
  .next (retireTo { s with nonce := s.nonce + 1, work := s.work ++ [.longLatencyResultArrival s.cur s.nonce] } s.cur
    ((s.thr s.cur).pc + 4#64)
    [{ id := s.nonce, dest := d, count := lk.toNat, event := false, holds := false, word := encode i,
       pc := (s.thr s.cur).pc, a := 0#64, b := 0#64, mismatch := false, retry := false, arrival := .later (.one v) }])

/-- The major opcode and fn of an instruction's word, with lookahead 0, which the decoder reads back (R30, R41). -/
def codedR (i : Instr) (op : BitVec 7) (fn : BitVec 6) : Prop :=
  opOf (encode i) = op ∧ fnOf (encode i) = fn ∧ lkOf (encode i) = 0#4 ∧ decode (encode i) = some i

/-- The same for a long-latency instruction, whose lookahead field is lk. -/
def codedL (i : Instr) (op : BitVec 7) (fn : BitVec 6) (lk : BitVec 4) : Prop :=
  opOf (encode i) = op ∧ fnOf (encode i) = fn ∧ lkOf (encode i) = lk ∧ decode (encode i) = some i

/-- The major opcode of an instruction's word, which the decoder reads back. -/
def codedM (i : Instr) (op : BitVec 7) : Prop := opOf (encode i) = op ∧ decode (encode i) = some i

/-! Tables of 05. -/

/-- A 64-bit amount of b[5:0]. -/
def amount (b : Word) : Nat := b.toNat % 64

/-- R106: the instruction, its fn, and the result from a, b and q. -/
def integerRows (d a b : Reg) : List (Instr × BitVec 6 × (Word → Word → Word → Word)) :=
  [(.add d a b, 0x00#6, fun x y _ => BitVec.ofNat 64 ((x.toNat + y.toNat) % 2 ^ 64)),
   (.sub d a b, 0x01#6, fun x y _ => BitVec.ofInt 64 (x.toInt - y.toInt)),
   (.and d a b, 0x02#6, fun x y _ => x &&& y),
   (.or d a b, 0x03#6, fun x y _ => x ||| y),
   (.xor d a b, 0x04#6, fun x y _ => x ^^^ y),
   (.sll d a b, 0x05#6, fun x y _ => BitVec.ofNat 64 (x.toNat * 2 ^ amount y)),
   (.srl d a b, 0x06#6, fun x y _ => BitVec.ofNat 64 (x.toNat / 2 ^ amount y)),
   (.sra d a b, 0x07#6, fun x y _ => BitVec.ofInt 64 (x.toInt / 2 ^ amount y)),
   (.min d a b, 0x08#6, fun x y _ => if x.toInt ≤ y.toInt then x else y),
   (.max d a b, 0x09#6, fun x y _ => if x.toInt ≤ y.toInt then y else x),
   (.minu d a b, 0x0A#6, fun x y _ => if x.toNat ≤ y.toNat then x else y),
   (.maxu d a b, 0x0B#6, fun x y _ => if x.toNat ≤ y.toNat then y else x),
   (.sel d a b, 0x0C#6, fun x y q => (x &&& q) ||| (y &&& ~~~q))]

/-- R107: floors of exact products. -/
def multiplyRows (d a b : Reg) (lk : BitVec 4) : List (Instr × BitVec 6 × (Word → Word → Word)) :=
  [(.mul d a b lk, 0x10#6, fun x y => BitVec.ofNat 64 (x.toNat * y.toNat % 2 ^ 64)),
   (.mulh d a b lk, 0x11#6, fun x y => BitVec.ofInt 64 (x.toInt * y.toInt / 2 ^ 64)),
   (.mulhu d a b lk, 0x12#6, fun x y => BitVec.ofNat 64 (x.toNat * y.toNat / 2 ^ 64))]

/-- The quotient of R108, truncated towards zero. -/
def truncated (x y : Word) : Int := Int.tdiv x.toInt y.toInt

/-- R108. -/
def divideRows (d a b : Reg) (lk : BitVec 4) : List (Instr × BitVec 6 × (Word → Word → Word)) :=
  [(.div d a b lk, 0x14#6, fun x y =>
      if y = 0#64 then 0xFFFFFFFFFFFFFFFF#64
      else if x.toInt = -(2 ^ 63) ∧ y.toInt = -1 then BitVec.ofInt 64 (-(2 ^ 63))
      else BitVec.ofInt 64 (truncated x y)),
   (.divu d a b lk, 0x15#6, fun x y =>
      if y = 0#64 then 0xFFFFFFFFFFFFFFFF#64 else BitVec.ofNat 64 (x.toNat / y.toNat)),
   (.rem d a b lk, 0x16#6, fun x y =>
      if y = 0#64 then x
      else if x.toInt = -(2 ^ 63) ∧ y.toInt = -1 then 0#64
      else BitVec.ofInt 64 (x.toInt - y.toInt * truncated x y)),
   (.remu d a b lk, 0x17#6, fun x y =>
      if y = 0#64 then x else BitVec.ofNat 64 (x.toNat - y.toNat * (x.toNat / y.toNat)))]

/-- The loop of bext (R110): d and k. -/
def bextLoop (x y : Word) : Nat × Nat :=
  (List.range 64).foldl (fun r i => if y.getLsbD i then (r.1 + (if x.getLsbD i then 2 ^ r.2 else 0), r.2 + 1) else r)
    (0, 0)

/-- The loop of bdep (R110): d and k. -/
def bdepLoop (x y : Word) : Nat × Nat :=
  (List.range 64).foldl (fun r i => if y.getLsbD i then (r.1 + (if x.getLsbD r.2 then 2 ^ i else 0), r.2 + 1) else r)
    (0, 0)

/-- The pointer with the tag of x and the address t, 0 ≤ t < 2^52 (R113). -/
def retagged (x : Word) (t : Int) : Word := BitVec.ofNat 64 (x.toNat / 2 ^ 52 * 2 ^ 52 + t.toNat)

/-- The value, or the ADDRESS trap with DETAIL 0 and TVAL x, by whether 0 ≤ t < 2^52. -/
def inRange (s : State) (d : Reg) (x : Word) (t : Int) : Out :=
  if 0 ≤ t ∧ t < 2 ^ 52 then wrote s d (retagged x t) else trapped s kindADDRESS 0 x

/-- The block-length log of R100 for a format code: none for a reserved code; the channel code is not here. -/
def logOf (f : Nat) : Option Nat := if f = 1 then some 3 else if f = 0 ∨ (2 ≤ f ∧ f ≤ 8) then some 0 else none

/-- Bytes per element of the formats of R100 that step whole bytes. -/
def stepOf (f : Nat) : Int := if f = 4 then 2 else if f = 5 then 4 else if f = 6 then 8 else 1

/-- The offset of element n in format f (R114); none where the index breaks the format's rule. -/
def offsetOf (f : Nat) (n : Int) : Option Int :=
  if f = 1 then (if n % 64 = 0 then some (n / 64 * 48) else none)
  else if f = 8 then (if n % 2 = 0 then some (n / 2) else none)
  else some (n * stepOf f)

/-- The fields of a tag (R100): format code, log, zero bits. -/
def tagFields (w : Nat) : Nat × Nat × Nat := (w / 64 % 64, w / 8 % 8, w % 8)

/-- pidx (R114), with the trap's TVAL the operand a. -/
def pidxAnswer (s : State) (d : Reg) (x : Word) (n : Int) : Out :=
  let t := tagFields (x.toNat / 2 ^ 52)
  if t.2.2 = 0 ∧ logOf t.1 = some t.2.1 then
    match offsetOf t.1 n with
    | some off => inRange s d x ((x.toNat % 2 ^ 52 : Nat) + off)
    | none => trapped s kindADDRESS 0 x
  else trapped s kindADDRESS 0 x

/-- ptagset (R115), with the trap's TVAL the operand b (R493). -/
def ptagsetAnswer (s : State) (d : Reg) (x y : Word) : Out :=
  let t := tagFields (y.toNat % 2 ^ 12)
  if y.toNat < 2 ^ 12 ∧ t.2.2 = 0 ∧ (logOf t.1 = some t.2.1 ∨ t.1 = 0x3F ∧ t.2.1 = 0) then
    wrote s d (BitVec.ofNat 64 (y.toNat * 2 ^ 52 + x.toNat % 2 ^ 52))
  else trapped s kindADDRESS 0 y

/-- A branch (R31, R121): taken when c holds. -/
def branched (s : State) (c : Bool) (disp : Int) : Out :=
  let t : Int := (s.thr s.cur).pc.toNat + 4 * disp
  if c then (if 0 ≤ t ∧ t < 2 ^ 52 then wentTo s t else trapped s kindADDRESS 0 (BitVec.ofInt 64 t)) else passed s

/-- R121 and R122: the branch, its major, and when it is taken. -/
def branchRows (a b : Reg) (disp : BitVec 15) : List (Instr × BitVec 7 × (Word → Word → Bool)) :=
  [(.beq a b disp, 0x30#7, fun x y => decide (x = y)),
   (.bne a b disp, 0x31#7, fun x y => decide (x ≠ y)),
   (.blt a b disp, 0x32#7, fun x y => decide (x.toInt < y.toInt)),
   (.bge a b disp, 0x33#7, fun x y => decide (x.toInt ≥ y.toInt)),
   (.bltu a b disp, 0x34#7, fun x y => decide (x.toNat < y.toNat)),
   (.bgeu a b disp, 0x35#7, fun x y => decide (x.toNat ≥ y.toNat)),
   (.bbs a b disp, 0x36#7, fun x y => x.getLsbD (amount y)),
   (.bbc a b disp, 0x37#7, fun x y => !x.getLsbD (amount y))]

end Sys2Proof.Machine

/-! Decoding and stepping. -/

/-- Every word that the encoder gives is read back as its instruction, with every operand (R30 to R49). -/
def Obligations.DecodeEncode : Prop := ∀ i : Instr, isWord i = true → decode (encode i) = some i

/-- Every word that the decoder reads is the word of the instruction it reads: no bit is dropped, and no word of the
opcode table has two readings. -/
def Obligations.EncodeDecode : Prop := ∀ (w : IWord) (i : Instr), decode w = some i → isWord i = true ∧ encode i = w

/-- Words put together bit by bit from the formats of R30 and the opcodes of 02 and 05: major, registers, fn, lookahead; and two
that are no instruction. -/
def Obligations.SpecWords : Prop :=
  decode 0b0000001_00011_00001_00010_000000_0000#32 = some (.add 3#5 1#5 2#5) ∧
  decode 0b0000001_00011_00001_00010_001100_0000#32 = some (.sel 3#5 1#5 2#5) ∧
  decode 0b0000001_01001_00000_00001_010000_0101#32 = some (.mul 9#5 0#5 1#5 5#4) ∧
  decode 0b0001000_00001_01010_111111111111111#32 = some (.addi 1#5 10#5 (-1)) ∧
  decode 0b0110000_01010_01010_000000000000001#32 = some (.beq 10#5 10#5 1) ∧
  decode 0b0111000_0000000000000000000000010#32 = some (.jal 2) ∧
  decode 0b1111111_11111_11111_11111_111111_1111#32 = none ∧
  decode 0b0000001_00011_00001_00010_001101_0000#32 = none

/-- When nothing is due and the free choice falls on an issue opportunity, and the thread whose opportunity it is is at an
instruction that it may issue, the step is that instruction's exec, then the next opportunity is chosen; what follows every step
comes last: waiting threads are looked at, pools settle (R181, R281). -/
def Stated.StepRunsDecoded : Prop :=
  ∀ (s : State) (w : IWord) (i : Instr),
    let s' := settleHold s.tick s.cur
    s.due = [] → choiceOf s = 0 → s.cur < noThread → turnOf s' s.cur = .issue → (s'.thr s.cur).spent = false →
    fetchAt s' s.cur = .word w → decode w = some i → step s = andThen afterStep (andThen advance (exec i s'))

/-- Where the word at the pc is no instruction, the same step raises the illegal-instruction trap (R50). -/
def Stated.StepMeetsIllegal : Prop :=
  ∀ (s : State) (w : IWord),
    let s' := settleHold s.tick s.cur
    s.due = [] → choiceOf s = 0 → s.cur < noThread → turnOf s' s.cur = .issue → (s'.thr s.cur).spent = false →
    fetchAt s' s.cur = .word w → decode w = none →
    step s = andThen afterStep (andThen advance (.next (exactTrap s' s.cur kindILLEGAL (illegalCause w s' s.cur) (w.setWidth 64)))) ∧
    exec (.illegalInstruction w) { s' with cur := s.cur } =
      .next (exactTrap s' s.cur kindILLEGAL (illegalCause w s' s.cur) (w.setWidth 64))

/-! Scalar instructions (05). -/

/-- R106. -/
def Obligations.IntegerResults : Prop :=
  ∀ (s : State) (d a b : Reg), ∀ r ∈ integerRows d a b,
    codedR r.1 0x01#7 r.2.1 ∧
    (ready r.1 s = true →
      exec r.1 s = wrote s d (r.2.2 (readReg s s.cur a) (readReg s s.cur b) (s.thr s.cur).q))

/-- R107. -/
def Stated.MultiplyResults : Prop :=
  ∀ (s : State) (d a b : Reg) (lk : BitVec 4), ∀ r ∈ multiplyRows d a b lk,
    codedL r.1 0x01#7 r.2.1 lk ∧
    (ready r.1 s = true → exec r.1 s = opened s r.1 d lk (r.2.2 (readReg s s.cur a) (readReg s s.cur b)))

/-- R108. -/
def Stated.DivideResults : Prop :=
  ∀ (s : State) (d a b : Reg) (lk : BitVec 4), ∀ r ∈ divideRows d a b lk,
    codedL r.1 0x01#7 r.2.1 lk ∧
    (ready r.1 s = true → exec r.1 s = opened s r.1 d lk (r.2.2 (readReg s s.cur a) (readReg s s.cur b)))

/-- R109: the count n is at most 64, the bits beyond it are as the rule says, and it stops at a 1 or at 64. -/
def Stated.BitCounts : Prop :=
  ∀ (s : State) (d a : Reg),
    let x := readReg s s.cur a
    codedR (.clz d a) 0x02#7 0x00#6 ∧ codedR (.ctz d a) 0x02#7 0x01#6 ∧ codedR (.pop d a) 0x02#7 0x02#6 ∧
    (ready (.clz d a) s = true → ∃ n ≤ 64, exec (.clz d a) s = wrote s d (BitVec.ofNat 64 n) ∧
      (∀ j, 64 - n ≤ j → x.getLsbD j = false) ∧ (n < 64 → x.getLsbD (63 - n) = true)) ∧
    (ready (.ctz d a) s = true → ∃ n ≤ 64, exec (.ctz d a) s = wrote s d (BitVec.ofNat 64 n) ∧
      (∀ j, j < n → x.getLsbD j = false) ∧ (n < 64 → x.getLsbD n = true)) ∧
    (ready (.pop d a) s = true →
      exec (.pop d a) s = wrote s d (BitVec.ofNat 64 ((List.range 64).filter fun j => x.getLsbD j).length))

/-- R110. -/
def Stated.BitPacking : Prop :=
  ∀ (s : State) (d a b : Reg),
    let x := readReg s s.cur a
    let y := readReg s s.cur b
    codedR (.bext d a b) 0x02#7 0x03#6 ∧ codedR (.bdep d a b) 0x02#7 0x04#6 ∧
    (ready (.bext d a b) s = true → exec (.bext d a b) s = wrote s d (BitVec.ofNat 64 (bextLoop x y).1)) ∧
    (ready (.bdep d a b) s = true → exec (.bdep d a b) s = wrote s d (BitVec.ofNat 64 (bdepLoop x y).1))

/-- R111 and R112, with FIELD for a shift amount beyond 6 bits. -/
def Obligations.ImmediateResults : Prop :=
  (∀ (s : State) (d a : Reg) (imm : BitVec 15),
    let x := readReg s s.cur a
    codedM (.addi d a imm) 0x08#7 ∧ codedM (.andi d a imm) 0x09#7 ∧ codedM (.ori d a imm) 0x0A#7 ∧
    codedM (.xori d a imm) 0x0B#7 ∧ codedM (.paddi d a imm) 0x0F#7 ∧
    (ready (.addi d a imm) s = true → exec (.addi d a imm) s = wrote s d (BitVec.ofInt 64 (x.toInt + imm.toInt))) ∧
    (ready (.andi d a imm) s = true → exec (.andi d a imm) s = wrote s d (x &&& BitVec.ofInt 64 imm.toInt)) ∧
    (ready (.ori d a imm) s = true → exec (.ori d a imm) s = wrote s d (x ||| BitVec.ofInt 64 imm.toInt)) ∧
    (ready (.xori d a imm) s = true → exec (.xori d a imm) s = wrote s d (x ^^^ BitVec.ofInt 64 imm.toInt)) ∧
    (ready (.paddi d a imm) s = true →
      exec (.paddi d a imm) s = inRange s d x ((x.toNat % 2 ^ 52 : Nat) + imm.toInt))) ∧
  (∀ (s : State) (d a : Reg) (n : BitVec 6),
    let x := readReg s s.cur a
    codedM (.slli d a n) 0x0C#7 ∧ codedM (.srli d a n) 0x0D#7 ∧ codedM (.srai d a n) 0x0E#7 ∧
    (ready (.slli d a n) s = true → exec (.slli d a n) s = wrote s d (BitVec.ofNat 64 (x.toNat * 2 ^ n.toNat))) ∧
    (ready (.srli d a n) s = true → exec (.srli d a n) s = wrote s d (BitVec.ofNat 64 (x.toNat / 2 ^ n.toNat))) ∧
    (ready (.srai d a n) s = true → exec (.srai d a n) s = wrote s d (BitVec.ofInt 64 (x.toInt / 2 ^ n.toNat)))) ∧
  (∀ (s : State) (k : Nat) (w : IWord), opOf w ∈ [0x0C#7, 0x0D#7, 0x0E#7] → 64 ≤ (immOf w).toNat →
    decode w = none ∧ illegalCause w s k = causeFIELD) ∧
  (∀ (s : State) (d : Reg) (imm : BitVec 20), codedM (.lui d imm) 0x10#7 ∧
    (ready (.lui d imm) s = true → exec (.lui d imm) s = wrote s d (BitVec.ofInt 64 (imm.toInt * 2 ^ 15))))

/-- R113, R114, R115: the pointer instructions, with their ADDRESS traps. -/
def Obligations.PointerResults : Prop :=
  ∀ (s : State) (d a b : Reg),
    let x := readReg s s.cur a
    let y := readReg s s.cur b
    codedR (.padd d a b) 0x03#7 0x00#6 ∧ codedR (.pidx d a b) 0x03#7 0x01#6 ∧ codedR (.ptag d a) 0x03#7 0x02#6 ∧
    codedR (.ptagset d a b) 0x03#7 0x03#6 ∧
    (ready (.padd d a b) s = true → exec (.padd d a b) s = inRange s d x ((x.toNat % 2 ^ 52 : Nat) + y.toInt)) ∧
    (ready (.pidx d a b) s = true → exec (.pidx d a b) s = pidxAnswer s d x y.toInt) ∧
    (ready (.ptag d a) s = true → exec (.ptag d a) s = wrote s d (BitVec.ofNat 64 (x.toNat / 2 ^ 52))) ∧
    (ready (.ptagset d a b) s = true → exec (.ptagset d a b) s = ptagsetAnswer s d x y)

/-- R121 and R122, with the target rule of R31. -/
def Stated.BranchResults : Prop :=
  ∀ (s : State) (a b : Reg) (disp : BitVec 15), ∀ r ∈ branchRows a b disp,
    codedM r.1 r.2.1 ∧
    (ready r.1 s = true → exec r.1 s = branched s (r.2.2 (readReg s s.cur a) (readReg s s.cur b)) disp.toInt)

/-- R123 and R124: the links and the targets; a target that traps writes no link. -/
def Stated.JumpResults : Prop :=
  (∀ (s : State) (disp : BitVec 25),
    let pc := (s.thr s.cur).pc
    let t : Int := pc.toNat + 4 * disp.toInt
    codedM (.jal disp) 0x38#7 ∧
    (ready (.jal disp) s = true → exec (.jal disp) s =
      if 0 ≤ t ∧ t < 2 ^ 52 then wentTo (writeReg s s.cur 9#5 (pc + 4#64)) t
      else trapped s kindADDRESS 0 (BitVec.ofInt 64 t))) ∧
  (∀ (s : State) (d a : Reg) (imm : BitVec 15),
    let pc := (s.thr s.cur).pc
    let t : Int := ((readReg s s.cur a).toNat % 2 ^ 52 : Nat) + imm.toInt
    codedM (.jalr d a imm) 0x39#7 ∧
    (ready (.jalr d a imm) s = true → exec (.jalr d a imm) s =
      if 0 ≤ t ∧ t < 2 ^ 52 ∧ t % 4 = 0 then wentTo (writeReg s s.cur d (pc + 4#64)) t
      else trapped s kindADDRESS 0 (BitVec.ofInt 64 t)))

/-! Numbers (04) and scalar floating point. -/

namespace Sys2Proof.Machine

/-- One loop of R87 on natural numbers below 2^32: a, b, c, d. -/
def drawLoop (r : Nat × Nat × Nat × Nat) (k : Nat) : Nat × Nat × Nat × Nat :=
  let rotl := fun (v n : Nat) => v * 2 ^ n % 2 ^ 32 + v / 2 ^ (32 - n)
  let a := (r.1 + r.2.1 + (k + 1) * 0x9E3779B9) % 2 ^ 32
  let d := rotl (Nat.xor r.2.2.2 a) 11
  let c := (r.2.2.1 + d) % 2 ^ 32
  (a, rotl (Nat.xor r.2.1 c) 19, c, d)

/-- u of R87. -/
def drawNumber (seed thread ctr elem : Nat) : Nat :=
  let r := [0, 1, 2, 3].foldl drawLoop (Nat.xor (seed % 2 ^ 32) elem, seed / 2 ^ 32, thread, ctr)
  Nat.xor r.1 r.2.2.1

/-- The integer that a directed mode gives for n / d (R84): down, up, towards zero. -/
def directedInt (mode : Nat) (n : Int) (d : Nat) : Int :=
  if mode = 2 then n / d else if mode = 3 then -(-n / d) else Int.tdiv n d

/-- The operand of a scalar format in a register (R102): FP32 in bits 31:0, FP64 in all. -/
def opS (s : State) (r : Reg) : Val := Fmt.value .fp32 ((readReg s s.cur r).toNat % 2 ^ 32)
def opD (s : State) (r : Reg) : Val := Fmt.value .fp64 (readReg s s.cur r).toNat

/-- The rounding that an instruction's mode field asks for: its draw has the thread's counter and element 0 (R120). -/
def roundingOf (s : State) (rm : BitVec 3) : Rounding :=
  ⟨rm, draw (s.core (coreOf s.cur)).rseed (s.thr s.cur).tnum (s.thr s.cur).seq 0⟩

/-- The counter after a drawing instruction (R88, R120). -/
def drew (s : State) (rm : BitVec 3) : State :=
  if rm = 4#3 then s.setThr s.cur { s.thr s.cur with seq := (s.thr s.cur).seq + 1#32 } else s

/-- A value rounded to FP32 or FP64, as a register (R102: bits 63:32 of an FP32 result are 0). -/
def asS (r : Rounding) (v : Val) : Word := BitVec.ofNat 64 (roundTo .fp32 r v).1
def asD (r : Rounding) (v : Val) : Word := BitVec.ofNat 64 (roundTo .fp64 r v).1

/-- R116 and R117 in one format: the instruction, its operation number in fn[5:3], and the exact value. -/
def floatRowsS (d a b : Reg) (rm : BitVec 3) (lk : BitVec 4) (r : Rounding) (x y z : Val) :
    List (Instr × BitVec 7 × BitVec 3 × Val) :=
  [(.faddS d a b rm lk, 0x20#7, 0#3, (addVal r x y).1), (.fsubS d a b rm lk, 0x20#7, 1#3, (addVal r x (negVal y)).1),
   (.fmulS d a b rm lk, 0x20#7, 2#3, (mulVal x y).1), (.fdivS d a b rm lk, 0x20#7, 3#3, (divVal x y).1),
   (.fsqrtS d a rm lk, 0x20#7, 4#3, (sqrtVal x).1),
   (.fmaS d a b rm lk, 0x22#7, 0#3, (fmaVal r x y z).1), (.fmsS d a b rm lk, 0x22#7, 1#3, (fmaVal r x y (negVal z)).1),
   (.fnmaS d a b rm lk, 0x22#7, 2#3, (fmaVal r (negVal x) y (negVal z)).1),
   (.fnmsS d a b rm lk, 0x22#7, 3#3, (fmaVal r (negVal x) y z).1)]

def floatRowsD (d a b : Reg) (rm : BitVec 3) (lk : BitVec 4) (r : Rounding) (x y z : Val) :
    List (Instr × BitVec 7 × BitVec 3 × Val) :=
  [(.faddD d a b rm lk, 0x21#7, 0#3, (addVal r x y).1), (.fsubD d a b rm lk, 0x21#7, 1#3, (addVal r x (negVal y)).1),
   (.fmulD d a b rm lk, 0x21#7, 2#3, (mulVal x y).1), (.fdivD d a b rm lk, 0x21#7, 3#3, (divVal x y).1),
   (.fsqrtD d a rm lk, 0x21#7, 4#3, (sqrtVal x).1),
   (.fmaD d a b rm lk, 0x23#7, 0#3, (fmaVal r x y z).1), (.fmsD d a b rm lk, 0x23#7, 1#3, (fmaVal r x y (negVal z)).1),
   (.fnmaD d a b rm lk, 0x23#7, 2#3, (fmaVal r (negVal x) y (negVal z)).1),
   (.fnmsD d a b rm lk, 0x23#7, 3#3, (fmaVal r (negVal x) y z).1)]

/-- R119: the instruction, its pair of types in fn[5:3], and the register value. -/
def convertRows (d a : Reg) (rm : BitVec 3) (lk : BitVec 4) (s : State) : List (Instr × BitVec 3 × Word) :=
  let r := roundingOf s rm
  let n := (readReg s s.cur a)
  [(.fcvtSD d a rm lk, 0#3, asS r (opD s a)), (.fcvtDS d a rm lk, 1#3, asD r (opS s a)),
   (.fcvtSL d a rm lk, 2#3, asS r (intVal n.toInt)), (.fcvtDL d a rm lk, 3#3, asD r (intVal n.toInt)),
   (.fcvtLS d a rm lk, 4#3, BitVec.ofInt 64 (roundInt (-(2 ^ 63)) (2 ^ 63 - 1) r (opS s a)).1),
   (.fcvtLD d a rm lk, 5#3, BitVec.ofInt 64 (roundInt (-(2 ^ 63)) (2 ^ 63 - 1) r (opD s a)).1),
   (.fcvtDLu d a rm lk, 6#3, asD r (intVal n.toNat)),
   (.fcvtLuD d a rm lk, 7#3, BitVec.ofInt 64 (roundInt 0 (2 ^ 64 - 1) r (opD s a)).1)]

/-- Whether condition cc of R118 holds. -/
def condHolds (cc : BitVec 3) (x y : Val) : Prop :=
  match cc.toNat with
  | 0 => x ≠ .nan ∧ y ≠ .nan ∧ ltVal x y = false ∧ ltVal y x = false
  | 1 => x ≠ .nan ∧ y ≠ .nan ∧ ltVal x y = true
  | 2 => x ≠ .nan ∧ y ≠ .nan ∧ ltVal y x = false
  | _ => x = .nan ∨ y = .nan

end Sys2Proof.Machine

/-- R84: a representable value rounds to itself in every mode, with no flag, whatever the draw. -/
def Stated.RepresentableRounds : Prop :=
  ∀ (f : Fmt) (r : Rounding) (c : Nat), c < 2 ^ (f.signBit + 1) → f.value c ≠ .nan →
    roundTo f r (f.value c) = (c, 0#5)

/-- R84 and R85 for an integer destination: a directed mode gives the adjacent integer of its direction, saturated at the
limits. -/
def Stated.DirectedIntegers : Prop :=
  ∀ (mode : BitVec 3) (u : BitVec 32) (lo hi n : Int) (d : Nat), 1 ≤ mode.toNat → mode.toNat ≤ 3 → 0 < d → lo ≤ 0 →
    0 ≤ hi →
    let v := directedInt mode.toNat n d
    (roundInt lo hi ⟨mode, u⟩ (.fin (decide (n < 0)) (.rat n.natAbs d))).1 = if v < lo then lo else if hi < v then hi else v

/-- R87: the draw is the four-round loop on 32-bit numbers. -/
def Stated.DrawLoop : Prop :=
  ∀ (seed : Word) (thread : BitVec 16) (ctr : BitVec 32) (elem : Nat), elem < 2 ^ 32 →
    (draw seed thread ctr elem).toNat = drawNumber seed.toNat thread.toNat ctr.toNat elem

/-- R116, R117, R120 in FP32: the exact value is rounded once in the mode of fn[2:0]; the addend of the fma forms is d,
read at issue; the mode 4 draws and counts the draw. fmin and fmax take a NaN operand to NaN, −0 below +0, and never
draw. -/
def Stated.FloatSingle : Prop :=
  ∀ (s : State) (d a b : Reg) (rm : BitVec 3) (lk : BitVec 4),
    let r := roundingOf s rm
    (∀ w ∈ floatRowsS d a b rm lk r (opS s a) (opS s b) (opS s d),
      codedL w.1 w.2.1 (w.2.2.1 ++ rm) lk ∧
      (ready w.1 s = true → exec w.1 s = opened (drew s rm) w.1 d lk (asS r w.2.2.2))) ∧
    codedL (.fminS d a b lk) 0x20#7 0b101000#6 lk ∧ codedL (.fmaxS d a b lk) 0x20#7 0b110000#6 lk ∧
    (ready (.fminS d a b lk) s = true →
      exec (.fminS d a b lk) s = opened s (.fminS d a b lk) d lk (asS nearest (minVal (opS s a) (opS s b)))) ∧
    (ready (.fmaxS d a b lk) s = true →
      exec (.fmaxS d a b lk) s = opened s (.fmaxS d a b lk) d lk (asS nearest (maxVal (opS s a) (opS s b))))

/-- The same in FP64. -/
def Stated.FloatDouble : Prop :=
  ∀ (s : State) (d a b : Reg) (rm : BitVec 3) (lk : BitVec 4),
    let r := roundingOf s rm
    (∀ w ∈ floatRowsD d a b rm lk r (opD s a) (opD s b) (opD s d),
      codedL w.1 w.2.1 (w.2.2.1 ++ rm) lk ∧
      (ready w.1 s = true → exec w.1 s = opened (drew s rm) w.1 d lk (asD r w.2.2.2))) ∧
    codedL (.fminD d a b lk) 0x21#7 0b101000#6 lk ∧ codedL (.fmaxD d a b lk) 0x21#7 0b110000#6 lk ∧
    (ready (.fminD d a b lk) s = true →
      exec (.fminD d a b lk) s = opened s (.fminD d a b lk) d lk (asD nearest (minVal (opD s a) (opD s b)))) ∧
    (ready (.fmaxD d a b lk) s = true →
      exec (.fmaxD d a b lk) s = opened s (.fmaxD d a b lk) d lk (asD nearest (maxVal (opD s a) (opD s b))))

/-- R118 and R119: all ones or 0 by the condition; the conversions, rounded in their mode, with saturation to an
integer type. A NaN gives 0 there, and a draw is counted where the mode is 4. -/
def Obligations.FloatCompareConvert : Prop :=
  ∀ (s : State) (d a b : Reg) (cc rm : BitVec 3) (lk : BitVec 4),
    codedL (.fcmpS d a b cc lk) 0x24#7 (0#3 ++ cc) lk ∧ codedL (.fcmpD d a b cc lk) 0x24#7 (4#3 ++ cc) lk ∧
    (ready (.fcmpS d a b cc lk) s = true →
      (condHolds cc (opS s a) (opS s b) → exec (.fcmpS d a b cc lk) s = opened s (.fcmpS d a b cc lk) d lk (BitVec.allOnes 64)) ∧
      (¬ condHolds cc (opS s a) (opS s b) → exec (.fcmpS d a b cc lk) s = opened s (.fcmpS d a b cc lk) d lk 0#64)) ∧
    (ready (.fcmpD d a b cc lk) s = true →
      (condHolds cc (opD s a) (opD s b) → exec (.fcmpD d a b cc lk) s = opened s (.fcmpD d a b cc lk) d lk (BitVec.allOnes 64)) ∧
      (¬ condHolds cc (opD s a) (opD s b) → exec (.fcmpD d a b cc lk) s = opened s (.fcmpD d a b cc lk) d lk 0#64)) ∧
    (∀ w ∈ convertRows d a rm lk s,
      codedL w.1 0x25#7 (w.2.1 ++ rm) lk ∧
      (ready w.1 s = true → exec w.1 s = opened (drew s rm) w.1 d lk w.2.2))

/-! Registers, windows, waiting (02, 05). -/

namespace Sys2Proof.Machine

/-- hit of R127: the latch bits that the mask selects; with mask bit 0, bit 0 once TIME has reached x. -/
def hitAt (latch mask : BitVec 5) (now x : Word) : BitVec 5 :=
  (latch &&& mask &&& 0b11110#5) ||| (if mask.getLsbD 0 = true ∧ x.toNat ≤ now.toNat then 1#5 else 0#5)

/-- The outcome of wait and yield: the hit bits go to d and leave the latch, or the thread sleeps at the instruction, which
names the register of its time. -/
def waited (s : State) (d a : Reg) (mask : BitVec 5) (asYield : Bool) : Out :=
  let t := s.thr s.cur
  let hit := hitAt t.latch mask s.time (readReg s s.cur a)
  if hit = 0#5 then .next (s.setThr s.cur { t with sleep := some ⟨asYield, mask, a⟩ })
  else wrote (s.setThr s.cur { t with latch := t.latch &&& ~~~hit }) d (hit.setWidth 64)

/-- Everything of a state but its threads and cores. -/
def restOf (s : State) : State := { s with threads := [], cores := [] }

/-- A thread without its windows and without what it has when an instruction issues. -/
def Thread.still (t : Thread) : Thread :=
  { t with pc := 0#64, windows := [], stay := false, mismatch := false, sleep := none }

/-- The windows after one more instruction has issued (R37). -/
def counted (ws : List Window) : List Window := ws.map fun w => { w with count := w.count - 1 }

end Sys2Proof.Machine

/-- R33, R35, and the SREG event of R126: what a register code reads and what writing it changes, by an instruction's result
or by a window's close. Of two writes to one shared register in one ck that of the higher slot remains, and of one slot's
that of the close. -/
def Obligations.RegisterCodes : Prop :=
  ∀ (close : Bool) (s : State) (k : Nat) (r : Reg) (v : Word),
    let u := putReg close s k r v
    (r = 10#5 → readReg s k r = 0#64 ∧ u = s) ∧
    (∀ h : r.toNat < 10, readReg s k r = (s.thr k).p[r.toNat]) ∧
    (r = 11#5 → readReg s k r = (s.thr k).q) ∧
    (∀ h : 16 ≤ r.toNat, readReg s k r = (s.core (coreOf k)).sbank[r.toNat - 16]'(by omega)) ∧
    (regOk r = true ↔ ¬ (12 ≤ r.toNat ∧ r.toNat ≤ 15)) ∧
    (regOk r = true → r ≠ 10#5 → readReg u k r = if remains close s k r then v else readReg s k r) ∧
    (∀ r', r' ≠ r → readReg u k r' = readReg s k r') ∧
    (r.toNat < 16 → remains close s k r = true ∧ ∀ k', k' ≠ k → u.thr k' = s.thr k') ∧
    (16 ≤ r.toNat → remains close s k r = true → ∀ k' close', coreOf k' = coreOf k →
      readReg u k' r = v ∧
      (slotOf k' < slotOf k → remains close' u k' r = false) ∧ (slotOf k < slotOf k' → remains close' u k' r = true) ∧
      remains true u k r = true ∧ remains false u k r = !close) ∧
    (16 ≤ r.toNat → (∀ k', coreOf k' = coreOf k → k' ≠ k → (s.thr k').sstate ≠ .empty →
      u.thr k' = { s.thr k' with latch := (s.thr k').latch ||| 2#5 })) ∧
    (∀ s' : State, (∀ c, s'.core c = s.core c) → s'.ck ≠ s.ck → (∀ j : Fin 16, (s.core (coreOf k)).slast[j].1 ≤ s.ck) →
      s.ck ≤ s'.ck → remains close s' k r = true) ∧
    (∀ k', coreOf k' ≠ coreOf k → u.thr k' = s.thr k') ∧ (∀ c, c ≠ coreOf k → u.core c = s.core c) ∧
    restOf u = restOf s

/-- A register field that holds a reserved code, or a pair that breaks R34, raises OPERAND where the fields are in order
and the thread may use the instruction (R33, R34, R50). -/
def Stated.OperandTrap : Prop :=
  ∀ (i : Instr) (s : State), isWord i = true → fieldsOk i = true → operandsOk i = false →
    (isSystem (coreOf s.cur) = true → unitWord (encode i) = false) →
    (privilegedInstr i = true → (s.thr s.cur).view ≠ .user) → issueCause i s s.cur = some 3

/-- R37: an instruction that issues counts once for each open window and opens its own behind them; where every count
stays above 0, nothing is written. -/
def Stated.WindowsCount : Prop :=
  ∀ (s : State) (k : Nat) (pc : Word) (new : List Window),
    (∀ w ∈ (s.thr k).windows, 2 ≤ w.count) → (∀ w ∈ new, 1 ≤ w.count) →
    let u := retireTo s k pc new
    (u.thr k).windows = counted (s.thr k).windows ++ new ∧ (u.thr k).pc = pc ∧ (u.thr k).still = (s.thr k).still ∧
    (∀ k', k' ≠ k → u.thr k' = s.thr k') ∧ (∀ c, u.core c = s.core c) ∧ restOf u = restOf s

/-- R37, R35: the oldest window, whose count runs out with this instruction, writes its result, which replaces whatever the
window wrote there unless a higher slot's write has landed in the shared register in this ck; where its result has not
arrived the thread issues nothing more. -/
def Stated.WindowCloses : Prop :=
  ∀ (s : State) (k : Nat) (w : Window) (ws : List Window) (r : Reg),
    (s.thr k).windows = w :: ws → w.count = 1 → (∀ x ∈ ws, 2 ≤ x.count) →
    let u := retire s k
    (∀ v, w.arrival = .ready (.one v) → regOk w.dest = true → w.dest ≠ 10#5 →
      (u.thr k).windows = counted ws ∧
        readReg u k r = if r = w.dest ∧ remains true s k r = true then v else readReg s k r) ∧
    (w.waits = true → (u.thr k).windows = { w with count := 0 } :: counted ws ∧ readReg u k r = readReg s k r ∧
      turnOf u k ≠ .issue)

/-- R495, R37, R39: the result of a window arrives. One whose count has run out closes then; one that is still counting
holds the result; the windows of an interrupted stream hold theirs. -/
def Obligations.ResultArrives : Prop :=
  ∀ (s : State) (k : Nat) (w : Window) (ws : List Window) (v : Word),
    w.arrival = .later (.one v) →
    ((s.thr k).windows = w :: ws → (s.thr k).held = [] → (s.thr k).frozen = [] →
      (∀ x ∈ ws, x.id ≠ w.id ∧ 1 ≤ x.count) → regOk w.dest = true → w.dest ≠ 10#5 →
      ∃ u, exec (.longLatencyResultArrival k w.id) s = .next u ∧
        (w.count = 0 → (u.thr k).windows = ws ∧
          ∀ r, readReg u k r = if r = w.dest ∧ remains true s k r = true then v else readReg s k r) ∧
        (w.count ≠ 0 → (u.thr k).windows = { w with arrival := .ready (.one v) } :: ws ∧
          ∀ r, readReg u k r = readReg s k r)) ∧
    ((s.thr k).windows = [] → (s.thr k).held = w :: ws → (s.thr k).frozen = [] → (∀ x ∈ ws, x.id ≠ w.id) →
      ∃ u, exec (.longLatencyResultArrival k w.id) s = .next u ∧ (u.thr k).windows = [] ∧
        (u.thr k).held = { w with arrival := .ready (.one v) } :: ws ∧ ∀ r, readReg u k r = readReg s k r)

/-- R38, R39: with 8 windows open, frozen and held ones among them, the oldest closes before a long-latency instruction
issues, as though its count had run out there: the instruction does what it does with the other seven open. While the
oldest waits for its result the opportunity is forfeited. One that then meets a trap, a walk or a forfeit has not issued, and
no window's result is written. -/
def Stated.OldestCloses : Prop :=
  ∀ (i : Instr) (s : State) (w : Window),
    isWord i = true → isLong i = true → issueCause i s s.cur = none →
    (memoryInstr i = true → heldBack (s.thr s.cur) = false) →
    (s.thr s.cur).allWindows.length = 8 → oldestWindow (s.thr s.cur) = some w →
    (w.waits = true → exec i s = .next s) ∧
    (∀ v, w.arrival = .ready (.one v) → (s.thr s.cur).posted = [] →
      let s' := closeOne s s.cur w (.one v)
      (s'.thr s.cur).allWindows = (s.thr s.cur).allWindows.filter (·.id != w.id) ∧
      (∀ u, exec i s' = .next u → hasIssued s' u s.cur = true → exec i s = .next u) ∧
      (∀ u, exec i s = .next u → hasIssued s u s.cur = false → (u.thr s.cur).xin = (s.thr s.cur).xin →
        ∀ r, readReg u s.cur r = readReg s s.cur r))

/-- R127 and R304: wait with the mask of its immediate and the time in a, yield with bits 4:1 of a and no time. A yield
without a mask writes 0 at once. A thread sleeps in wait for as long as no selected event has occurred, by the register as it
is at the moment. -/
def Stated.WaitYield : Prop :=
  ∀ (s : State) (d a : Reg) (mask : BitVec 5),
    let x := readReg s s.cur a
    let y := x.extractLsb' 0 5 &&& 0b11110#5
    codedM (.wait d a mask) 0x3A#7 ∧ codedR (.yield d a) 0x6D#7 0x03#6 ∧
    (ready (.wait d a mask) s = true → exec (.wait d a mask) s = waited s d a mask false) ∧
    (ready (.yield d a) s = true →
      exec (.yield d a) s = if y = 0#5 then wrote s d 0#64 else waited s d a y true) ∧
    (∀ k x, (s.thr k).sleep = some ⟨false, mask, x⟩ → (s.thr k).hold = .none → windowBlocked (s.thr k) = false →
      (asleep s k = true ↔ hitAt (s.thr k).latch mask s.time (readReg s k x) = 0#5))

/-- R303: pin returns the old mark and sets it from a[0]; a system core's thread gets 1 and nothing changes. -/
def Stated.PinMark : Prop :=
  ∀ (s : State) (d a : Reg), codedR (.pin d a) 0x6D#7 0x05#6 ∧
    (ready (.pin d a) s = true → exec (.pin d a) s =
      if 1024 ≤ coreOf s.cur then wrote s d 1#64
      else wrote (s.setThr s.cur { s.thr s.cur with pinned := (readReg s s.cur a).getLsbD 0 }) d
        (BitVec.ofNat 64 (s.thr s.cur).pinned.toNat))

/-! Traps, handlers, user-level interrupts (08). -/

namespace Sys2Proof.Machine

/-- p0 to p3 of one set, p4 to p9 of the thread (R183, R191). -/
def swapped (p : Vector Word 10) (x : Vector Word 4) : Vector Word 10 :=
  #v[x[0], x[1], x[2], x[3], p[4], p[5], p[6], p[7], p[8], p[9]]

/-- p0 to p3. -/
def shadowed (p : Vector Word 10) : Vector Word 4 := #v[p[0], p[1], p[2], p[3]]

/-- XCAUSE and CAUSE as R187 lays them out: ASYNC at bit 63, KIND at 15:8, DETAIL at 7:0. -/
def causeOf (async : Bool) (kind detail : Nat) : Word :=
  BitVec.ofNat 64 (async.toNat * 2 ^ 63 + kind % 2 ^ 8 * 2 ^ 8 + detail % 2 ^ 8)

/-- The thread after a handler entry (R183), with its windows held (R39): in the hypervisor view, a privileged thread in its own. That
it goes back to its own where a user-level handler has left it is log 36, DESIGN CHOICE: the rules do not say. -/
def entered (core : Nat) (t : Thread) (pc cause val : Word) : Thread :=
  { t with
    xpc := pc, xcause := cause, xval := val, p := swapped t.p t.xalt, xalt := shadowed t.p, xin := true, xview := t.view
    view := if t.view = .user then (if t.uin = true ∧ t.uview ≠ .user then t.uview else .hypervisor) else t.view
    xdouble := t.xdouble && decide (core < 1024), pc := t.tvec, stay := false, mismatch := false, spent := false
    windows := [], held := t.windows }

/-- The slot's record of a trap, and the parked slot (R179, R182). -/
def parkedAt (t : Thread) (epc cause tval : Word) : Thread :=
  { t with epc := epc, cause := cause, tval := tval, sstate := .trapped, mismatch := false, spent := false }

/-- The thread at the handler of a user-level interrupt, in the user view, with the shadow p0 to p3 (R191). -/
def interrupted (t : Thread) (i : Nat) (x : Vector Word 4) : Thread :=
  { t with
    upc := t.pc, uip := t.uip &&& ~~~(BitVec.ofNat 3 (2 ^ i)), uin := true, view := .user, uview := t.view, p := swapped t.p x, ualt := shadowed t.p
    frozen := t.windows, windows := [], latch := t.latch ||| 0b10000#5, pc := t.uvec, stay := false
    mismatch := false, spent := false, sleep := none }

end Sys2Proof.Machine

/-- R50: whatever the instruction, its first cause is raised as an exact illegal-instruction trap and it has no other
effect. -/
def Stated.CauseTraps : Prop :=
  ∀ (i : Instr) (s : State) (c : Nat), isWord i = true → issueCause i s s.cur = some c →
    (∀ d sr, i ≠ .sysr d sr) → (∀ a sr, i ≠ .sysw a sr) → (∀ d sr, i ≠ .tsr d sr) →
    (∀ a e sr, i = .ewr a e sr → coreOf s.cur < 1024) →
    exec i s = trapped s kindILLEGAL c ((encode i).setWidth 64)

/-- R185, R186, R194, R195: the accesses to registers by number. A number that is reserved, that this core does not have,
or that is not writable so, is FIELD, in every view; a number kept to a privileged view is PRIVILEGE; both come before
the operand. An ewr on a system core is FIELD. -/
def Obligations.RegisterCauses : Prop :=
  ∀ (s : State) (r : Reg) (sr : BitVec 12),
    let t := s.thr s.cur
    let n := sr.toNat
    let bad := fun (i : Instr) (c : Nat) => exec i s = trapped s kindILLEGAL c ((encode i).setWidth 64)
    (n ∈ [0x000, 0x001, 0x028, 0x04A, 0x056, 0x073, 0x088, 0x0A7, 0x0D2, 0x0E3, 0x0EB, 0x0F3, 0x206, 0x260, 0x311, 0x341, 0xFFF] →
      bad (.sysr r sr) 2 ∧ bad (.sysw r sr) 2) ∧
    (n ∈ [0x002, 0x008, 0x021, 0x022, 0x025, 0x026, 0x027, 0x032, 0x04D, 0x04E] → bad (.sysw r sr) 2) ∧
    (0x040 ≤ n → n ≤ 0x04F → bad (.sysr r sr) 2) ∧ ((n < 0x040 ∨ 0x04F < n ∨ n = 0x04A) → bad (.tsr r sr) 2) ∧
    (1024 ≤ coreOf s.cur → n ∈ [0x008, 0x050, 0x054, 0x055, 0x058, 0x060, 0x070, 0x080, 0x0C0, 0x0D0, 0x0D1] →
      bad (.sysr r sr) 2) ∧
    (t.view = .user → n ∈ [0x020, 0x021, 0x023, 0x024, 0x025, 0x026, 0x027, 0x0E0, 0x0E1, 0x0F0, 0x0F1, 0x100] →
      bad (.sysr r sr) 5) ∧
    (t.view = .user → n ∈ [0x020, 0x023, 0x024, 0x040, 0x04F, 0x0E0, 0x0E1, 0x0F1] → bad (.sysw r sr) 5) ∧
    (t.view = .user → 0x040 ≤ n → n ≤ 0x04F → n ≠ 0x04A → bad (.tsr r sr) 5) ∧
    (1024 ≤ coreOf s.cur → ∀ e m, bad (.ewr r e m) 2)

/-- The examples of R50 and what its order decides: an unassigned major is OPCODE; on a system core a word of major 0x60
is UNIT; a reserved fn is FIELD whatever the operands and the lookahead; a reserved operand code comes before a
lookahead; a lookahead on an S instruction, or in a user-level handler, is LOOKAHEAD; a privileged instruction in the
user view is PRIVILEGE. -/
def Stated.CauseOrder : Prop :=
  (∀ (w : IWord) (s : State) (k : Nat), opOf w ∈ [0x00#7, 0x7F#7, 0x04#7, 0x3B#7, 0x62#7, 0x70#7] →
    decode w = none ∧ illegalCause w s k = 1) ∧
  (∀ (i : Instr) (s : State) (k : Nat), opOf (encode i) = 0x60#7 → 1024 ≤ coreOf k → issueCause i s k = some 6) ∧
  (∀ (d a b : Reg) (lk : BitVec 4) (s : State) (k : Nat),
    decode (wordR 0x01#7 d a b 0x0D#6 lk) = none ∧ illegalCause (wordR 0x01#7 d a b 0x0D#6 lk) s k = 2) ∧
  (∀ (d a : Reg) (lk : BitVec 4) (s : State) (k : Nat), lk ≠ 0#4 →
    decode (wordR 0x01#7 d a 13#5 0x00#6 lk) = none ∧ illegalCause (wordR 0x01#7 d a 13#5 0x00#6 lk) s k = 3) ∧
  (∀ (d a b : Reg) (lk : BitVec 4) (s : State) (k : Nat), lk ≠ 0#4 → regOk d = true → regOk a = true → regOk b = true →
    decode (wordR 0x01#7 d a b 0x00#6 lk) = none ∧ illegalCause (wordR 0x01#7 d a b 0x00#6 lk) s k = 4) ∧
  (∀ (d a b : Reg) (lk : BitVec 4) (s : State) (k : Nat), lk ≠ 0#4 → regOk d = true → regOk a = true → regOk b = true →
    (s.thr k).uin = true → issueCause (.mul d a b lk) s k = some 4) ∧
  (∀ (i : Instr) (s : State) (k : Nat), privilegedInstr i = true → fieldsOk i = true → (s.thr k).view = .user →
    coreOf k < 1024 → issueCause i s k = some 5)

/-- R182: a trap of a user slot writes its record, sets its TPEND bit and parks it; nothing else changes. A page fault
parks it in PAGEWAIT, enters the die's fault queue and leaves TPEND. A parked slot issues nothing. -/
def Stated.SlotTrap : Prop :=
  ∀ (s : State) (k kind detail : Nat) (tval : Word), coreOf k < 1024 → slotOf k < 7 → kind < 256 → detail < 256 →
    let c := s.core (coreOf k)
    (exactTrap s k kind detail tval =
      (s.setThr k (parkedAt (s.thr k) (s.thr k).pc (causeOf false kind detail) tval)).setCore (coreOf k)
        { c with tpend := c.tpend ||| BitVec.ofNat 7 (2 ^ slotOf k) }) ∧
    (∀ reason access, (s.die (dieOf (coreOf k))).faults.length < 256 →
      let u := pageFault s k tval reason access
      (u.thr k).sstate = .pagewait ∧ (u.thr k).epc = (s.thr k).pc ∧ (u.thr k).tval = tval ∧
      u.core (coreOf k) = c ∧ ∃ x, (u.die (dieOf (coreOf k))).faults = (s.die (dieOf (coreOf k))).faults ++ [x] ∧
        x.key = k ∧ x.va = tval) ∧
    ((s.thr k).sstate ≠ .run → turnOf s k = .unused)

/-- R183: the entry of slot 7 or of a system core for its own exact trap, and the double trap: slot 7 stops with DOUBLE and
its core goes into quarantine with cause DOUBLE (1); a system core is reset, with DOUBLE 1 and IN 0. The pc from which it goes on
is log 8, DEDUCED; the view at an entry from a user-level handler is log 36, DESIGN CHOICE. -/
def Stated.HandlerTrap : Prop :=
  ∀ (s : State) (k kind detail : Nat) (tval : Word), 1024 ≤ coreOf k ∨ slotOf k = 7 → kind < 256 → detail < 256 →
    let t := s.thr k
    let u := exactTrap s k kind detail tval
    (t.xin = false → u = s.setThr k (entered (coreOf k) t t.pc (causeOf false kind detail) tval)) ∧
    (t.xin = true → coreOf k < 1024 →
      u.thr k = { t with sstate := .trapped, xdouble := true } ∧ u.due = s.due ++ [.quarantine (coreOf k) 1#3]) ∧
    (t.xin = true → 1024 ≤ coreOf k →
      (u.thr k).xdouble = true ∧ (u.thr k).xin = false ∧ (u.thr k).sstate = .run ∧ (u.thr k).pc = s.entry ∧
        (u.core (coreOf k)).heldInReset = false)

/-- R183: slot 7 enters with NOTIFY whenever TPEND is nonzero, HEVQ is not empty or a pre-emption request is pending, but
not while XSTAT.IN = 1; then the notification waits. That a ctxsave stands as the pending request from its arrival on is log 30, DESIGN
CHOICE, and the view at an entry from a user-level handler log 36, DESIGN CHOICE. An instruction that the checker issues again comes
first (R459). -/
def Stated.NotifyEntry : Prop :=
  ∀ (s : State) (k : Nat), coreOf k < 1024 → slotOf k = 7 →
    let t := s.thr k
    let c := s.core (coreOf k)
    ((t.xin = false ∧ (c.tpend ≠ 0#7 ∨ c.hevq ≠ [] ∨ ∃ r, r.core = coreOf k ∧ r.mode ≠ 2#2 ∧
        (.ctxsaveRequest r ∈ s.work ∨ .saveImageWrite r ∈ s.work))) →
      exec (.handlerEntry k) s = .next ((s.setThr k { t with sleep := none }).setThr k
        (entered (coreOf k) { t with sleep := none } t.pc (causeOf true 15 0) 0#64))) ∧
    (t.xin = true → exec (.handlerEntry k) s = .next s ∧ turnOf s k ≠ .notify) ∧
    (t.xin = false → c.server = [] → mayIssue s k = true → t.killed = false → t.toRetry = none → t.hold = .none →
      t.posted = [] → (c.tpend ≠ 0#7 ∨ c.hevq ≠ []) → turnOf s k = .notify)

/-- R182, R184: the POSTED trap of the oldest refusal, with the refused address (R179). A user slot is parked with ASYNC = 1, KIND 9 and the journal
entry's number; a thread with its own handler enters it, and waits while XSTAT.IN = 1. -/
def Stated.PostedTrap : Prop :=
  ∀ (s : State) (k e : Nat) (ea : Word) (es : List (Nat × Word)), (s.thr k).posted = (e, ea) :: es → e < 64 →
    let t := s.thr k
    let t' := { t with posted := es, stay := false, sleep := none }
    let c := s.core (coreOf k)
    (coreOf k < 1024 → slotOf k < 7 → exec (.postedStoreTrap k) s = .next
      (((s.setThr k t').setThr k (parkedAt t' t.pc (causeOf true 9 e) ea)).setCore (coreOf k)
        { c with tpend := c.tpend ||| BitVec.ofNat 7 (2 ^ slotOf k) })) ∧
    ((1024 ≤ coreOf k ∨ slotOf k = 7) → t.xin = false → exec (.postedStoreTrap k) s = .next
      ((s.setThr k t').setThr k (entered (coreOf k) t' t.pc (causeOf true 9 e) ea))) ∧
    ((1024 ≤ coreOf k ∨ slotOf k = 7) → t.xin = true → exec (.postedStoreTrap k) s = .next s ∧ turnOf s k ≠ .posted)

/-- R181: what a slot acts on first at its issue opportunity, where no instruction waits to be issued again (R459). That an exhausted
slot acts on all but its instruction is log 39, DESIGN CHOICE. -/
def Stated.OpportunityOrder : Prop :=
  ∀ (s : State) (k : Nat), coreOf k < 1024 → slotOf k < 7 → mayIssue s k = true → (s.thr k).hold = .none →
    (s.thr k).toRetry = none →
    let t := s.thr k
    (t.killed = true → turnOf s k = .kill) ∧
    (t.killed = false → t.posted ≠ [] → turnOf s k = .posted) ∧
    (t.killed = false → t.posted = [] → t.uin = false → t.uip &&& t.uie ≠ 0#3 → turnOf s k = .deliver) ∧
    (t.killed = false → t.posted = [] → (t.uin = true ∨ t.uip &&& t.uie = 0#3) → asleep s k = false →
      (s.core (coreOf k)).exhausted.getLsbD (slotOf k) = false → turnOf s k = .issue)

/-- R190, R191: the lowest-numbered source that is pending and enabled is delivered, with the values of its column. -/
def Stated.InterruptDelivery : Prop :=
  ∀ (s : State) (k : Nat), (s.thr k).uin = false → (s.thr k).sstate = .run → (s.thr k).hold = .none →
    let t := s.thr k
    let on := t.uip &&& t.uie
    (on.getLsbD 0 = true → exec (.userInterruptDelivery k) s = .next (s.setThr k
      (interrupted t 0 #v[1#64, t.argEngine, t.argEng.setWidth 64, 0#64]))) ∧
    (on.getLsbD 0 = false → on.getLsbD 1 = true → exec (.userInterruptDelivery k) s = .next (s.setThr k
      (interrupted t 1 #v[2#64, t.argEstate, 0#64, 0#64]))) ∧
    (on.getLsbD 0 = false → on.getLsbD 1 = false → on.getLsbD 2 = true →
      exec (.userInterruptDelivery k) s = .next (s.setThr k (interrupted t 2 #v[3#64, t.argMsg, 0#64, 0#64])))

/-- R196, R179: trap completes, counts towards the open windows, and raises SYSCALL behind itself, with its immediate in
TVAL. -/
def Stated.SystemCall : Prop :=
  ∀ (s : State) (imm : BitVec 15), codedM (.trap imm) 0x6B#7 ∧
    (ready (.trap imm) s = true →
      let u := retire s s.cur
      exec (.trap imm) s = .next (exactTrap u s.cur 7 0 (BitVec.ofNat 64 imm.toNat)) ∧
      (u.thr s.cur).pc = (s.thr s.cur).pc + 4#64)

/-- R197 and R198: the returns, each with STATE detail 1 outside its handler. That uret gives a privileged thread the view it had is log
36, DESIGN CHOICE. The windows held or frozen at the entry go
on behind; no window closes here while every count is above 1. -/
def Stated.HandlerReturns : Prop :=
  ∀ (s : State),
    let t := s.thr s.cur
    codedR .eret 0x6C#7 0x00#6 ∧ codedR .uret 0x6C#7 0x01#6 ∧
    (ready .eret s = true → t.xin = false → exec .eret s = trapped s kindSTATE 1 0#64) ∧
    (ready .uret s = true → t.uin = false → exec .uret s = trapped s kindSTATE 1 0#64) ∧
    (ready .eret s = true → t.xin = true → (∀ w ∈ t.held ++ t.windows, 2 ≤ w.count) → ∃ u, exec .eret s = .next u ∧
      u.thr s.cur = { t with
        p := swapped t.p t.xalt, xalt := shadowed t.p, xin := false, view := t.xview, pc := t.xpc
        windows := t.held ++ counted t.windows, held := [], stay := false, mismatch := false, sleep := none } ∧
      (∀ k, k ≠ s.cur → u.thr k = s.thr k) ∧ (∀ c, u.core c = s.core c) ∧ restOf u = restOf s) ∧
    (ready .uret s = true → t.uin = true → (∀ w ∈ t.frozen ++ t.windows, 2 ≤ w.count) → ∃ u, exec .uret s = .next u ∧
      u.thr s.cur = { t with
        p := swapped t.p t.ualt, ualt := shadowed t.p, uin := false, view := t.uview, pc := t.upc
        windows := t.frozen ++ counted t.windows, frozen := [], stay := false, mismatch := false, sleep := none } ∧
      (∀ k, k ≠ s.cur → u.thr k = s.thr k) ∧ (∀ c, u.core c = s.core c) ∧ restOf u = restOf s)

/-- R125, R179: a fetch beyond the translated addresses is the exact ADDRESS trap with DETAIL 2 and the pc as TVAL. -/
def Stated.FetchFault : Prop :=
  ∀ (s : State) (pc : Word), exec (.fetchFault pc) s = trapped s 2 2 pc ∧
    (∀ k, 2 ^ 52 ≤ (s.thr k).pc.toNat → fetchAt s k = .fault)

/-! System registers (08), and the registers of the die and of the package. -/

namespace Sys2Proof.Machine

/-- A word from fields (value, lowest bit). -/
def fieldsWord (l : List (Nat × Nat)) : Word := BitVec.ofNat 64 (l.map fun x => x.1 * 2 ^ x.2).sum

/-- Registers that slot 7 of compute core c reads as they are held: number and value (R185 to R190, R138, R220, R282,
R287, R347, R402, R469, R473, R475, R487, R492). -/
def storedRegisters (s : State) (k : Nat) : List (Nat × Word) :=
  let t := s.thr k
  let c := s.core (coreOf k)
  [(0x002, s.time), (0x020, t.xpc), (0x021, t.xcause), (0x022, t.xval), (0x023, t.tvec),
   (0x024, fieldsWord [(t.tsel.toNat, 0)]), (0x025, fieldsWord [(c.tpend.toNat, 0)]),
   (0x027, fieldsWord [(t.xdouble.toNat, 1), (t.xin.toNat, 0)]), (0x030, t.uvec),
   (0x031, fieldsWord [(t.uin.toNat, 8), (t.uip.toNat, 4), (t.uie.toNat, 0)]), (0x032, t.upc), (0x050, c.slottab),
   (0x051, c.slotpend), (0x053, fieldsWord [(c.quiet.toNat, 0)]), (0x054, c.rseed),
   (0x055, fieldsWord [(c.levctl.toNat, 0)]), (0x060, c.eshare0), (0x061, c.eshare1), (0x090, s.asidtab),
   (0x0A0, fieldsWord [(c.parked.toNat, 48), (c.kills.toNat, 32), (c.retries.toNat, 0)]), (0x0A1, c.larrlog),
   (0x0A2, c.lbndlog), (0x0A3, c.lspare), (0x0E0, s.diemap0), (0x0E1, s.diemap1),
   (0x0E2, fieldsWord [(s.dieret.toNat, 0)]), (0x0E4, t.bsel),
   (0x0E8, fieldsWord [((s.die (dieOf (coreOf k))).dlcnt.toNat, 0)]), (0x0E9, s.pnsel),
   (0x0EC, fieldsWord [(s.vfsel.toNat, 0)]), (0x0EE, (vfAt s s.vfsel.toNat).goff), (0x0EF, (vfAt s s.vfsel.toNat).gfrz),
   (0x0F2, (vfAt s s.vfsel.toNat).gpt), (0x318, s.bootstat)]

/-- The value of JENT word j of an entry that is busy (R161). -/
def jentFields (core : Nat) (x : JournalEntry) (j : Nat) : Word :=
  if j = 0 then fieldsWord [(1, 63), (x.kind, 60), (x.cause.toNat, 56), (x.mode.toNat, 54), (x.size, 52), (x.ea.toNat, 0)]
  else if j = 1 then x.data
  else if j = 2 then
    fieldsWord [(x.eng.toNat, 24), (core / 256, 20), (core / 16 % 16, 16), (core % 16, 11), (x.slot, 8), (x.gen.toNat, 0)]
  else x.time

/-- PARKED after the W1C write v: a bit that v clears stays set where the hardware has set it in this ck (R4, R460). -/
def unparked (s : State) (core : Nat) (v : Word) : BitVec 7 :=
  (s.core core).parked &&& ~~~(BitVec.ofNat 7
    (((List.range 7).filter fun j => v.getLsbD (48 + j) && !s.sticky.contains (.parked core j)).map (2 ^ ·)).sum)

/-- Registers that slot 7 writes, and registers whose fields are all RO, which a write leaves alone (R4): number, and the
state after v is written. -/
def plainWrites (s : State) (k : Nat) (v : Word) : List (Nat × State) :=
  let t := s.thr k
  let c := s.core (coreOf k)
  let d := dieOf (coreOf k)
  [(0x020, s.setThr k { t with xpc := v }), (0x023, s.setThr k { t with tvec := v }),
   (0x024, s.setThr k { t with tsel := v.extractLsb' 0 3 }), (0x030, s.setThr k { t with uvec := v }),
   (0x031, s.setThr k { t with uie := v.extractLsb' 0 3 }), (0x054, s.setCore (coreOf k) { c with rseed := v }),
   (0x055, s.setCore (coreOf k) { c with levctl := v.extractLsb' 0 2 }),
   (0x090, { s with asidtab := v &&& (0x8000000000000000#64 >>> 4 ||| 0xFFFFFFFF80000#64 ||| 1#64) }),
   (0x0A0, s.setCore (coreOf k) { c with parked := unparked s (coreOf k) v }),
   (0x0E0, { s with diemap0 := v }), (0x0E1, { s with diemap1 := v }),
   (0x0E8, s.setDie d { s.die d with dlcnt := v.extractLsb' 0 32 }), (0x0EC, { s with vfsel := v.extractLsb' 0 5 }),
   (0x052, s), (0x070, s), (0x071, s), (0x072, s), (0x0A1, s), (0x0A2, s), (0x0A3, s), (0x0A4, s), (0x0A5, s), (0x0D1, s),
   (0x0EE, s), (0x0F0, s), (0x100, s), (0x1FF, s), (0x204, s), (0x205, s), (0x310, s)]

/-- What tsr returns of a slot, by its state (R188). -/
def slotRead (t : Thread) (n : Nat) : Word :=
  if n = 0x04F then
    (match t.sstate with | .run => 0#64 | .trapped => 1#64 | .pagewait => 2#64 | .ended => 3#64 | .empty => 4#64)
  else if 0x04C ≤ n then
    (if t.sstate = .empty then 0#64 else if n = 0x04C then t.epc else if n = 0x04D then t.cause else t.tval)
  else if t.sstate = .trapped ∨ t.sstate = .pagewait then (if n = 0x04B then t.q else t.p.getD (n - 0x040) 0#64)
  else 0#64

/-- The slot after a write of v to register n of it (R188): p0 to p9, q or EPC. -/
def slotWritten (t : Thread) (n : Nat) (v : Word) : Thread :=
  if n = 0x04B then { t with q := v } else if n = 0x04C then { t with epc := v }
  else { t with p := t.p.setIfInBounds (n - 0x040) v }

/-- The slot resumed at its EPC, and its TPEND bit clear (R188). -/
def slotResumed (s : State) (j : Nat) : State :=
  let t := s.thr j
  let c := s.core (coreOf j)
  (s.setThr j { t with sstate := .run, pc := t.epc }).setCore (coreOf j)
    { c with tpend := c.tpend &&& ~~~(BitVec.ofNat 7 (2 ^ slotOf j)) }

/-- The sum of the eight shares (R220). -/
def shareSum (e0 e1 : Word) : Nat := ([0, 16, 32, 48].map fun j => e0.toNat / 2 ^ j % 2 ^ 16 + e1.toNat / 2 ^ j % 2 ^ 16).sum

end Sys2Proof.Machine

/-- R193, R185, R187, R188, R190: slot 7 in the hypervisor view reads each register as it is held. A read of HEVQ removes
the oldest event, and of an empty queue is 0 (R189). The four words of a journal entry read as 0 while it is free
(R161). -/
def Stated.RegisterReads : Prop :=
  ∀ (s : State) (d : Reg) (sr : BitVec 12), coreOf s.cur < 1024 → slotOf s.cur = 7 →
    (s.thr s.cur).view = .hypervisor →
    let c := s.core (coreOf s.cur)
    (ready (.sysr d sr) s = true →
      (∀ r ∈ storedRegisters s s.cur, sr.toNat = r.1 → exec (.sysr d sr) s = wrote s d r.2) ∧
      (sr.toNat = 0x026 → exec (.sysr d sr) s =
        wrote (s.setCore (coreOf s.cur) { c with hevq := c.hevq.drop 1 }) d (c.hevq.headD 0#64)) ∧
      (∀ e j, e < 64 → j < 4 → sr.toNat = 0x100 + 4 * e + j →
        let x := journalAt c e
        x.kind < 8 → x.size < 4 → x.ea.toNat < 2 ^ 52 → x.slot < 8 →
        exec (.sysr d sr) s = wrote s d (if x.busy then jentFields (coreOf s.cur) x j else 0#64)))

/-- R193, R185: what slot 7 in the hypervisor view writes to these registers, before the thread's next instruction.
DIEMAP, DIERET, ASIDTAB and VFSEL have one copy per package, so every die sees the value (R138, R402). -/
def Stated.RegisterWrites : Prop :=
  ∀ (s : State) (a : Reg) (sr : BitVec 12), coreOf s.cur < 1024 → slotOf s.cur = 7 →
    (s.thr s.cur).view = .hypervisor → ready (.sysw a sr) s = true →
    ∀ r ∈ plainWrites s s.cur (readReg s s.cur a), sr.toNat = r.1 → exec (.sysw a sr) s = passed r.2

/-- R188, R194: the slot-state registers of the slot that TSEL selects: tsr, and sysw with its STATE and FIELD faults. -/
def Obligations.SlotState : Prop :=
  ∀ (s : State) (d a : Reg) (sr : BitVec 12), (s.thr s.cur).view = .hypervisor → 0x040 ≤ sr.toNat → sr.toNat ≤ 0x04F →
    sr.toNat ≠ 0x04A →
    let v := readReg s s.cur a
    let sel := (s.thr s.cur).tsel.toNat
    let j := 8 * coreOf s.cur + sel
    let t := s.thr j
    (1024 ≤ coreOf s.cur → ready (.tsr d sr) s = true → exec (.tsr d sr) s = trapped s kindSTATE 4 0#64) ∧
    (1024 ≤ coreOf s.cur → ready (.sysw a sr) s = true → sr.toNat ≠ 0x04D → sr.toNat ≠ 0x04E →
      exec (.sysw a sr) s = trapped s kindSTATE 4 0#64) ∧
    (coreOf s.cur < 1024 → slotOf s.cur = 7 →
      (ready (.tsr d sr) s = true → exec (.tsr d sr) s =
        if sel = 7 then trapped s kindSTATE 2 0#64 else wrote s d (slotRead t sr.toNat)) ∧
      (ready (.sysw a sr) s = true → sel = 7 → sr.toNat ≠ 0x04D → sr.toNat ≠ 0x04E →
        exec (.sysw a sr) s = trapped s kindSTATE 2 0#64) ∧
      (ready (.sysw a sr) s = true → sel ≠ 7 → sr.toNat ≤ 0x04C → exec (.sysw a sr) s =
        if t.sstate = .trapped then passed (s.setThr j (slotWritten t sr.toNat v)) else trapped s kindSTATE 3 0#64) ∧
      (ready (.sysw a sr) s = true → sel ≠ 7 → sr.toNat = 0x04F →
        (v.toNat % 8 = 0 → exec (.sysw a sr) s =
          if t.sstate = .trapped then passed (slotResumed s j) else trapped s kindSTATE 3 0#64) ∧
        (v.toNat % 8 = 3 → t.sstate = .ended ∨ t.sstate = .empty ∨ t.sstate = .pagewait →
          exec (.sysw a sr) s = trapped s kindSTATE 3 0#64) ∧
        (v.toNat % 8 = 3 → t.sstate = .run ∨ t.sstate = .trapped →
          exec (.sysw a sr) s = passed (loseThread (s.setCore (coreOf j)
            { s.core (coreOf j) with tpend := (s.core (coreOf j)).tpend &&& ~~~(BitVec.ofNat 7 (2 ^ slotOf j)) }) j 2)) ∧
        (v.toNat % 8 ≠ 0 → v.toNat % 8 ≠ 3 →
          exec (.sysw a sr) s = trapped s kindILLEGAL 2 ((encode (.sysw a sr)).setWidth 64))))

/-- The same effects as steps of their own: HEVQ_READ, SSTATE_WRITE, DIEMAP_WRITE, ASIDTAB_WRITE, ESHARE_WRITE,
JREF_CLEAR, PARKED_CLEAR (R189, R188, R138, R402, R220, R161, R460). -/
def Stated.RegisterSteps : Prop :=
  ∀ (s : State) (k core : Nat) (d : Reg) (v : Word),
    let c := s.core (coreOf k)
    let x := s.core core
    exec (.hevqRead k d) s =
      .next (writeReg (s.setCore (coreOf k) { c with hevq := c.hevq.drop 1 }) k d (c.hevq.headD 0#64)) ∧
    ((s.thr k).sstate = .trapped → v.toNat % 8 = 0 → exec (.sstateWrite k v) s = .next (slotResumed s k)) ∧
    exec (.diemapWrite false v) s = .next { s with diemap0 := v } ∧
    exec (.diemapWrite true v) s = .next { s with diemap1 := v } ∧
    exec (.asidtabWrite v) s =
      .next { s with asidtab := v &&& (0x8000000000000000#64 >>> 4 ||| 0xFFFFFFFF80000#64 ||| 1#64) } ∧
    exec (.eshareWrite core false v) s = .next (if 65535 < shareSum v x.eshare1 then s else s.setCore core { x with eshare0 := v }) ∧
    exec (.eshareWrite core true v) s = .next (if 65535 < shareSum x.eshare0 v then s else s.setCore core { x with eshare1 := v }) ∧
    exec (.parkedClear core v) s =
      .next (s.setCore core { x with parked := unparked s core v }) ∧
    (∃ u, exec (.jrefClear core v) s = .next u ∧
      ∀ e < 64, journalAt (u.core core) e =
        if v.getLsbD e = true ∧ (journalAt x e).ref = true ∧ s.sticky.contains (.jref core e) = false then freeEntry
        else journalAt x e)

/-- R492: DIERET takes a value that clears no set bit, does not set all, and retires no die in use; else it is unchanged.
Nothing waits any longer at a home of a die retired by it: a waiting lrw is refused with RETIRED, a held give with
REFUSED. -/
def Stated.DieRetirement : Prop :=
  ∀ (s : State) (k : Nat) (v : Word),
    let w := v.extractLsb' 0 4
    ((s.dieret &&& ~~~w ≠ 0#4 ∨ w = 15#4 ∨ ∃ d < 4, w.getLsbD d = true ∧ s.dieret.getLsbD d = false ∧
        ((s.die d).nodes ≠ [] ∨ (∃ x ∈ (s.die d).pool, x.2.used = true))) →
      exec (.dieretWrite k v) s = .next s) ∧
    (s.dieret &&& ~~~w = 0#4 → w ≠ 15#4 → (∀ d < 4, w.getLsbD d = true → s.dieret.getLsbD d = false → dieBusy s d = false) →
      ∃ u, exec (.dieretWrite k v) s = .next u ∧ u.dieret = w ∧
        (∀ c, isCompute c = true → w.getLsbD (dieOf c) = true → s.dieret.getLsbD (dieOf c) = false →
          (u.core c).resvHeld = [] ∧ (∀ r ∈ (u.core c).resv, r.waiting = none) ∧ (u.core c).gives = [] ∧
          (u.core c).giveHeld = []) ∧
        ((∀ c, (s.core c).resvHeld = [] ∧ (∀ r ∈ (s.core c).resv, r.waiting = none) ∧ (s.core c).gives = [] ∧
            (s.core c).giveHeld = []) →
          (∀ c, u.core c = s.core c) ∧ u.threads = s.threads ∧ u.mem = s.mem ∧ u.work = s.work))

/-! Partitions, virtual functions, boot and host (23, 24). -/

namespace Sys2Proof.Machine

/-- The state of the module when it takes a power-on reset: nothing is kept but the flash and the model's counter. -/
def poweredOff (s : State) : State := { State.reset with flash := s.flash, nonce := s.nonce }

/-- GTIME and GPAUSE of a thread (R480). -/
def guestTime (s : State) (t : Thread) : Word × Word :=
  match (match t.view with | .guest v => some v | _ => vfOfAsid s t.asid) with
  | none => (s.time, 0#64)
  | some v =>
    let x := vfAt s v
    if x.paused then (x.gfrz, x.gpt + (s.time - x.edge)) else (s.time - x.goff, x.gpt)

/-- The node that PNSEL selects, held by virtual function u. -/
def selected (s : State) (u : Nat) : Node := selNode s.pnsel u

/-- The nodes of the die that PNSEL selects. -/
def selectedNodes (s : State) : List Node := (s.die (selDie s.pnsel)).nodes

/-- The state with other nodes on the selected die. -/
def withNodes (s : State) (l : List Node) : State :=
  s.setDie (selDie s.pnsel) { s.die (selDie s.pnsel) with nodes := l }

end Sys2Proof.Machine

/-- R478: the pause freezes the guest timestamp at its edge, the resume moves the offset past the pause and adds it to
GPT; a pause while paused, and a resume while not, changes nothing. -/
def Stated.PauseResume : Prop :=
  ∀ (s : State) (v : Nat),
    let x := vfAt s v
    (x.paused = false → exec (.vfPause v) s =
      .next (s.setVf v { x with paused := true, gfrz := s.time - x.goff, edge := s.time })) ∧
    (x.paused = true → exec (.vfPause v) s = .next s) ∧
    (x.paused = true → exec (.vfResume v) s = .next (s.setVf v
      { x with paused := false, imported := false, goff := s.time - x.gfrz, gpt := x.gpt + (s.time - x.edge) })) ∧
    (x.paused = false → exec (.vfResume v) s = .next s)

/-- R480: what every view reads in GTIME and GPAUSE, by the state of the thread's virtual function. -/
def Stated.GuestTimeReads : Prop :=
  ∀ (s : State) (d : Reg), let g := guestTime s (s.thr s.cur)
    (ready (.sysr d 0x003#12) s = true → exec (.sysr d 0x003#12) s = wrote s d g.1) ∧
    (ready (.sysr d 0x004#12) s = true → exec (.sysr d 0x004#12) s = wrote s d g.2)

/-- R478, R480: at the edge of a pause and of a resume GTIME does not jump, and a paused GTIME stands still while TIME
goes on. -/
def Stated.GuestTimeContinuous : Prop :=
  ∀ (s : State) (v : Nat) (t : Thread), t.view = .guest v →
    (∀ u, exec (.vfPause v) s = .next u → (guestTime u t).1 = (guestTime s t).1) ∧
    (∀ u, exec (.vfResume v) s = .next u → (guestTime u t).1 = (guestTime s t).1) ∧
    ((vfAt s v).paused = true → ∀ now, (guestTime { s with time := now } t).1 = (guestTime s t).1)

/-- R474: assign, reassign, split, merge and release of the selected node; what matches no row, or names a virtual function
that is not valid, changes nothing. -/
def Stated.NodeWrites : Prop :=
  ∀ (s : State) (v : Word),
    let u := v.toNat % 32
    let n := selected s u
    let l := selectedNodes s
    let die := selDie s.pnsel
    let valid := (vfAt s u).valid
    let without := fun (x : Node) (l : List Node) => l.filter fun y => !sameNode x y
    (valid = false → exec (.pnodeAssign v) s = .next s) ∧
    (valid = true → nodeState l n = 0 → exec (.pnodeAssign v) s = .next (withNodes s (l ++ [n]))) ∧
    (valid = true → nodeState l n = 1 → exec (.pnodeAssign v) s =
      .next (if nodeIdle s die n then withNodes s (without n l ++ [n]) else s)) ∧
    (∀ o, valid = true → nodeState l n = 3 → nodeOwner l (parentOf n) = some o → n.level < treeLevels n.tree →
      exec (.pnodeAssign v) s = .next
        (if nodeIdle s die n then withNodes s (without (parentOf n) l ++ [n, { siblingOf n with vf := o }]) else s)) ∧
    (valid = true → nodeState l n = 2 → exec (.pnodeAssign v) s = .next
      (if (nodeOwner l (childOf n 0)).isSome ∧ (nodeOwner l (childOf n 1)).isSome ∧ nodeIdle s die (childOf n 0) ∧
          nodeIdle s die (childOf n 1) then
        withNodes s (without (childOf n 0) (without (childOf n 1) l) ++ [n]) else s)) ∧
    (exec (.pnodeRelease v) s =
      .next (if nodeState l (selected s 0) = 1 ∧ nodeIdle s die (selected s 0) then withNodes s (without (selected s 0) l) else s))

/-- R489: a host write ORs into the function's doorbell register, a read returns it and clears it, and sysr of 0x320 reads
the thread's own function's: the physical function in the hypervisor view, the guest's own in a guest view. Another
function's number raises PRIVILEGE, read or written. In recovery only the physical function is there (R486). That a sysw of the
thread's own is FIELD is log 39, DESIGN CHOICE. -/
def Stated.Doorbells : Prop :=
  ∀ (s : State) (k f : Nat) (d : Reg) (v : Word),
    let recovery := s.bootstat.toNat / 2 ^ 8 % 4 = 3
    (f ≤ 32 → f = 0 ∨ ¬ recovery →
      exec (.hostDoorbellWrite f v) s = .next { s with hdb := tabSet s.hdb f (tabGet 0#64 s.hdb f ||| v) }) ∧
    (f ≠ 0 → recovery → exec (.hostDoorbellWrite f v) s = .next s) ∧
    exec (.hdbRead k d f) s = .next (writeReg { s with hdb := tabSet s.hdb f 0#64 } k d (tabGet 0#64 s.hdb f)) ∧
    (ready (.sysr d 0x320#12) s = true →
      ((s.thr s.cur).view = .hypervisor →
        exec (.sysr d 0x320#12) s = wrote { s with hdb := tabSet s.hdb 0 0#64 } d (tabGet 0#64 s.hdb 0)) ∧
      (∀ g, (s.thr s.cur).view = .guest g →
        exec (.sysr d 0x320#12) s = wrote { s with hdb := tabSet s.hdb (1 + g) 0#64 } d (tabGet 0#64 s.hdb (1 + g)))) ∧
    (∀ sr : BitVec 12, 0x321 ≤ sr.toNat → sr.toNat ≤ 0x340 →
      ((s.thr s.cur).view = .hypervisor ∨ (∃ g, (s.thr s.cur).view = .guest g ∧ sr.toNat ≠ 0x321 + g)) →
      exec (.sysr d sr) s = trapped s kindILLEGAL 5 ((encode (.sysr d sr)).setWidth 64) ∧
      exec (.sysw d sr) s = trapped s kindILLEGAL 5 ((encode (.sysw d sr)).setWidth 64)) ∧
    ((s.thr s.cur).view ≠ .user →
      exec (.sysw d 0x320#12) s = trapped s kindILLEGAL 2 ((encode (.sysw d 0x320#12)).setWidth 64))

/-- R490: the lowest source that is pending and enabled at a system core enters its handler, with ASYNC 1, KIND 15 and its
number as DETAIL; none enters while XSTAT.IN = 1. Sources 9 to 15 are never pending. The view at an entry from a user-level handler
is log 36, DESIGN CHOICE. -/
def Stated.BarnInterrupts : Prop :=
  ∀ (s : State) (c : Nat), 1024 ≤ c →
    let t := s.thr (8 * c)
    let on := fun (n : Nat) => sourcePending s n = true ∧ 1024 + (s.route n).toNat % 16 = c ∧ (s.route n).toNat / 2 ^ 63 = 1
    (∀ n < 16, on n → (∀ m < n, ¬ on m) → t.xin = false →
      exec (.barnInterruptEntry c) s = .next ((s.setThr (8 * c) { t with sleep := none }).setThr (8 * c)
        (entered c { t with sleep := none } t.pc (causeOf true 15 n) 0#64))) ∧
    (t.xin = true → exec (.barnInterruptEntry c) s = .next s) ∧
    (∀ n, 9 ≤ n → sourcePending s n = false) ∧ (sourcePending s 8 = s.power) ∧
    (sourcePending s 7 = true ↔ s.flr ≠ [])

/-- R483: an overcurrent sets source POWER; a trip is a power-on reset, which keeps nothing but the flash. -/
def Stated.PowerEvents : Prop :=
  ∀ (s : State),
    (∃ u, exec .powerOvercurrent s = .next u ∧ sourcePending u 8 = true ∧ u = { s with power := true, powerSeen := true }) ∧
    (exec .powerTrip s = .next (poweredOff s) ∧ (poweredOff s).due = [.powerOnReset] ∧ (poweredOff s).mem = [] ∧
      ∀ c, ((poweredOff s).core c).heldInReset = true)

/-- R486, R487: the ROM starts the image of slot A when it passes, else that of slot B, on system core 0 at its ENTRY, with
its body at Silo channel 0, that channel mapped, and every other core held in reset; when neither passes no core runs. BOOTSTAT tells which
ran and why the others did not. -/
def Stated.Boot : Prop :=
  ∀ (s : State),
    let a := slotCode s.flash 0
    let b := slotCode s.flash 0x8000000
    ∃ u, exec .powerOnReset s = .next u ∧ u.due = [] ∧ u.flash = s.flash ∧
      (a = 0 → u.bootstat = fieldsWord [(imageSvn s.flash 0 % 64, 10)] ∧ u.cur = 8192 ∧
        (u.thr 8192).pc = BitVec.ofNat 64 (imageEntry s.flash 0) ∧ (u.thr 8192).view = .hypervisor ∧
        (u.thr 8192).sstate = .run ∧ (u.core 1024).heldInReset = false ∧ u.romMap = true ∧ (u.core 1024).tlb = [bootEntry] ∧
        u.mem = writeList [] (2 ^ 52) (imageBody s.flash 0)) ∧
      (a ≠ 0 → b = 0 → u.bootstat = fieldsWord [(imageSvn s.flash 0x8000000 % 64, 10), (1, 8), (a, 0)] ∧ u.cur = 8192 ∧
        (u.thr 8192).pc = BitVec.ofNat 64 (imageEntry s.flash 0x8000000) ∧ (u.thr 8192).sstate = .run ∧ u.romMap = true ∧
        u.mem = writeList [] (2 ^ 52) (imageBody s.flash 0x8000000)) ∧
      (a ≠ 0 → b ≠ 0 → u.bootstat = fieldsWord [(3, 8), (b, 4), (a, 0)] ∧ u.mem = [] ∧
        ∀ c, (u.core c).heldInReset = true) ∧
      (∀ c, c ≠ 1024 → (u.core c).heldInReset = true)

/-- R488: the answers of the root of trust. Version 1.2 begins a connection; the later requests are answered once the three
steps of the negotiation are done; measurement 3 is BOOTSTAT with the fused minimum SVN. Nothing else of the machine
changes. The order of the negotiation, and the codes by which the capabilities and the one algorithm set are answered, are SPDM's,
which R488 names and does not state (log 40, PRESUMED). -/
def Stated.Attestation : Prop :=
  ∀ (s : State) (nonce : BitVec 256),
    let go := fun (i : Instr) (x : Spdm) => exec i s = .next { s with spdm := x }
    let told := fun (a : List Byte) => { s.spdm with answer := if s.spdm.algorithms then a else [] }
    go .getVersion ⟨true, false, false, [0x12#8]⟩ ∧
    go .getCapabilities
      { s.spdm with capabilities := s.spdm.version, answer := if s.spdm.version then [0x61#8] else [] } ∧
    go .negotiateAlgorithms
      { s.spdm with
        algorithms := s.spdm.capabilities, answer := if s.spdm.capabilities then [0x63#8, 0x80#8, 0x02#8] else [] } ∧
    go .getDigests (told (hashBytes (Config.sha384 Config.deviceCert))) ∧ go .getCertificate (told Config.deviceCert) ∧
    go .getMeasurements (told (measurements s)) ∧
    go (.challenge nonce)
      (told (Config.deviceSign ((List.range 32).map (fun i => nonce.extractLsb' (8 * i) 8) ++ measurements s))) ∧
    (measurements s).length = 153 ∧
    ((measurements s).drop 96).take 8 = (List.range 8).map (fun i => s.bootstat.extractLsb' (8 * i) 8)

/-- R491, R478, R308: a function-level reset of v. While a residence of v is still busy the function is paused, every ACTIVE group
of its contexts is killed (one whose kernel is PLACING keeps the kill), and source 7 is pending. Once they are at rest, and nothing
of v lives any more, its residences and records are gone and its doorbell is clear; VALID and the nodes stay. In recovery there is
no such function (R486). -/
def Stated.FunctionReset : Prop :=
  ∀ (s : State) (v : Nat),
    let mine := fun (asid : BitVec 16) => vfHolds (vfAt s v) asid = true
    let kept := fun (u : State) => (vfAt u v).paused = true ∧ (vfAt u v).valid = (vfAt s v).valid ∧
      ∀ d, (u.die d).nodes = (s.die d).nodes
    (s.bootstat.toNat / 2 ^ 8 % 4 = 3 → exec (.functionLevelReset v) s = .next s) ∧
    (v < 32 → s.bootstat.toNat / 2 ^ 8 % 4 ≠ 3 → v ∉ s.flr →
      ((∃ c ∈ vfCores s v, (s.core c).residence ≠ .loaded ∧ (s.core c).stopped = false) →
        ∃ u, exec (.functionLevelReset v) s = .next u ∧ kept u ∧ sourcePending u 7 = true ∧
          ∀ g, s.groupHeld g = true → (s.group g).state = .active → mine (s.group g).asid →
            let placing := fun (ix : Nat) => (s.record (groupDie g) ix).used = true ∧
              (s.record (groupDie g) ix).group = g ∧ (s.record (groupDie g) ix).state = .placing
            (∀ ix, (s.group g).kernel = some ix → placing ix → (u.record (groupDie g) ix).killHeld = true) ∧
            ((∀ ix, (s.group g).kernel = some ix → ¬ placing ix) →
              (u.group g).state = .draining ∧ (u.group g).killed = true ∧ .conveyanceStart g ∈ u.work ∧
                ∀ k ∈ groupKeys s g, (u.thr k).killed = true)) ∧
      ((∀ c ∈ vfCores s v, (s.core c).residence = .loaded ∨ (s.core c).stopped = true) → vfGroups s v = [] →
        (∀ k, (s.thr k).lives = true → ¬ mine (s.thr k).asid) →
        ∃ u, exec (.functionLevelReset v) s = .next u ∧ kept u ∧ v ∉ u.flr ∧ tabGet 0#64 u.hdb (1 + v) = 0#64 ∧
          (∀ c, mine (s.core c).ctxAsid → (u.core c).residence = .free) ∧
          (∀ c i, (h : i < 8) → (u.core c).diverts[i].valid = true → ¬ mine (u.core c).diverts[i].asid) ∧
          (∀ d < 4, ∀ ix, (u.record d ix).used = true → ¬ mine (u.record d ix).asid)))

/-- R26, R25: the rate of the shared clock is slewed, by at most 100 parts per million, and the count stands. -/
def Stated.ClockSlew : Prop :=
  ∀ (s : State) (ppm : Int), ∃ u, exec (.clockSyncMessage ppm) s = .next u ∧ u.time = s.time ∧ u.phase = s.phase ∧
    -100 ≤ u.ppm ∧ u.ppm ≤ 100 ∧ (-100 ≤ ppm → ppm ≤ 100 → u.ppm = ppm)

/-! Memory (06): addresses, issue of an access, its performance and its answer. -/

namespace Sys2Proof.Machine

/-- An engine holds in this ck a bank that an access of n bytes over the here path needs, and the core is not in quiet-bank
mode (R134, R285). -/
def bankTaken (s : State) (core cell n : Nat) : Prop :=
  let c := s.core core
  c.quietOn = false ∧ c.banks.ck = s.ck ∧ c.banks.engine &&& banksOf core cell n ≠ 0#16

/-- The core with the banks of the access in use by a thread; as it was where the access has no bank. -/
def takesBanks (s : State) (core cell n : Nat) : State :=
  if banksOf core cell n = 0#16 then s
  else s.setCore core { s.core core with
    banks := if (s.core core).banks.ck = s.ck then
        { (s.core core).banks with here := (s.core core).banks.here ||| banksOf core cell n }
      else ⟨s.ck, 0#16, banksOf core cell n⟩ }

/-- An access that may not issue now: over the limit of its kind (R148), remote with the journal full (R158), or with its bank
held by an engine (R134). -/
def cannotIssue (s : State) (x : AccessKind) (p : Place) : Prop :=
  let mine := (s.thr s.cur).outst.filter fun o => o.relaxed == x.relaxed
  (if x.relaxed then 8 else 1) ≤ mine.length ∨
    (p.home ≠ coreOf s.cur ∧ ∀ e < 64, (journalAt (s.core (coreOf s.cur)) e).busy = true) ∨
    (p.port = false ∧ bankTaken s (coreOf s.cur) p.cell x.size)

/-- The request of an access of the thread s.cur (R143): what it does at place p. -/
def accessTo (s : State) (x : AccessKind) (p : Place) (window : Bool) (jent : Option Nat) : Request :=
  let t := s.thr s.cur
  { key := s.cur, aid := s.nonce, wid := if window then some s.nonce else none, op := x.op, cell := p.cell, size := x.size,
    home := p.home, port := p.port, ea := x.ea, mode := p.mode, data := x.data, cmp := x.cmp, asid := t.asid,
    group := t.group, tnum := t.tnum, jent := jent }

/-- The entry that a remote access takes in the journal (R158, R161). -/
def journalEntry (s : State) (x : AccessKind) (p : Place) (kind : Nat) : JournalEntry :=
  { busy := true, ref := false, kind := kind, cause := 0#4, mode := p.mode, size := x.size.log2, ea := x.ea,
    data := if kind = 1 then 0#64 else x.data, eng := 0#3, slot := slotOf s.cur, gen := (s.thr s.cur).gen, time := 0#64 }

/-- The access is outstanding, its request is on its way to the home, its journal entry is taken (R147, R158). -/
def sent (s : State) (x : AccessKind) (p : Place) (window : Bool) (kind : Nat) (jent : Option Nat) : State :=
  let c := s.core (coreOf s.cur)
  let s := match jent with
    | none => s
    | some e => s.setCore (coreOf s.cur) { c with journal := tabSet c.journal e (journalEntry s x p kind) }
  let t := s.thr s.cur
  let va := if p.mode.toNat < 2 then some (x.ea.toNat % 2 ^ 52) else none
  let u := s.setThr s.cur { t with outst := t.outst ++ [⟨s.nonce, x.relaxed, p.own, va⟩] }
  { u with work := s.work ++ [.remoteRequestArrival (accessTo s x p window jent)], nonce := s.nonce + 1 }

/-- Every access of thread k has been performed: none is outstanding, and no load of a payload of its sends is under way (R327). -/
def accessesDone (s : State) (k : Nat) : Bool :=
  (s.thr k).outst == [] && !s.work.any fun e => match e with
    | .payloadRead _ rs => rs.any fun r => r.key == k
    | _ => false

/-- The window of an access: its value is pending (R37). -/
def accessWindow (s : State) (i : Instr) (d : Reg) (lk : BitVec 4) (holds : Bool) : Window :=
  { id := s.nonce, dest := d, count := lk.toNat, event := false, holds := holds, word := encode i,
    pc := (s.thr s.cur).pc, a := 0#64, b := 0#64, mismatch := false, retry := false, arrival := .pending }

/-- The outcome of an access x of instruction i that reaches place p: it issues, with a journal entry only when it is
remote, the lowest free one, and with its banks over the here path; or the opportunity is forfeited. -/
def accessIssues (s : State) (i : Instr) (x : AccessKind) (p : Place) (window : List Window) (kind : Nat) : Prop :=
  let pc := (s.thr s.cur).pc + 4#64
  let s' := if p.port then s else takesBanks s (coreOf s.cur) p.cell x.size
  (cannotIssue s x p → exec i s = .next s) ∧
  (¬ cannotIssue s x p → p.home = coreOf s.cur →
    exec i s = .next (retireTo (sent s' x p (window ≠ []) kind none) s.cur pc window)) ∧
  (∀ e, ¬ cannotIssue s x p → p.home ≠ coreOf s.cur →
    (journalAt (s.core (coreOf s.cur)) e).busy = false → e < 64 →
    (∀ f < e, (journalAt (s.core (coreOf s.cur)) f).busy = true) →
    exec i s = .next (retireTo (sent s' x p (window ≠ []) kind (some e)) s.cur pc window))

/-- The effective address of an M-format access (R31, R140). -/
def eaOf (s : State) (a : Reg) (off : BitVec 8) (size : Nat) : Int :=
  ((readReg s s.cur a).toNat % 2 ^ 52 : Nat) + off.toInt * size

/-- What R140 answers an M-format access that does not go on: a trap, a page fault, a walk (R405 to R413). -/
def accessStops (s : State) (i : Instr) (r : Reach) (ea : Word) (kind : Nat) : Prop :=
  (∀ k d v, r = .trap k d v → exec i s = trapped s k d v) ∧
  (∀ reason, r = .page reason → exec i s = .next (pageFault s s.cur ea reason kind)) ∧
  (r = .miss → exec i s = .next (startWalk s s.cur ea kind))

/-- R145 and R146 in table form: loads with their size and extension, stores with their size. -/
def loadRows (d a : Reg) (mode : BitVec 2) (rx : BitVec 1) (off : BitVec 8) (lk : BitVec 4) :
    List (Instr × BitVec 7 × Nat × Bool) :=
  [(.ldB d a mode rx off lk, 0x40#7, 1, true), (.ldH d a mode rx off lk, 0x41#7, 2, true),
   (.ldW d a mode rx off lk, 0x42#7, 4, true), (.ldD d a mode rx off lk, 0x43#7, 8, false),
   (.ldBu d a mode rx off lk, 0x44#7, 1, false), (.ldHu d a mode rx off lk, 0x45#7, 2, false),
   (.ldWu d a mode rx off lk, 0x46#7, 4, false)]

def storeRows (d a : Reg) (mode : BitVec 2) (rx : BitVec 1) (off : BitVec 8) : List (Instr × BitVec 7 × Nat) :=
  [(.stB d a mode rx off, 0x48#7, 1), (.stH d a mode rx off, 0x49#7, 2), (.stW d a mode rx off, 0x4A#7, 4),
   (.stD d a mode rx off, 0x4B#7, 8)]

/-- R156: the atomics with their operation number in fn[5:3], .d and .w. -/
def atomicRows (d a b : Reg) (sc : BitVec 3) (lk : BitVec 4) : List (Instr × BitVec 7 × MemOp × Nat) :=
  [(.amoAddD d a b sc lk, 0x50#7, .amoAdd, 8), (.amoMinD d a b sc lk, 0x50#7, .amoMin, 8),
   (.amoMaxD d a b sc lk, 0x50#7, .amoMax, 8), (.amoXchgD d a b sc lk, 0x50#7, .amoXchg, 8),
   (.amoCasD d a b sc lk, 0x50#7, .amoCas, 8), (.amoMinuD d a b sc lk, 0x50#7, .amoMinu, 8),
   (.amoMaxuD d a b sc lk, 0x50#7, .amoMaxu, 8),
   (.amoAddW d a b sc lk, 0x51#7, .amoAdd, 4), (.amoMinW d a b sc lk, 0x51#7, .amoMin, 4),
   (.amoMaxW d a b sc lk, 0x51#7, .amoMax, 4), (.amoXchgW d a b sc lk, 0x51#7, .amoXchg, 4),
   (.amoCasW d a b sc lk, 0x51#7, .amoCas, 4), (.amoMinuW d a b sc lk, 0x51#7, .amoMinu, 4),
   (.amoMaxuW d a b sc lk, 0x51#7, .amoMaxu, 4)]

def updateRows (a b : Reg) (sc : BitVec 3) : List (Instr × MemOp) :=
  [(.rupAdd a b sc, .rupAdd), (.rupMin a b sc, .rupMin), (.rupMax a b sc, .rupMax), (.rupOr a b sc, .rupOr),
   (.rupAnd a b sc, .rupAnd), (.rupXor a b sc, .rupXor)]

/-- The signed value of x < 2^n. -/
def signedOf (n x : Nat) : Int := if x < 2 ^ (n - 1) then x else (x : Int) - 2 ^ n

/-- new of R156 and R157, from old, v and c of n bits. -/
def newValue (op : MemOp) (n old v c : Nat) : Nat :=
  match op with
  | .amoAdd | .rupAdd => (old + v) % 2 ^ n
  | .amoMin | .rupMin => if signedOf n old ≤ signedOf n v then old else v
  | .amoMax | .rupMax => if signedOf n old ≤ signedOf n v then v else old
  | .amoMinu => if old ≤ v then old else v
  | .amoMaxu => if old ≤ v then v else old
  | .amoXchg => v
  | .amoCas => if old = c then v else old
  | .rupOr => Nat.lor old v
  | .rupAnd => Nat.land old v
  | .rupXor => Nat.xor old v
  | _ => old

def isAtomic (op : MemOp) : Bool :=
  op == .amoAdd || op == .amoMin || op == .amoMax || op == .amoXchg || op == .amoCas || op == .amoMinu || op == .amoMaxu
def isUpdate (op : MemOp) : Bool :=
  op == .rupAdd || op == .rupMin || op == .rupMax || op == .rupOr || op == .rupAnd || op == .rupXor

/-- The answer reaches the issuing core: at once when the access is local, else as a response on its way (R147). -/
def answered (s : State) (r : Request) (x : Reply) : Out :=
  let a : Response := { key := r.key, aid := r.aid, wid := r.wid, jent := r.jent, reply := x, home := r.home }
  if r.home = coreOf r.key then .next (receive s a) else .next { s with work := s.work ++ [.resultArrival a] }

/-- Byte i of a number, the least significant first (R3). -/
def byteAt (v i : Nat) : Byte := BitVec.ofNat 8 (v / 256 ^ i)

/-- Memory m' is m with the n bytes of v from cell a on (R3), and every other byte as before. -/
def storesOnly (m m' : List Host.Cell) (a n v : Nat) : Prop :=
  ∀ x, readByte m' x = if a ≤ x ∧ x < a + n then byteAt v (x - a) else readByte m x

/-- The value that d of a load gets (R145): size bytes, sign- or zero-extended. -/
def loadedValue (m : List Host.Cell) (cell size : Nat) (signed : Bool) : Word :=
  let v := readBytes m cell size
  if signed then BitVec.ofInt 64 (signedOf (8 * size) v) else BitVec.ofNat 64 v

/-- The n-byte number in little-endian order (R3). -/
def littleEndian (m : List Host.Cell) (a n : Nat) : Nat := ((List.range n).map fun i => (readByte m (a + i)).toNat * 256 ^ i).sum

end Sys2Proof.Machine

/-- R140, R141, R132, R101, R493: the checks of an M-format address in their order, and the trap of each. -/
def Obligations.AddressChecks : Prop :=
  ∀ (s : State) (k : Nat) (a : Word) (off : Int) (size : Nat) (mode : BitVec 2) (kind : Nat) (w : IWord), 0 < size →
    let t := tagFields (a.toNat / 2 ^ 52)
    let tag := t.2.2 = 0 ∧ logOf t.1 = some t.2.1
    let ea : Int := (a.toNat % 2 ^ 52 : Nat) + off
    let n := ea.toNat
    let r := reachMode s k a off size mode kind w
    let bad := r = .trap kindADDRESS 0 (BitVec.ofInt 64 ea)
    let core := coreOf k
    let buffer := n / 2 ^ 20 % 4
    let gbuffer := n / 2 ^ 38 % 4
    let ghome := 256 * (n / 2 ^ 49 % 4) + 16 * (n / 2 ^ 45 % 16) + n / 2 ^ 40 % 32
    (¬ tag → r = .trap kindADDRESS 0 a) ∧
    (tag → (ea < 0 ∨ 2 ^ 52 ≤ ea ∨ ea % size ≠ 0) → bad) ∧
    (tag → 0 ≤ ea → ea < 2 ^ 52 → ea % size = 0 →
      (mode.toNat < 2 → 2 ^ 51 ≤ ea → bad) ∧
      (mode = 3#2 → (2 ^ 22 ≤ ea ∨ buffer = 3 ∨ bufferSize core buffer ≤ n % 2 ^ 20) → bad) ∧
      (mode = 3#2 → ea < 2 ^ 22 → buffer ≠ 3 → n % 2 ^ 20 < bufferSize core buffer →
        (kind ≠ kindLOAD → buffer ≠ 1 → r = .trap kindBUFPERM buffer (BitVec.ofInt 64 ea)) ∧
        ((kind = kindLOAD ∨ buffer = 1) → r = .at ⟨bufferCell core buffer (n % 2 ^ 20), core, false, true, 3#2⟩)) ∧
      (mode = 2#2 → (ea < 2 ^ 51 ∨ gbuffer = 3) → bad) ∧
      (mode = 2#2 → 2 ^ 51 ≤ ea → gbuffer ≠ 3 → 1024 ≤ core → r = .trap kindILLEGAL 6 (w.setWidth 64)) ∧
      (mode = 2#2 → 2 ^ 51 ≤ ea → gbuffer ≠ 3 → core < 1024 →
        (14 ≤ n / 2 ^ 45 % 16 ∨ 16 ≤ n / 2 ^ 40 % 32 ∨ s.dieRetired (n / 2 ^ 49 % 4) = true) → bad) ∧
      (mode = 2#2 → 2 ^ 51 ≤ ea → gbuffer ≠ 3 → core < 1024 → n / 2 ^ 45 % 16 < 14 → n / 2 ^ 40 % 32 < 16 →
        s.dieRetired (n / 2 ^ 49 % 4) = false → bufferSize ghome gbuffer ≤ n % 2 ^ 38 → bad) ∧
      (mode = 2#2 → 2 ^ 51 ≤ ea → gbuffer ≠ 3 → core < 1024 → n / 2 ^ 45 % 16 < 14 → n / 2 ^ 40 % 32 < 16 →
        s.dieRetired (n / 2 ^ 49 % 4) = false → n % 2 ^ 38 < bufferSize ghome gbuffer →
        ((inPartition s (s.thr k).asid ghome = false ∨ (kind ≠ kindLOAD ∧ gbuffer ≠ 1)) →
          r = .trap kindBUFPERM gbuffer (BitVec.ofInt 64 ea)) ∧
        (inPartition s (s.thr k).asid ghome = true → (kind = kindLOAD ∨ gbuffer = 1) →
          r = .at ⟨bufferCell ghome gbuffer (n % 2 ^ 38), ghome, true, decide (ghome = core), 2#2⟩)))

/-- R145, R146, R143, R147, R148, R158: a load or a store, in every mode, relaxed or not. It stops where R140 stops it; it
migrates the thread where R144 says so; it forfeits its opportunity over a limit; else its request is on its way, and a
load's window is open. No byte of memory changes at the issue. -/
def Obligations.LoadStoreIssue : Prop :=
  ∀ (s : State) (d a : Reg) (mode : BitVec 2) (rx : BitVec 1) (off : BitVec 8) (lk : BitVec 4),
    let moves := fun (i : Instr) (p : Place) => ∀ dst, mode.toNat < 2 → migrationTarget s s.cur p.home = some dst →
      exec i s = .next ((s.setThr s.cur { s.thr s.cur with hold := .migrating }).later (.migrationSend s.cur dst .access))
    (∀ w ∈ loadRows d a mode rx off lk, codedM w.1 w.2.1 ∧ (ready w.1 s = true →
      let size := w.2.2.1
      let ea := BitVec.ofInt 64 (eaOf s a off size)
      let r := reachMode s s.cur (readReg s s.cur a) (off.toInt * size) size mode kindLOAD (encode w.1)
      accessStops s w.1 r ea kindLOAD ∧
      ∀ p, r = .at p → moves w.1 p ∧ ((2 ≤ mode.toNat ∨ migrationTarget s s.cur p.home = none) →
        accessIssues s w.1 ⟨.load w.2.2.2, size, rx == 1#1, false, ea, 0#64, 0#64⟩ p
          [accessWindow s w.1 d lk false] 1))) ∧
    (∀ w ∈ storeRows d a mode rx off, codedM w.1 w.2.1 ∧ (ready w.1 s = true →
      let size := w.2.2
      let ea := BitVec.ofInt 64 (eaOf s a off size)
      let r := reachMode s s.cur (readReg s s.cur a) (off.toInt * size) size mode kindSTORE (encode w.1)
      accessStops s w.1 r ea kindSTORE ∧
      ∀ p, r = .at p → moves w.1 p ∧ ((2 ≤ mode.toNat ∨ migrationTarget s s.cur p.home = none) →
        accessIssues s w.1 ⟨.store, size, rx == 1#1, false, ea, readReg s s.cur d, 0#64⟩ p [] 0)))

/-- R150, R151, R142: ld.acq is a non-relaxed load whose window holds back later accesses; st.rel does not issue while an
access of the thread is outstanding; the fences issue, and the thread then waits for its accesses, or for those to its
own buffers; while it waits it issues nothing. The payload loads of a system core's send (R327) are accesses too. -/
def Stated.AcquireReleaseFence : Prop :=
  ∀ (s : State) (d a : Reg) (mode : BitVec 2) (off : BitVec 8) (lk : BitVec 4) (sc : BitVec 3),
    let ea := BitVec.ofInt 64 (eaOf s a off 8)
    let acq := Instr.ldAcq d a mode off lk
    let rel := Instr.stRel d a mode off
    codedM acq 0x4C#7 ∧ codedM rel 0x4D#7 ∧
    (ready acq s = true →
      let r := reachMode s s.cur (readReg s s.cur a) (off.toInt * 8) 8 mode kindLOAD (encode acq)
      accessStops s acq r ea kindLOAD ∧ ∀ p, r = .at p → (2 ≤ mode.toNat ∨ migrationTarget s s.cur p.home = none) →
        accessIssues s acq ⟨.load false, 8, false, true, ea, 0#64, 0#64⟩ p [accessWindow s acq d lk true] 1) ∧
    (ready rel s = true →
      let r := reachMode s s.cur (readReg s s.cur a) (off.toInt * 8) 8 mode kindSTORE (encode rel)
      (accessesDone s s.cur = false → exec rel s = .next s) ∧
      (accessesDone s s.cur = true → accessStops s rel r ea kindSTORE ∧
        ∀ p, r = .at p → (2 ≤ mode.toNat ∨ migrationTarget s s.cur p.home = none) →
          accessIssues s rel ⟨.store, 8, false, false, ea, readReg s s.cur d, 0#64⟩ p [] 0)) ∧
    (ready (.fenceScope sc) s = true → ∃ u, exec (.fenceScope sc) s = .next u ∧
      u = (retire s s.cur).setThr s.cur { (retire s s.cur).thr s.cur with hold := .fence } ∧
      (accessesDone u s.cur = false → turnOf (settleHold u s.cur) s.cur ≠ .issue)) ∧
    (ready .fenceLoop s = true → ∃ u, exec .fenceLoop s = .next u ∧
      u = (retire s s.cur).setThr s.cur { (retire s s.cur).thr s.cur with hold := .loop } ∧
      ((∃ o ∈ (u.thr s.cur).outst, o.own = true) → turnOf (settleHold u s.cur) s.cur ≠ .issue))

/-- R494: while an acquire's value has not arrived, no memory access of the thread issues; nothing changes at the
opportunity. -/
def Stated.AcquireHoldsBack : Prop :=
  ∀ (i : Instr) (s : State) (w : Window), isWord i = true → memoryInstr i = true → issueCause i s s.cur = none →
    w ∈ (s.thr s.cur).allWindows → w.holds = true → w.waits = true → exec i s = .next s

/-- R156, R157, R153, R154: the R-format accesses, and lrw with its ADDRESS traps: a here address or a glob W or C location,
and RESLIMIT (DETAIL 1) where the thread holds or waits for 4 reservations. sc is a release: it does not issue while an
access is outstanding. -/
def Obligations.AtomicIssue : Prop :=
  ∀ (s : State) (d a b : Reg) (sc : BitVec 3) (lk : BitVec 4) (mode : BitVec 2) (off : BitVec 8),
    let x := readReg s s.cur a
    let ea := BitVec.ofNat 64 (x.toNat % 2 ^ 52)
    let plain := fun (i : Instr) (size kind : Nat) (k : AccessKind) (ws : List Window) (jk : Nat) =>
      let r := reachPlain s s.cur x size kind (encode i)
      accessStops s i r ea kind ∧ ∀ p, r = .at p → accessIssues s i k p ws jk
    (∀ w ∈ atomicRows d a b sc lk, codedM w.1 w.2.1 ∧ (ready w.1 s = true →
      plain w.1 w.2.2.2 kindRMW ⟨w.2.2.1, w.2.2.2, false, false, ea, readReg s s.cur b, readReg s s.cur d⟩
        [accessWindow s w.1 d lk false] 4)) ∧
    (∀ w ∈ updateRows a b sc, codedM w.1 0x54#7 ∧ (ready w.1 s = true →
      plain w.1 8 kindSTORE ⟨w.2, 8, true, false, ea, readReg s s.cur b, 0#64⟩ [] 2)) ∧
    (ready (.sc d a b lk) s = true →
      (accessesDone s s.cur = false → exec (.sc d a b lk) s = .next s) ∧
      (accessesDone s s.cur = true → plain (.sc d a b lk) 8 kindRMW ⟨.sc, 8, false, false, ea, readReg s s.cur b, 0#64⟩
        [accessWindow s (.sc d a b lk) d lk false] 4)) ∧
    (let i := Instr.lrw d a mode off lk
     let va := BitVec.ofInt 64 (eaOf s a off 8)
     let r := reachMode s s.cur x (off.toInt * 8) 8 mode kindLOAD (encode i)
     ready i s = true → accessStops s i r va kindLOAD ∧ ∀ p, r = .at p →
      ((p.mode = 3#2 ∨ (p.mode = 2#2 ∧ p.cell / 2 ^ 38 % 4 ≠ 1)) → exec i s = trapped s kindADDRESS 0 va) ∧
      ((p.mode.toNat < 2 ∨ (p.mode = 2#2 ∧ p.cell / 2 ^ 38 % 4 = 1)) →
        ((∃ o ∈ (s.thr s.cur).outst, o.relaxed = false) → exec i s = .next s) ∧
        (4 ≤ reservationsOf s s.cur → (∀ o ∈ (s.thr s.cur).outst, o.relaxed = true) →
          exec i s = trapped s kindADDRESS 1 va) ∧
        (reservationsOf s s.cur < 4 → (2 ≤ mode.toNat ∨ migrationTarget s s.cur p.home = none) →
          accessIssues s i ⟨.lrw, 8, false, true, va, 0#64, 0#64⟩ p [accessWindow s i d lk true] 1)))

/-- R145, R146, R156, R157, R3: what the home does with an access that it does not refuse, in one step. A load changes no
byte; a store, an atomic and a remote update change exactly the bytes of the location. An access that arrives at an A-buffer
waits for its bank (R134), and no other does. -/
def Stated.HomePerforms : Prop :=
  ∀ (s : State) (r : Request), Memory.wf s.mem → refusal s r = none → 0 < r.size →
    (arrivalBanks s r = false →
      exec (.remoteRequestArrival r) s = .next { s with work := .remoteRequestArrival r :: s.work }) ∧
    (r.port = false ∨ banksOf r.home r.cell r.size = 0#16 → arrivalBanks s r = true) ∧
    (arrivalBanks s r = true →
    let n := 8 * r.size
    let old := readBytes s.mem r.cell r.size
    let v := r.data.toNat % 2 ^ n
    let c := r.cmp.toNat % 2 ^ n
    old = littleEndian s.mem r.cell r.size ∧
    (∀ g, r.op = .load g →
      exec (.remoteRequestArrival r) s = answered s r (.value (loadedValue s.mem r.cell r.size g))) ∧
    (r.op = .store → ∃ m, exec (.remoteRequestArrival r) s = answered { s with mem := m } r .ack ∧
      storesOnly s.mem m r.cell r.size v ∧ Memory.wf m) ∧
    (isAtomic r.op = true → ∃ m,
      exec (.remoteRequestArrival r) s = answered { s with mem := m } r (.value
        (if r.op = .amoMinu ∨ r.op = .amoMaxu then BitVec.ofNat 64 old else BitVec.ofInt 64 (signedOf n old))) ∧
      storesOnly s.mem m r.cell r.size (newValue r.op n old v c) ∧ Memory.wf m) ∧
    (isUpdate r.op = true → ∃ m, exec (.remoteRequestArrival r) s = answered { s with mem := m } r .ack ∧
      storesOnly s.mem m r.cell r.size (newValue r.op n old v c) ∧ Memory.wf m))

/-- R159, R160: an access to a retired home, a quarantined home, a glob core that hosts no thread of its context, or a line
that cannot be read, or that meets an error it cannot correct (R466, R467), is refused: memory is unchanged, and a remote access's
refusal is on its way back. The access whose beat was given up has met that error then. -/
def Stated.HomeRefuses : Prop :=
  ∀ (s : State) (r : Request) (e : Nat), r.jent = some e → r.home ≠ coreOf r.key → arrivalBanks s r = true →
    let h := (s.core r.home).health
    let retired := s.dieRetired (dieOf r.home) = true
    let refusesAs := fun (c : BitVec 4) => exec (.remoteRequestArrival r) s =
      answered { s with erring := s.erring.erase (r.cell / 64, true) } r (.refused c)
    ((retired ∨ h = .retired) → refusesAs 5#4) ∧
    (¬ retired → h = .quarantined → refusesAs 2#4) ∧
    (¬ retired → h = .good → r.mode = 2#2 → hostsContext s r.home r.asid = false → refusesAs 1#4) ∧
    (¬ retired → h = .good → (r.mode = 2#2 → hostsContext s r.home r.asid = true) →
      (opReads r.op = true ∧ r.cell / 64 ∈ s.poison) ∨ (opReads r.op = true ∧ (r.cell / 64, false) ∈ s.erring) ∨
        (r.cell / 64, true) ∈ s.erring → refusesAs 3#4)

/-- R147, R158, R160, R161: the answer at the issuing core. The access is no longer outstanding. A value or an
acknowledgement frees the journal entry, and a value is its window's result; a refusal stays in the entry, with its cause
and TIME, and becomes a POSTED trap of the thread, for a load when its window closes. -/
def Stated.AnswerArrives : Prop :=
  ∀ (s : State) (r : Response) (e : Nat), r.jent = some e →
    let k := r.key
    let t := s.thr k
    let c := s.core (coreOf k)
    let s' := s.setThr k { t with outst := t.outst.filter fun o => o.aid ≠ r.aid }
    let freed := s'.setCore (coreOf k) { c with journal := tabSet c.journal e freeEntry }
    let noted := fun cause => { s'.setCore (coreOf k)
        { c with journal := tabSet c.journal e { journalAt c e with ref := true, cause := cause, time := s.time } } with
      sticky := .jref (coreOf k) e :: s.sticky }
    (r.reply = .ack → exec (.resultArrival r) s = .next freed) ∧
    (∀ v w, r.reply = .value v → r.wid = some w → exec (.resultArrival r) s = .next (arrive freed k w (.one v))) ∧
    (∀ cause w, r.reply = .refused cause → r.wid = some w →
      exec (.resultArrival r) s = .next (arrive (noted cause) k w (.refused e))) ∧
    (∀ cause, r.reply = .refused cause → r.wid = none → ∃ u, exec (.resultArrival r) s = .next u ∧
      u = (noted cause).setThr k { (noted cause).thr k with posted := t.posted ++ [(e, (journalAt c e).ea)] })

/-- R152 to R155: an lrw at its home. With no queue for the doubleword it is granted at once and reads the word; behind a
holder it waits, without an answer; behind an absent holder it is woken with ABSENT and joins nothing; at a full table, or
behind older requests that wait for an entry, it is held back. -/
def Stated.ReservationQueue : Prop :=
  ∀ (s : State) (r : Request), refusal s r = none → r.op = .lrw → arrivalBanks s r = true →
    let c := s.core r.home
    let entry := fun (q : Nat) (waiting : Option Request) =>
      (⟨r.cell, r.asid, r.group, some r.tnum, false, waiting, q⟩ : Reservation)
    let full := 256 ≤ c.resv.length ∨ c.resvHeld ≠ []
    (resvHead c r.cell = none → full → exec (.remoteRequestArrival r) s =
      .next (s.setCore r.home { c with resvHeld := c.resvHeld ++ [r] })) ∧
    (resvHead c r.cell = none → ¬ full → exec (.remoteRequestArrival r) s =
      answered { s.setCore r.home { c with resv := c.resv ++ [entry s.nonce none] } with nonce := s.nonce + 1 } r
        (.value (readWord s.mem r.cell))) ∧
    (∀ h, resvHead c r.cell = some h → h.isOf r.asid r.group r.tnum = false →
      (h.absent = true → exec (.remoteRequestArrival r) s = answered s r (.value 0xFFFFFFFFFFFFFFF1#64)) ∧
      (h.absent = false → ¬ full → exec (.remoteRequestArrival r) s =
        .next (s.setCore r.home { c with resv := c.resv ++ [entry 0 (some r)] })) ∧
      (h.absent = false → full → exec (.remoteRequestArrival r) s =
        .next (s.setCore r.home { c with resvHeld := c.resvHeld ++ [r] }))) ∧
    (∀ q qs, c.resvHeld = q :: qs → 256 ≤ c.resv.length → exec (.reservationAdmit r.home) s = .next s) ∧
    (∀ q qs, c.resvHeld = q :: qs → c.resv.length < 256 → q.home = r.home → q.op = .lrw → q.cell ∉ c.resv.map (·.cell) →
      ∃ u, exec (.reservationAdmit r.home) s = .next u ∧ (u.core r.home).resvHeld = qs ∧
        ∃ x ∈ (u.core r.home).resv, x.cell = q.cell ∧ x.tnum = some q.tnum ∧ x.waiting = none)

/-- R154: an sc by the thread that holds the doubleword's reservation writes the word, passes the reservation on, and the
next waiter is granted the value written, in one step; by any other thread it changes nothing and its status is 1. -/
def Stated.StoreConditional : Prop :=
  ∀ (s : State) (r : Request), refusal s r = none → r.op = .sc → arrivalBanks s r = true →
    let c := s.core r.home
    (∀ h rest, c.resv = h :: rest → h.cell = r.cell → h.isOf r.asid r.group r.tnum = true → h.waiting = none →
      c.resvHeld = [] → (∀ x ∈ rest, x.cell ≠ r.cell) → exec (.remoteRequestArrival r) s =
        answered { s.setCore r.home { c with resv := rest } with
          mem := writeWord s.mem r.cell r.data, nonce := s.nonce + 1 } r (.value 0#64)) ∧
    (∀ h w q rest, c.resv = h :: w :: rest → h.cell = r.cell → h.isOf r.asid r.group r.tnum = true → h.waiting = none →
      w.cell = r.cell → w.waiting = some q → c.resvHeld = [] → q.home = r.home → q.home ≠ coreOf q.key →
      let s' := { s.setCore r.home { c with resv := { w with waiting := none, seq := s.nonce } :: rest } with
        mem := writeWord s.mem r.cell r.data, nonce := s.nonce + 1 }
      exec (.remoteRequestArrival r) s = answered
        { s' with work := s.work ++ [.resultArrival ⟨q.key, q.aid, q.wid, q.jent, .value r.data, q.home⟩] } r (.value 0#64)) ∧
    ((∀ h, resvHead c r.cell = some h → h.isOf r.asid r.group r.tnum = false ∨ h.waiting ≠ none) →
      exec (.remoteRequestArrival r) s = answered s r (.value 1#64))

/-! Barrier objects (16), queues and the pool (17). -/

namespace Sys2Proof.Machine

/-- The request e of the instruction is on its way, and the thread waits for the value of d, with which the instruction counts
as issued (R283, R37). -/
def asked (s : State) (d : Reg) (e : Event) : Out :=
  .next { s.setThr s.cur { s.thr s.cur with hold := .answer d } with work := s.work ++ [e] }

/-- Objects per unit of a scope (R344); this module is no pod member, and its .pod is its .pkg (R11). -/
def objectsOf (scope : Nat) : Nat :=
  if scope = 1 then 16 else if scope = 2 then 8 else if scope = 3 then 64 else if scope = 4 ∨ scope = 5 then 32 else 0

/-- The object that operand x names, where it passes the checks of R354. -/
def objectNamed (s : State) (x : Word) (scope : Nat) : Option Nat :=
  let j := barrierKey scope (coreOf s.cur) x.toNat
  if x.toNat < objectsOf scope ∧ (1024 ≤ coreOf s.cur → 4 ≤ scope) ∧ (s.barrier j).valid = true ∧
      (s.barrier j).asid = (s.thr s.cur).asid then some j
  else none

/-- The state word of R346. -/
def objectWord (x : Barrier) (refused : Bool) : Word :=
  fieldsWord [(x.phase.toNat, 63), (x.fault.toNat, 62), (x.bereaved.toNat, 61), (refused.toNat, 60), (x.orphan.toNat, 59),
    (x.exp, 24), (x.arr, 0)]

/-- The release test of R349. -/
def tested (x : Barrier) : Barrier :=
  if x.arr = x.exp ∧ x.pend = 0 ∧ x.fault = false ∧ x.bereaved = false then { x with phase := !x.phase, arr := 0 } else x

/-- The event of a waiter at a step that leaves the object as x (R358); reset: the step is a barinit or a BOWN write. -/
def eventAt (x : Barrier) (reset old : Bool) : Option Nat :=
  if x.phase ≠ old then some 0 else if x.orphan then some 4 else if x.bereaved then some 2 else if x.fault then some 1
  else if reset then some 3 else none

/-- A step leaves object j as x: every waiter with an event gets its status, the others go on waiting. -/
def stepped (s : State) (j : Nat) (x : Barrier) (reset : Bool) : State :=
  let woken := x.waiters.filter fun w => (eventAt x reset w.old).isSome
  let u := woken.foldl (fun s w => arrive s w.key w.wid (.one (BitVec.ofNat 64 ((eventAt x reset w.old).getD 0)))) s
  u.setBarrier j { x with waiters := x.waiters.filter fun w => (eventAt x reset w.old).isNone }

/-- The object after the reset of R348 or R355: PHASE stands. -/
def resetTo (x : Barrier) (exp : Nat) : Barrier :=
  { x with exp := exp, arr := 0, pend := 0, fault := false, bereaved := false, orphan := false }

/-- The value v of d goes to thread k from a core: to a thread of another die as a response on its way (R440). -/
def replied (s : State) (core k : Nat) (d : Reg) (v : Word) : State :=
  if core / 256 = k / 8 / 256 then answer s k d v else { s with work := s.work ++ [.answerArrival core k d v] }

/-- The entries in use in the retiring blocks of a pool, and the blocks that are neither retired nor retiring (R369). -/
def inRetiring (c : Core) : Nat := (c.qretiring.map (·.2)).sum

def blocksOpen (c : Core) : Nat :=
  ((List.range 64).filter fun b => !c.qret.getLsbD b && c.qretiring.all fun x => x.1 != b).length

/-- The admission test of R364 for an item of n entries at queue q; the free entries of a retiring block are none. -/
def admitted (c : Core) (q n : Nat) : Prop :=
  let resv := ((List.range 16).map fun j => qMin (qcfgOf c j) - occupancy c j).sum
  occupancy c q + n ≤ qCap (qcfgOf c q) ∧
    (n : Int) ≤ (qMin (qcfgOf c q) - occupancy c q : Nat) + ((poolFree c : Int) - resv) ∧
    n ≤ 64 * blocksOpen c - (poolUsed c - inRetiring c)

/-- What reading n bytes at issue over the here path makes of the state (R134, R142, R149): forfeited while an engine holds one of
the banks; with no earlier access of the thread's own to those doublewords under way, the banks in use and nothing else. -/
def hereSettles (s : State) (cell n : Nat) : Prop :=
  let settled := settleHere s s.cur cell n
  (bankTaken s (coreOf s.cur) cell n → settled = none) ∧
  (¬ bankTaken s (coreOf s.cur) cell n →
    (∀ r, (.remoteRequestArrival r ∈ s.work ∨ ∃ rs, .storeIssue rs ∈ s.work ∧ r ∈ rs) → r.key = s.cur → r.port = false →
      r.cell / 8 < cell / 8 ∨ (cell + n - 1) / 8 < r.cell / 8) → settled = some (takesBanks s (coreOf s.cur) cell n))

/-- The operands of qput and qget are in order (R372). -/
def entryOk (s : State) (x y : Word) : Prop :=
  let w := qcfgOf (s.core (coreOf s.cur)) x.toNat
  8 ≤ x.toNat ∧ x.toNat < 16 ∧ y.toNat / 2 ^ 20 = 1 ∧ y.toNat % 64 = 0 ∧ y.toNat % 2 ^ 20 + 64 ≤ 524288 ∧
    coreOf s.cur < 1024 ∧ qKind w = 3 ∧ qAsid w = (s.thr s.cur).asid

/-- The st.d of doubleword i of an entry that a qget removes (R373). -/
def entryStore (s : State) (y : Word) (e : List Word) (i : Nat) : Request :=
  let t := s.thr s.cur
  { key := s.cur, aid := s.nonce + 1 + i, wid := none, op := .store
    cell := bufferCell (coreOf s.cur) 1 (y.toNat % 2 ^ 20 + 8 * i), size := 8, home := coreOf s.cur, port := false
    ea := y + BitVec.ofNat 64 (8 * i), mode := 3#2, data := e.getD i 0#64, cmp := 0#64, asid := t.asid, group := t.group
    tnum := t.tnum, jent := none }

/-- The refusals of qcfg (R371), for word v of queue q. -/
def cfgRefused (c : Core) (core q : Nat) (v : Word) : Prop :=
  let word := fun j => if j = q then v else qcfgOf c j
  let kind := qKind v
  bitsAt v 13 3 ≠ 0 ∨ qCap v < qMin v ∨ 4096 < qCap v ∨
  (q ≤ 7 ∧ (kind ≠ (if q ≤ 4 then 1 else 2) ∨ bitsAt v 33 31 ≠ 0)) ∨
  (8 ≤ q ∧ kind ∉ [0, 3, 4, 5]) ∨ (8 ≤ q ∧ kind = 0 ∧ v ≠ 0#64) ∨
  (qLevel v = true ∧ kind ≠ 3) ∨ (qPeer v ≠ 0 ∧ kind ≠ 4 ∧ kind ≠ 5) ∨
  ((kind = 4 ∨ kind = 5) ∧ (bitsAt v 42 2 ≠ dieOf core ∨ 14 ≤ bitsAt v 38 4 ∨ 16 ≤ bitsAt v 33 5 ∨ qPeerCore v = core)) ∨
  (q = 5 ∧ 256 < qCap v) ∨ (q = 6 ∧ 1536 < qCap v) ∨ (q = 7 ∧ 128 < qCap v) ∨
  256 < ((List.range 5).map fun j => qCap (word j)).sum ∨
  poolCapacity c < ((List.range 16).map fun j => qMin (word j)).sum

/-- The busy answer of qcfg (R371). -/
def cfgBusy (c : Core) (q : Nat) (v : Word) : Prop :=
  let old := qcfgOf c q
  8 ≤ q ∧ qKind old ≠ 0 ∧ qKind v ≠ 0 ∧ 0 < occupancy c q ∧ (qAsid old ≠ qAsid v ∨ qKind old ≠ qKind v ∨ qPeer old ≠ qPeer v)

/-- The report of qstat (R374). -/
def queueReport (c : Core) (asid : BitVec 16) (q : Nat) : Word :=
  let w := qcfgOf c q
  fieldsWord [(qKind w, 60), ((qLevel w).toNat, 59), (if q ≤ 7 ∨ qAsid w = asid then 1 else 0, 58),
    ((c.qbereaved.getLsbD q).toNat, 57), ((c.qorphan.getLsbD q).toNat, 56), (qCap w, 26), (qMin w, 13), (occupancy c q, 0)]

end Sys2Proof.Machine

/-- R348, R349, R351 to R358, R46: the barrier instructions with their traps, the release test, and the events of the
waiters; and a BOWN write. barjoin waits for its thread's accesses, as st.rel does. -/
def Stated.BarrierResults : Prop :=
  ∀ (s : State) (d a b : Reg) (sc : BitVec 3) (lk : BitVec 4),
    let x := readReg s s.cur a
    let y := readReg s s.cur b
    let j? := objectNamed s x sc.toNat
    let init := Instr.barinit d a b sc
    let join := Instr.barjoin d a b sc
    let wait := Instr.barwait d a b sc lk
    let bytes := Instr.barbytes d a b sc
    codedR init 0x58#7 (0b000#3 ++ sc) ∧ codedR join 0x58#7 (0b001#3 ++ sc) ∧
    codedL wait 0x58#7 (0b010#3 ++ sc) lk ∧ codedR bytes 0x58#7 (0b011#3 ++ sc) ∧
    (∀ i ∈ [init, join, wait, bytes], (ready i s = true → j? = none → exec i s = trapped s kindADDRESS 0 x) ∧
      ((sc = 0#3 ∨ 6#3 ≤ sc) → coreOf s.cur < 1024 → exec i s = trapped s kindILLEGAL 2 ((encode i).setWidth 64))) ∧
    (∀ j, j? = some j →
      let o := s.barrier j
      (ready init s = true → exec init s =
        if 1 ≤ y.toNat ∧ y.toNat < 2 ^ 24 then
          wrote (stepped s j (resetTo o y.toNat) true) d (objectWord (resetTo o y.toNat) false)
        else trapped s kindADDRESS 0 y) ∧
      (ready join s = true → exec join s =
        if 2 ^ 48 ≤ y.toNat then trapped s kindADDRESS 0 y
        else if accessesDone s s.cur = false then .next s
        else if o.arr = o.exp ∨ 2 ^ 55 ≤ o.pend + y.toNat then wrote s d (objectWord o true)
        else
          let n := { o with arr := o.arr + 1, pend := o.pend + y.toNat }
          wrote (stepped s j (tested n) false) d (objectWord n false)) ∧
      (ready bytes s = true → exec bytes s =
        if 2 ^ 48 ≤ y.toNat then trapped s kindADDRESS 0 y
        else if 2 ^ 55 ≤ o.pend + y.toNat then wrote s d 0x8000000000000000#64
        else
          let n := { o with pend := o.pend + y.toNat }
          wrote (stepped s j (tested n) false) d (BitVec.ofInt 64 n.pend)) ∧
      (ready wait s = true →
        let old := if y.getLsbD 58 then o.phase else y.getLsbD 63
        let o' := { o with waiters := o.waiters ++ [⟨s.cur, s.nonce, old⟩] }
        let t := s.thr s.cur
        let w : Window := { id := s.nonce, dest := d, count := lk.toNat, event := true, holds := true, word := encode wait
                            pc := t.pc, mismatch := false, retry := false, a := x, b := if old then 0x8000000000000000#64 else 0#64, arrival := .pending }
        let u := ({ s with nonce := s.nonce + 1 }.setBarrier j o').setThr s.cur
          { t with pc := t.pc + 4#64, windows := counted t.windows ++ [w], stay := false, mismatch := false }
        exec wait s = .next (closeWindows (stepped u j o' false) s.cur))) ∧
    (∀ (k : Nat) (v : Word), 1024 ≤ coreOf k ∨ slotOf k = 7 →
      let j := barrierSelected (s.thr k).bsel
      exec (.bownWrite k v) s =
        .next (stepped s j { resetTo (s.barrier j) 1 with valid := v.getLsbD 63, asid := v.extractLsb' 0 16 } true))

/-- R351, R350: the retirement of an engine operation's bytes, and the conveyance of an object. -/
def Stated.BarrierEngine : Prop :=
  ∀ (s : State) (core : Nat) (asid : BitVec 16) (scope ix bytes : Nat) (failed : Bool),
    let j := barrierKey scope core ix
    let o := s.barrier j
    (o.valid = false ∨ o.asid ≠ asid → retireBytes s core asid scope ix bytes failed = s) ∧
    (o.valid = true → o.asid = asid →
      (-(2 ^ 55) ≤ o.pend - bytes → retireBytes s core asid scope ix bytes failed =
        stepped s j (tested { o with pend := o.pend - bytes, fault := o.fault || failed }) false) ∧
      (o.pend - bytes < -(2 ^ 55) → retireBytes s core asid scope ix bytes failed =
        stepped s j { o with fault := true } false)) ∧
    conveyBarrier s j true = stepped s j { o with bereaved := true } false ∧
    conveyBarrier s j false = stepped s j { o with bereaved := true, orphan := true } false

/-- R370 to R374, R364, R493: the queue instructions. qput reads its entry at issue over the here path, behind its thread's
own earlier accesses there to those bytes (R149), and forfeits while an engine holds one of the banks (R134); qget's entry leaves
the list at once, and its stores are done when the window closes. A qcfg to another core takes a place of the outbound queue, and
forfeits while that has none (R361; log 39, DESIGN CHOICE). -/
def Stated.QueueResults : Prop :=
  ∀ (s : State) (d a b : Reg) (lk : BitVec 4),
    let x := readReg s s.cur a
    let y := readReg s s.cur b
    let core := coreOf s.cur
    let c := s.core core
    let put := Instr.qput d a b
    let get := Instr.qget d a b lk
    let cfg := Instr.qcfg d a b
    let stat := Instr.qstat d a
    let withList := fun (q : Nat) (l : List (List Word)) => s.setCore core { c with lists := tabSet c.lists q l }
    codedR put 0x59#7 0x00#6 ∧ codedL get 0x59#7 0x01#6 lk ∧ codedR cfg 0x59#7 0x02#6 ∧ codedR stat 0x59#7 0x03#6 ∧
    (∀ i ∈ [put, get], ready i s = true → ¬ entryOk s x y → exec i s = trapped s kindADDRESS 0 x) ∧
    (ready put s = true → entryOk s x y →
      let q := x.toNat
      let cell := bufferCell core 1 (y.toNat % 2 ^ 20)
      let settled := settleHere s s.cur cell 64
      hereSettles s cell 64 ∧ (settled = none → exec put s = .next s) ∧
      (∀ u, settled = some u →
        let c' := u.core core
        (c'.qorphan.getLsbD q = true → exec put s = wrote u d 3#64) ∧
        (c'.qorphan.getLsbD q = false → admitted c' q 1 → exec put s = wrote (u.setCore core { c' with
          lists := tabSet c'.lists q (tabGet [] c'.lists q ++
            [(List.range 8).map fun i => readWord u.mem (cell + 8 * i)]) }) d 0#64) ∧
        (c'.qorphan.getLsbD q = false → ¬ admitted c' q 1 → exec put s = wrote u d 1#64))) ∧
    (ready get s = true → entryOk s x y →
      let q := x.toNat
      (c.qorphan.getLsbD q = true → exec get s = opened s get d lk 3#64) ∧
      (c.qorphan.getLsbD q = false → tabGet [] c.lists q = [] → exec get s = opened s get d lk 1#64) ∧
      (∀ e es, c.qorphan.getLsbD q = false → tabGet [] c.lists q = e :: es → e.length = 8 →
        y.toNat % 2 ^ 20 + 64 ≤ 2 ^ 19 →
        let w : Window := { id := s.nonce, dest := d, count := lk.toNat, event := false, holds := false
                            word := encode get, pc := (s.thr s.cur).pc, mismatch := false, retry := false, a := 0#64, b := 0#64
                            arrival := .later (.buffer 0#64 ((List.range 8).map (entryStore s y e))) }
        let u := withList q es
        exec get s = .next (retireTo { u with
          nonce := s.nonce + 9, work := s.work ++ [.longLatencyResultArrival s.cur s.nonce] } s.cur
          ((s.thr s.cur).pc + 4#64) [w]))) ∧
    (ready stat s = true → exec stat s =
      if 64 ≤ x.toNat ∨ 1024 ≤ core ∨ 48 ≤ x.toNat then trapped s kindADDRESS 0 x
      else if x.getLsbD 4 then
        wrote s d (fieldsWord [(c.qovc.toNat, 63), (poolCapacity c, 16), (poolFree c, 0)])
      else
        let q := x.toNat % 16
        let mine := q ≤ 7 ∨ qAsid (qcfgOf c q) = (s.thr s.cur).asid
        let u := if x.getLsbD 5 = true ∧ mine then
            s.setCore core { c with qbereaved := c.qbereaved &&& ~~~(1#16 <<< q) } else s
        wrote u d (queueReport c (s.thr s.cur).asid q)) ∧
    (ready cfg s = true →
      (∀ n, coreFor s s.cur y = some n → y.toNat / 2 ^ 52 = 0 → y.toNat / 2 ^ 4 % 2 ^ 36 = 0 →
        (n = core ∨ outbound s core 0 < 8 → exec cfg s = asked s d (.qcfgRequest s.cur d n (y.toNat % 16) x)) ∧
        (n ≠ core → 8 ≤ outbound s core 0 → exec cfg s = .next s)) ∧
      (coreFor s s.cur y = none ∨ y.toNat / 2 ^ 52 ≠ 0 ∨ y.toNat / 2 ^ 4 % 2 ^ 36 ≠ 0 →
        exec cfg s = trapped s kindADDRESS 0 y) ∧
      ((s.thr s.cur).view = .hypervisor → core < 1024 → y.toNat / 2 ^ 40 = 0 → coreFor s s.cur y = some core) ∧
      (1024 ≤ core → y.toNat / 2 ^ 40 = 0 → coreFor s s.cur y = none))

/-- R371, R368: the step of a qcfg at the named core, and its answer; and R283, R37, R440: an answer goes to the thread that waits
for it, from another die as a response, its value is written, and the instruction then counts as issued. -/
def Stated.QueueConfigures : Prop :=
  ∀ (s : State) (k : Nat) (d : Reg) (core q : Nat) (v : Word), q < 16 →
    let c := s.core core
    let mask : BitVec 16 := ~~~(BitVec.ofNat 16 (2 ^ q))
    let c' := { c with
      qcfg := c.qcfg.setIfInBounds q v, qbereaved := c.qbereaved &&& mask, qorphan := c.qorphan &&& mask
      lists := if 8 ≤ q ∧ qKind v = 0 then tabSet c.lists q [] else c.lists
      chanOpen := if 8 ≤ q ∧ qKind v = 0 then c.chanOpen &&& mask else c.chanOpen }
    (cfgRefused c core q v → exec (.qcfgRequest k d core q v) s = .next (replied s core k d 1#64)) ∧
    (¬ cfgRefused c core q v → cfgBusy c q v → exec (.qcfgRequest k d core q v) s = .next (replied s core k d 2#64)) ∧
    (¬ cfgRefused c core q v → ¬ cfgBusy c q v →
      exec (.qcfgRequest k d core q v) s = .next (replied (s.setCore core c') core k d 0#64)) ∧
    (∀ src v, runEvent (.answerArrival src k d v) s = .next (answer s k d v)) ∧
    (∀ u v, (u.thr k).hold = .answer d → answer u k d v =
      retire (writeReg (u.setThr k { u.thr k with hold := .none }) k d v) k) ∧
    (∀ u v, (u.thr k).hold ≠ .answer d → answer u k d v = u)

/-- R207, R365, R342, R368: the head of a sending channel moves to its peer's receiving channel once that admits it, and stays
while its queue is ORPHAN; an entry that levelling shipped joins the neighbour's list, or goes back to the sender's tail.
R369: a pool block that is to retire is retired once no entry of it is in use, and the minima shrink where they are no longer below
the capacity; until then it is retiring, and takes no entry. How many of the entries in use lie in it is open (log 37, DESIGN
CHOICE). -/
def Stated.QueueMoves : Prop :=
  ∀ (s : State) (core : Nat),
    let c := s.core core
    (∀ ch e e' es, tabGet [] c.lists (8 + ch) = e :: e' :: es →
      let w := qcfgOf c (8 + ch)
      let peer := qPeerCore w
      let q := 8 + qPeerChannel w
      let p := s.core peer
      let there := qcfgOf p q
      peer ≠ core → qKind w = 4 → qKind there = 5 → qAsid there = qAsid w → qPeerCore there = core → qPeerChannel there = ch →
      (c.qorphan.getLsbD (8 + ch) = false → admitted p q 1 → exec (.channelEntryMove core ch) s = .next
        ((s.setCore core { c with lists := tabSet c.lists (8 + ch) (e' :: es) }).setCore peer
          { p with lists := tabSet p.lists q (tabGet [] p.lists q ++ [e]) })) ∧
      (c.qorphan.getLsbD (8 + ch) = true ∨ ¬ admitted p q 1 → exec (.channelEntryMove core ch) s =
        .next { s with work := s.work ++ [.channelEntryMove core ch] })) ∧
    (∀ q src e, qKind (qcfgOf c q) = 3 →
      let joined := s.setCore core { c with lists := tabSet c.lists q (tabGet [] c.lists q ++ [e]) }
      (core = src → (admitted c q 1 → exec (.levelledEntryArrival core q src e) s = .next joined) ∧
        (¬ admitted c q 1 → exec (.levelledEntryArrival core q src e) s =
          .next { s with work := s.work ++ [.levelledEntryArrival core q src e] })) ∧
      (core ≠ src → qAsid (qcfgOf c q) = qAsid (qcfgOf (s.core src) q) →
        (admitted c q 1 → exec (.levelledEntryArrival core q src e) s = .next joined) ∧
        (¬ admitted c q 1 → exec (.levelledEntryArrival core q src e) s =
          .next { s with work := s.work ++ [.levelledEntryArrival src q src e] }))) ∧
    (∀ n, 64 ≤ n ∨ c.qret.getLsbD n = true ∨ (∃ x ∈ c.qretiring, x.1 = n) → exec (.poolBlockRetire core n) s = .next s) ∧
    (∀ n < 64, c.qret.getLsbD n = false → (∀ x ∈ c.qretiring, x.1 ≠ n ∧ x.2 ≠ 0) →
      let used := blockUsed s c
      let outside := poolUsed c - inRetiring c
      let c' := { c with qret := c.qret ||| BitVec.ofNat 64 (2 ^ n), qused := poolUsed c }
      (outside ≤ 64 * blocksOpen c → used ≤ 64 ∧ used ≤ outside ∧ outside - used ≤ 64 * (blocksOpen c - 1)) ∧
      (used ≠ 0 → exec (.poolBlockRetire core n) s = .next { s.setCore core { c with
        qretiring := c.qretiring ++ [(n, used)], qused := poolUsed c } with nonce := s.nonce + 1 }) ∧
      (used = 0 →
      let m := fun j => qMin (qcfgOf c j)
      let sum := ((List.range 15).map fun j => m (j + 1)).sum
      (m 0 + sum < poolCapacity c' → exec (.poolBlockRetire core n) s =
        .next { s.setCore core c' with nonce := s.nonce + 1 }) ∧
      (poolCapacity c' ≤ m 0 + sum → ∃ x, exec (.poolBlockRetire core n) s = .next { s.setCore core x with
          nonce := s.nonce + 1, sticky := .queueOvc core :: s.sticky } ∧
        x = { c' with qovc := true, qcfg := x.qcfg } ∧ qcfgOf x 0 = qcfgOf c 0 ∧
        ∀ j, 1 ≤ j → j < 16 → qMin (qcfgOf x j) = (poolCapacity c' - m 0) * m j / sum ∧
          (qcfgOf x j).toNat / 2 ^ 13 = (qcfgOf c j).toNat / 2 ^ 13))) ∧
    (∀ b n, b < 64 → 0 < n → c.qretiring = [(b, n)] → c.qused = n → poolUsed c = 0 →
      ((settlePool s core).core core).qret.getLsbD b = true ∧ ((settlePool s core).core core).qretiring = [])

/-! The vector unit, its energy budget, engine registers, the repetition buffer (09). -/

namespace Sys2Proof.Machine

/-- The tag of a thread address is in order (R101). -/
def tagFits (x : Word) : Prop := (tagFields (x.toNat / 2 ^ 52)).2.2 = 0 ∧
  logOf (tagFields (x.toNat / 2 ^ 52)).1 = some (tagFields (x.toNat / 2 ^ 52)).2.1

/-- An A-buffer pointer in here form, aligned to 32, with room for an operand block (R199). -/
def blockFits (x : Word) : Prop :=
  let p := x.toNat % 2 ^ 52
  p / 2 ^ 20 = 1 ∧ p % 2 ^ 20 % 32 = 0 ∧ p % 2 ^ 20 + 96 ≤ 524288

/-- The operation in the vector command queue (R199): the block's offset, b, n, the thread. -/
def vectorQueued (s : State) (cmd : Nat) (x y : Word) (n : BitVec 32) (wid : Option Nat) : State :=
  let core := coreOf s.cur
  let c := s.core core
  let o := { queuedVecOp s s.cur cmd 0#64 y n wid ((s.thr s.cur).outst.map Outstanding.aid) with block := x.toNat % 2 ^ 20 }
  let u := s.setCore core { c with vecQueue := c.vecQueue ++ [o] }
  { u with work := u.work ++ [.vectorOpStart core], nonce := s.nonce + 1 }

/-- What R199 makes of a vector command whose operands are x and y: a trap, no issue, or go. -/
def vectorIssues (s : State) (i : Instr) (x : Word) (go : Prop) : Prop :=
  (¬ tagFits x → exec i s = trapped s kindADDRESS 0 x) ∧
  (tagFits x → ¬ blockFits x → exec i s = trapped s kindADDRESS 0 (BitVec.ofNat 64 (x.toNat % 2 ^ 52))) ∧
  (tagFits x → blockFits x → ¬ admitted (s.core (coreOf s.cur)) 5 1 → exec i s = .next s) ∧
  (tagFits x → blockFits x → admitted (s.core (coreOf s.cur)) 5 1 → go)

/-- R208 in table form. -/
def vectorRows (a b : Reg) : List (Instr × Nat) :=
  [(.vadd a b, 0x01), (.vsub a b, 0x02), (.vmul a b, 0x03), (.vdiv a b, 0x04), (.vmin a b, 0x05), (.vmax a b, 0x06),
   (.vfma a b, 0x07), (.vabs a b, 0x08), (.vneg a b, 0x09), (.vsqrt a b, 0x0A), (.vcvt a b, 0x0B), (.vand a b, 0x10),
   (.vor a b, 0x11), (.vxor a b, 0x12), (.vshl a b, 0x13), (.vshr a b, 0x14), (.vsum a b, 0x18), (.vrmax a b, 0x19),
   (.vrmin a b, 0x1A), (.vsumsq a b, 0x1B), (.vexp a b, 0x20), (.vlog a b, 0x21), (.vrcp a b, 0x22),
   (.vrsqrt a b, 0x23), (.vtanh a b, 0x24), (.vsilu a b, 0x25), (.vgelu a b, 0x26)]

/-- The word of a C-format command of an engine (R30, R47). -/
def codedC (i : Instr) (eng : BitVec 3) (cmd : Nat) : Prop :=
  opOf (encode i) = 0x60#7 ∧ engOf (encode i) = eng ∧ (cmdOf (encode i)).toNat = cmd ∧ lkOf (encode i) = 0#4 ∧
    decode (encode i) = some i

/-- The thread's busy count (R216). -/
def stillBusy (s : State) : Nat :=
  ((s.core (coreOf s.cur)).vecQueue.filter fun o => o.key == s.cur).length +
    (if ∃ r ∈ (s.core (coreOf s.cur)).reps, r.key = s.cur then 1 else 0)

/-- The thread after an ewr of v to register n of engine eng (R195). -/
def bankWritten (t : Thread) (eng : BitVec 3) (n : Nat) (v : Word) : Thread :=
  if eng = 1#3 then { t with copyRegs := t.copyRegs.setIfInBounds n v }
  else if eng = 2#3 then { t with matRegs := t.matRegs.setIfInBounds n v }
  else { t with linkRegs := t.linkRegs.setIfInBounds n v }

/-- The bits of an element of a format of R100. -/
def bitsIn (f : Nat) : Nat := if f = 1 ∨ f = 8 then 4 else if f = 4 then 16 else if f = 5 then 32 else if f = 6 then 64 else 8

/-- The coordinates of element number n (R202). -/
def indexOf (r n j : Nat) : Nat :=
  let e := recExtent r
  if j = 0 then n % e 0 else if j = 1 then n / e 0 % e 1 else if j = 2 then n / (e 0 * e 1) % e 2 else n / (e 0 * e 1 * e 2)

/-- The sum of coordinate times stride over some dimensions. -/
def strideSum (r n : Nat) (l : List Nat) : Int := (l.map fun j => (indexOf r n j : Int) * recStride r j).sum

/-- The byte a distance from PTR in the record's buffer. -/
def byteFrom (core r : Nat) (dist : Int) : Nat :=
  bufferCell core (bitsAt (recPtr r) 20 2) ((bitsAt (recPtr r) 0 20 : Int) + dist).toNat

/-- The byte at which element n stands: of FP4 that of its super-block (R202, R79). -/
def elementAt (core r n : Nat) : Nat :=
  let f := recCode r
  byteFrom core r (if f = 1 then 48 * ((indexOf r n 0 / 64 : Nat) + strideSum r n [1, 2, 3])
    else if f = 8 then strideSum r n [0, 1, 2, 3] / 2 else (bitsIn f / 8 : Nat) * strideSum r n [0, 1, 2, 3])

/-- The code of element n: of FP4 with its block's scale code above the four data bits (R79 to R81). -/
def elementCode (m : List Host.Cell) (core r n : Nat) : Nat :=
  let f := recCode r
  let a := elementAt core r n
  let i := indexOf r n 0 % 64
  if f = 1 then readBytes m (a + 32) 12 / 2 ^ (12 * (i / 8)) % 2 ^ 12 * 16 + (readByte m (a + i / 2)).toNat / 16 ^ (i % 2) % 16
  else if f = 8 then (readByte m a).toNat / (if strideSum r n [0, 1, 2, 3] % 2 = 1 then 16 else 1) % 16
  else readBytes m a (bitsIn f / 8)

/-- Memory with the code v in element n, which is not FP4. -/
def elementPut (m : List Host.Cell) (core r n v : Nat) : List Host.Cell :=
  let a := elementAt core r n
  let b := (readByte m a).toNat
  if recCode r = 8 then
    writeByte m a (BitVec.ofNat 8 (if strideSum r n [0, 1, 2, 3] % 2 = 1 then b % 16 + 16 * v else b / 16 * 16 + v))
  else writeBytes m a (bitsIn (recCode r) / 8) v

/-- The exact value of element n of a source (R206). -/
def sourceValue (s : State) (core r n : Nat) : Val := elementValue (recCode r) (elementCode s.mem core r n)

/-- P and the charge of a beat, by the widest element among the records (R218). -/
def beatTable (bits : Nat) : Nat × Nat :=
  if bits = 64 then (32, 16) else if bits = 32 then (64, 8) else if bits = 16 then (128, 6) else if bits = 8 then (256, 4) else (512, 4)

/-- The records that a command uses (R208, R213). -/
def recordsOf (o : VecOp) : List Nat :=
  (if o.cmd = 0x100 then [] else [o.recD]) ++ [o.recX] ++
    (if (1 ≤ o.cmd ∧ o.cmd ≤ 7) ∨ (0x10 ≤ o.cmd ∧ o.cmd ≤ 0x14) ∨ o.cmd = 0x100 then [o.recY] else [])

/-- A started operation whose records all lie in buffers, and whose next beat covers n elements of one row of record `r`. -/
def inBuffers (o : VecOp) (r n : Nat) : Prop :=
  o.started = true ∧ o.done = false ∧ o.parked = false ∧ (∀ r ∈ recordsOf o, 1 ≤ recCode r ∧ recCode r ≤ 8) ∧
  o.next < recElements r ∧
  n = min (beatTable (((recordsOf o).map fun r => bitsIn (recCode r)).foldl max 0)).1 (recExtent r 0 - o.next % recExtent r 0)

/-- Two records have the same extents from dimension i on. -/
def extentsMatch (i r q : Nat) : Prop := ∀ j < 4, i ≤ j → recExtent r j = recExtent q j

/-- An operation of R209 or R212, the destination not FP4; at a special function's second beat. -/
def elementwise (o : VecOp) (n : Nat) : Prop :=
  ((1 ≤ o.cmd ∧ o.cmd ≤ 0x0B) ∨ (0x20 ≤ o.cmd ∧ o.cmd ≤ 0x26 ∧ o.half = true)) ∧ inBuffers o o.recD n ∧
    2 ≤ recCode o.recD ∧ ∀ r ∈ recordsOf o, extentsMatch 0 r o.recD

/-- The exact result of element N of such an operation, with the flags of its special cases (R209, R212). -/
def exactAt (s : State) (core : Nat) (o : VecOp) (n : Nat) : Val × BitVec 5 :=
  let x := sourceValue s core o.recX n
  let y := sourceValue s core o.recY n
  let r := destRounding s o n
  if o.cmd = 1 then addVal r x y
  else if o.cmd = 2 then addVal r x (negVal y)
  else if o.cmd = 3 then mulVal x y
  else if o.cmd = 4 then divVal x y
  else if o.cmd = 5 then (minVal x y, 0#5)
  else if o.cmd = 6 then (maxVal x y, 0#5)
  else if o.cmd = 7 then fmaVal r x y (sourceValue s core o.recD n)
  else if o.cmd = 8 then (absVal x, 0#5)
  else if o.cmd = 9 then (negVal x, 0#5)
  else if o.cmd = 0x0A then sqrtVal x
  else if o.cmd = 0x0B then (x, 0#5)
  else specialFn o.cmd x

/-- A value rounded once to a type that is not FP4 (R84, R85), and the flags. -/
def roundedTo (f : Nat) (r : Rounding) (v : Val) : Nat × BitVec 5 :=
  if f = 7 ∨ f = 8 then
    let x := roundInt (-(2 ^ (bitsIn f - 1))) (2 ^ (bitsIn f - 1) - 1) r v
    ((x.1 % 2 ^ bitsIn f).toNat, x.2)
  else roundTo ((floatFormat f).getD .fp64) r v

/-- The code that element N gets, rounded once (R209), and its flags. -/
def codeAt (s : State) (core : Nat) (o : VecOp) (n : Nat) : Nat × BitVec 5 :=
  let v := exactAt s core o n
  let c := roundedTo (recCode o.recD) (destRounding s o n) v.1
  (c.1, v.2 ||| c.2)

/-- The code that a bit operation gives to element N (R210). -/
def bitsFor (s : State) (core : Nat) (o : VecOp) (n : Nat) : Nat :=
  let w := bitsIn (recCode o.recD)
  let x := BitVec.ofNat w (elementCode s.mem core o.recX n)
  let y := elementCode s.mem core o.recY n
  let by_ := (signedOf (bitsIn (recCode o.recY)) y % w).toNat
  if o.cmd = 0x10 then (x &&& BitVec.ofNat w y).toNat
  else if o.cmd = 0x11 then (x ||| BitVec.ofNat w y).toNat
  else if o.cmd = 0x12 then (x ^^^ BitVec.ofNat w y).toNat
  else if o.cmd = 0x13 then (x <<< by_).toNat
  else (x.sshiftRight by_).toNat

/-- One value enters a reduction, with its flags (R211): none before the first. -/
def reduceBy (cmd : Nat) (w : Fmt) (a : Option Nat × BitVec 5) (v : Val) : Option Nat × BitVec 5 :=
  let q := if cmd = 0x1B then mulVal v v else (v, 0#5)
  let e := match a.1 with
    | none => (q.1, 0#5)
    | some c =>
      if cmd = 0x18 ∨ cmd = 0x1B then addVal nearest (w.value c) q.1
      else (if cmd = 0x19 then maxVal (w.value c) q.1 else minVal (w.value c) q.1, 0#5)
  let r := roundTo w nearest e.1
  (some r.1, a.2 ||| q.2 ||| e.2 ||| r.2)

/-- The comparison of vcmpm (R213). -/
def compares (cond : Nat) (u v : Val) : Bool :=
  if cond = 0 then eqVal u v else if cond = 1 then ltVal u v else if cond = 2 then ltVal u v || eqVal u v
  else if cond = 3 then decide (u = .nan) || decide (v = .nan) else !eqVal u v

/-- The elements of n from o.next on, in the rows of record r, whose lanes the mask selects (R202). -/
def selectedIn (o : VecOp) (r n : Nat) : List Nat :=
  ((List.range n).map (o.next + ·)).filter fun i => o.mask.getLsbD (i % recExtent r 0 % 64)

/-- An engine may not use banks m of a core's A-buffer now (R134, R285): a thread's access has one of them in this ck, or the core
is in quiet-bank mode and its ck is even. -/
def banksHeld (s : State) (core : Nat) (m : BitVec 16) : Prop :=
  let c := s.core core
  m ≠ 0#16 ∧ ((c.quietOn = true ∧ (s.ck + c.ckBase) % 2 = 0) ∨ (c.banks.ck = s.ck ∧ c.banks.here &&& m ≠ 0#16))

/-- The operation at the head of the queue, alone. -/
def alone (s : State) (core : Nat) (o : VecOp) : Prop := (s.core core).vecQueue = [o]

/-- What a beat of o comes to (R134, R218, R219): the unit starts at most one per ck, once it may use the beat's banks; the beat is
charged at its start, and done leaves what it leaves; one that the slot's share does not cover is held, and exhausts the slot. -/
def beatComes (s : State) (core : Nat) (o : VecOp) (done : State → VecOp → Prop) : Prop :=
  let c := s.core core
  let slot := slotOf o.key
  let charge := (beatTable (((recordsOf o).map fun r => bitsIn (recCode r)).foldl max 0)).2
  let left := c.eleft.getD slot 0
  let held := c.beatCk = s.ck + 1 ∨ banksHeld s core (beatBanks core o)
  (held → exec (.vectorBeat core) s = .next { s with nonce := s.nonce + 1, work := s.work ++ [.vectorBeat core] }) ∧
  (¬ held → charge ≤ left → ∃ u o', exec (.vectorBeat core) s = .next u ∧ (u.core core).beatCk = s.ck + 1 ∧
    alone u core o' ∧ o'.done = false ∧ (u.core core).eleft = c.eleft.setIfInBounds slot (left - charge) ∧
    u.work = s.work ++ [.vectorBeat core] ∧ done u o') ∧
  (¬ held → left < charge → ∃ u, exec (.vectorBeat core) s = .next u ∧ u.mem = s.mem ∧ alone u core o ∧
    (u.core core).exhausted = c.exhausted ||| BitVec.ofNat 8 (2 ^ slot) ∧ (u.core core).eleft = c.eleft ∧
    u.threads = s.threads ∧ u.work = s.work ++ [.vectorBeat core])

/-! The steps of the special functions (R93 to R98): each rounds once to FP32, to nearest even. -/

def rne (v : Val) : Val := Fmt.fp32.value (roundTo .fp32 nearest v).1

/-- The exact number n / d. -/
def num (n : Int) (d : Nat) : Val := .fin (decide (n < 0)) (.rat n.natAbs d)

def mul1 (a b : Val) : Val := rne (mulVal a b).1
def add1 (a b : Val) : Val := rne (addVal nearest a b).1
def fma1 (a b c : Val) : Val := rne (fmaVal nearest a b c).1

/-- v × 2^e, exactly. -/
def times2 (v : Val) (e : Int) : Val :=
  if 0 ≤ e then (mulVal v (num (2 ^ e.toNat) 1)).1 else (mulVal v (num 1 (2 ^ (-e).toNat))).1

/-- The integer nearest to a value of at most lim, ties to even. -/
def integerNear (lim : Int) (v : Val) : Int := (roundInt (-lim) lim nearest v).1

/-- e and f with |x| = 2^e × f and 1 ≤ f < 2, of a finite x that is not 0. -/
def partsOf (m : Mag) : Int × Val := (m.log, times2 (.fin false m) (-m.log))

/-- The part of R95 between its limits. -/
def expCore (x : Val) : Val :=
  let k := integerNear (2 ^ 40) (mul1 x constL64)
  let r := fma1 (num (-k) 1) constC2 (fma1 (num (-k) 1) constC1 x)
  let p := fma1 (fma1 (fma1 constE3 r (num 1 2)) r (num 1 1)) r (num 1 1)
  rne (times2 (mulVal (entry tableT (k % 64).toNat) p).1 (k / 64))

/-- The part of R96 for a positive x: e and f as the rule takes them. -/
def logCore (e : Int) (f : Val) : Val :=
  let j := integerNear 64 (mulVal (addVal nearest f (num (-1) 1)).1 (num 64 1)).1
  let r := fma1 f (entry tableI (j + 19).toNat) (num (-1) 1)
  let p := fma1 (fma1 (fma1 (num (-1) 4) r constD3) r (num (-1) 2)) (mul1 r r) r
  fma1 (num e 1) constN1 (add1 (fma1 (num e 1) constN2 p) (entry tableL (j + 19).toNat))

/-- floor ((f - 1) × n). -/
def stepsAbove (f : Val) (n : Nat) : Nat :=
  match f with
  | .fin _ m => (m.frac.1 * n - m.frac.2 * n) / m.frac.2
  | _ => 0

/-- The iterations of R97. -/
def rcpStep (f y : Val) : Val := fma1 y (fma1 (negVal f) y (num 1 1)) y
def rsqStep (f y : Val) : Val := fma1 (mul1 (num 1 2) y) (fma1 (negVal f) (mul1 y y) (num 1 1)) y

end Sys2Proof.Machine

/-- R199, R200, R208, R216, R217, R195: the instructions of the vector unit, and ewr. Each vop takes a counter value; vcmpm
takes none. A vfence holds the thread until its busy count is 0. -/
def Obligations.VectorIssue : Prop :=
  ∀ (s : State) (d a b : Reg) (lk : BitVec 4) (eng : BitVec 3) (sr : BitVec 9),
    let x := readReg s s.cur a
    let y := readReg s s.cur b
    let t := s.thr s.cur
    let cmp := Instr.vcmpm d a b lk
    (∀ r ∈ vectorRows a b, codedC r.1 0#3 r.2 ∧ (ready r.1 s = true → vectorIssues s r.1 x
      (let u := vectorQueued s r.2 x y t.seq none
       exec r.1 s = passed (u.setThr s.cur { t with seq := t.seq + 1#32 })))) ∧
    codedL cmp 0x61#7 0x01#6 lk ∧
    (ready cmp s = true → vectorIssues s cmp x
      (exec cmp s = .next (retireTo (vectorQueued s 0x100 x y 0#32 (some s.nonce)) s.cur (t.pc + 4#64)
        [accessWindow s cmp d lk false]))) ∧
    codedR (.vbusy d a) 0x61#7 0x00#6 ∧
    (ready (.vbusy d a) s = true → exec (.vbusy d a) s =
      if x.getLsbD 0 = false then wrote s d (BitVec.ofNat 64 (stillBusy s))
      else if stillBusy s = 0 then wrote (s.setThr s.cur { t with vstatus := 0#64 }) d t.vstatus
      else wrote s d t.vstatus) ∧
    codedC .vfence 0#3 0xF0 ∧
    (ready .vfence s = true → ∃ u, exec .vfence s = .next u ∧
      u = (retire s s.cur).setThr s.cur { (retire s s.cur).thr s.cur with hold := .vfence } ∧
      (0 < stillBusy u → turnOf (settleHold u s.cur) s.cur ≠ .issue)) ∧
    (eng ∈ [1#3, 2#3, 4#3] → coreOf s.cur < 1024 → ready (.ewr a eng sr) s = true →
      exec (.ewr a eng sr) s = passed (s.setThr s.cur (bankWritten t eng sr.toNat x)))

/-- R201, R203, R134: a started operation reads its records whole from its block, once it may use the banks, and is checked in
the table's order, each rule over destination, x and y; a failed one writes nothing and completes. -/
def Stated.VectorStart : Prop :=
  ∀ (s : State) (core : Nat) (o : VecOp), alone s core o → o.started = false →
    (∀ a ∈ (s.thr o.key).outst, a.aid ∉ o.fork) → opHalts s o.key = false →
    let held := banksHeld s core (banksOf core (bufferCell core 1 o.block) 96)
    (held → exec (.vectorOpStart core) s =
      .next { s with nonce := s.nonce + 1, work := s.work ++ [.vectorOpStart core] }) ∧
    (¬ held → ∃ u o', exec (.vectorOpStart core) s = .next u ∧ alone u core o' ∧ u.mem = s.mem ∧
      o' = { o with started := true, recD := o'.recD, recX := o'.recX, recY := o'.recY, err := o'.err, done := o'.done } ∧
      (o.cmd ≠ 0x100 → o'.recD = readBytes s.mem (bufferCell core 1 o.block) 32) ∧
      o'.recX = readBytes s.mem (bufferCell core 1 o.block + 32) 32 ∧
      (o.cmd ∈ [1, 2, 3, 4, 5, 6, 7, 0x10, 0x11, 0x12, 0x13, 0x14, 0x100] →
        o'.recY = readBytes s.mem (bufferCell core 1 o.block + 64) 32) ∧
      (o'.err = 0 → o'.done = false ∧ u.work = s.work ++ [.vectorBeat core]) ∧
      (o'.err ≠ 0 → o'.done = true ∧ u.work = s.work ++ [.vectorOpComplete core o.id]) ∧
      (let rs := usedRecs o'
       ((∃ r ∈ rs, tagFails r.r = true) → o'.err = 1) ∧
       ((∀ r ∈ rs, tagFails r.r = false) → (∃ r ∈ rs, spaceCode core r.r ≠ 0) → o'.err = 2 ∨ o'.err = 10) ∧
       ((∀ r ∈ rs, tagFails r.r = false ∧ spaceCode core r.r = 0) →
         (∃ r ∈ rs, typeFails o'.cmd o'.recD r.r r.isD r.isY = true) → o'.err = 3)))

/-- R205, R209, R212, R218, R219, R134: a beat of an element-wise operation reads every source element, then writes each selected
element, in ascending N, rounded once to the destination's type; an unselected lane is not written. The first of a special
function's two beats writes nothing. An exhausted slot issues no instruction. -/
def Stated.VectorBeats : Prop :=
  ∀ (s : State) (core n : Nat) (o : VecOp), core < 1024 → alone s core o → opHalts s o.key = false →
    (elementwise o n → beatComes s core o fun u o' =>
      u.mem = (selectedIn o o.recD n).foldl (fun m i => elementPut m core o.recD i (codeAt s core o i).1) s.mem ∧
      o'.next = o.next + n ∧ o'.half = false ∧
      o'.flags = o.flags ||| (selectedIn o o.recD n).foldl (fun f i => f ||| (codeAt s core o i).2) 0#5) ∧
    (0x20 ≤ o.cmd → o.cmd ≤ 0x26 → o.half = false → inBuffers o o.recD n → beatComes s core o fun u o' =>
      u.mem = s.mem ∧ o' = { o with half := true }) ∧
    (∀ k, coreOf k = core → (s.core core).exhausted.getLsbD (slotOf k) = true → turnOf s k ≠ .issue)

/-- R210: a beat of a bit operation writes to each selected element the pattern of the operation, and raises no flag. -/
def Stated.VectorBits : Prop :=
  ∀ (s : State) (core n : Nat) (o : VecOp), core < 1024 → alone s core o → opHalts s o.key = false → 0x10 ≤ o.cmd → o.cmd ≤ 0x14 →
    inBuffers o o.recD n → (∀ r ∈ recordsOf o, 7 ≤ recCode r ∧ extentsMatch 0 r o.recD) → recCode o.recX = recCode o.recD →
    (o.cmd ≤ 0x12 → recCode o.recY = recCode o.recD) → beatComes s core o fun u o' =>
      u.mem = (selectedIn o o.recD n).foldl (fun m i => elementPut m core o.recD i (bitsFor s core o i)) s.mem ∧
      o'.next = o.next + n ∧ o'.flags = o.flags

/-- R211: a beat of a reduction takes the selected values of its row one after the other into the accumulator, in FP64 where x
or the destination is FP64 and else in FP32; the row's last beat rounds it into the row's element of the destination, and
a row with no lane selected writes nothing. -/
def Stated.VectorReduces : Prop :=
  ∀ (s : State) (core n : Nat) (o : VecOp), core < 1024 → alone s core o → opHalts s o.key = false → 0x18 ≤ o.cmd → o.cmd ≤ 0x1B →
    inBuffers o o.recX n → 2 ≤ recCode o.recX → 2 ≤ recCode o.recD → recExtent o.recD 0 = 1 → extentsMatch 1 o.recD o.recX →
    let w := if recCode o.recX = 6 ∨ recCode o.recD = 6 then Fmt.fp64 else Fmt.fp32
    let a := ((selectedIn o o.recX n).map (sourceValue s core o.recX)).foldl (reduceBy o.cmd w)
      (if o.first then none else some o.acc, 0#5)
    let row := o.next / recExtent o.recX 0
    beatComes s core o fun u o' => o'.next = o.next + n ∧
      ((o.next + n) % recExtent o.recX 0 ≠ 0 →
        u.mem = s.mem ∧ o'.flags = o.flags ||| a.2 ∧ (if o'.first then none else some o'.acc) = a.1) ∧
      ((o.next + n) % recExtent o.recX 0 = 0 → o'.first = true ∧
        (a.1 = none → u.mem = s.mem ∧ o'.flags = o.flags ||| a.2) ∧
        (∀ c, a.1 = some c →
          let r := roundedTo (recCode o.recD) (destRounding s o row) (w.value c)
          u.mem = elementPut s.mem core o.recD row r.1 ∧ o'.flags = o.flags ||| a.2 ||| r.2))

/-- R213: the one beat of a vcmpm compares the first 64 elements, each bit of the mask that of its element; no flag is raised and
nothing is written. -/
def Stated.VectorCompares : Prop :=
  ∀ (s : State) (core : Nat) (o : VecOp), core < 1024 → alone s core o → opHalts s o.key = false → o.cmd = 0x100 → o.recD = 0 →
    o.started = true → o.done = false → o.parked = false → o.next = 0 → 0 < recElements o.recX →
    (∀ r ∈ recordsOf o, 1 ≤ recCode r ∧ recCode r ≤ 8 ∧ extentsMatch 0 r o.recX) → o.mask.toNat % 16 ≤ 4 →
    beatComes s core o fun u o' => u.mem = s.mem ∧ o'.flags = o.flags ∧ o'.next = min (recElements o.recX) 64 ∧
      ∀ i < 64, o'.m.getLsbD i = (decide (i < recElements o.recX) &&
        compares (o.mask.toNat % 16) (sourceValue s core o.recX i) (sourceValue s core o.recY i))

/-- R93 to R98: the special functions of x, taken to FP32: their special operands, with the flags, and the steps of the rules for
the others. The tables T, I, Q and S hold the exact numbers rounded to FP32. -/
def Stated.SpecialFunctions : Prop :=
  (tableT.length = 64 ∧ ∀ j < 64, 0x3F800000 ≤ tableT.getD j 0 ∧ tableT.getD j 0 < 0x40000000 ∧
    (2 * (tableT.getD j 0 - 0x3F000000) - 1) ^ 64 ≤ 2 ^ j * (2 ^ 24) ^ 64 ∧
    2 ^ j * (2 ^ 24) ^ 64 ≤ (2 * (tableT.getD j 0 - 0x3F000000) + 1) ^ 64) ∧
  (∀ j < 46, entry tableI j = rne (num 64 (45 + j))) ∧ (∀ j < 64, entry tableQ j = rne (num 128 (129 + 2 * j))) ∧
  (∀ j < 48, entry tableS j = rne (.fin false (.root 32 (33 + 2 * j)))) ∧
  (∀ (c : Nat), specialFn c .nan = (.nan, 0#5)) ∧
  (∀ (x v : Val), v = rne x → v ≠ .nan →
    let less := fun (a : Val) (n : Int) (d : Nat) => ltVal a (num n d) = true
    let more := fun (a : Val) (n : Int) (d : Nat) => ltVal (num n d) a = true
    (more v 355 4 → specialFn 0x20 x = (.inf false, 0#5)) ∧
    (less v (-104) 1 → specialFn 0x20 x = (num 0 1, 0#5)) ∧
    (¬ more v 355 4 → ¬ less v (-104) 1 → specialFn 0x20 x = (expCore v, 0#5)) ∧
    (less v 0 1 → specialFn 0x21 x = (.nan, flagNV) ∧ specialFn 0x23 x = (.nan, flagNV)) ∧
    (∀ neg m, v = .fin neg m → m.isZero = true → specialFn 0x21 x = (.inf true, flagDZ) ∧
      specialFn 0x22 x = (.inf neg, flagDZ) ∧ specialFn 0x23 x = (.inf neg, flagDZ)) ∧
    (v = .inf false → specialFn 0x21 x = (.inf false, 0#5) ∧ specialFn 0x23 x = (num 0 1, 0#5)) ∧
    (∀ neg, v = .inf neg → specialFn 0x22 x = (.fin neg (.rat 0 1), 0#5) ∧
      (let y := if neg then Val.fin true (.rat 0 1) else .inf false
       specialFn 0x25 x = (y, 0#5) ∧ specialFn 0x26 x = (y, 0#5))) ∧
    (∀ neg m, v = .fin neg m → m.isZero = false →
      let e := (partsOf m).1
      let f := (partsOf m).2
      let y := rcpStep f (rcpStep f (entry tableQ (stepsAbove f 64)))
      (neg = false → specialFn 0x21 x = ((if less f 45 32 then logCore e f else logCore (e + 1) (times2 f (-1))), 0#5)) ∧
      specialFn 0x22 x = (rne (if neg then negVal (times2 y (-e)) else times2 y (-e)), 0#5) ∧
      (neg = false →
        let odd := e % 2 = 1
        let g := if odd then times2 f 1 else f
        specialFn 0x23 x = (rne (times2 (rsqStep g (rsqStep g (entry tableS (stepsAbove g 16))))
          (-((if odd then e - 1 else e) / 2))), 0#5))) ∧
    (let a := absVal v
     let t := mul1 v v
     let signed := fun (y : Val) => if v.neg then negVal y else y
     let EXP := vexp32
     let RCP := fun (y : Val × BitVec 5) => ((vrcp32 y.1).1, y.2 ||| (vrcp32 y.1).2)
     let onePlus := fun (y : Val × BitVec 5) => (add1 (num 1 1) y.1, y.2)
     let q := RCP (add1 (EXP (add1 a a)).1 (num 1 1), (EXP (add1 a a)).2)
     specialFn 0x20 x = EXP v ∧ specialFn 0x22 x = vrcp32 v ∧
     (less a 1 4096 → specialFn 0x24 x = (v, 0#5)) ∧
     (¬ less a 9 1 → specialFn 0x24 x = (signed (num 1 1), 0#5)) ∧
     (¬ less a 1 4096 → less a 1 8 →
       specialFn 0x24 x = (fma1 (mul1 (fma1 (fma1 constH7 t constH5) t constH3) t) v v, 0#5)) ∧
     (¬ less a 1 8 → less a 9 1 → specialFn 0x24 x = (signed (fma1 (num (-2) 1) q.1 (num 1 1)), q.2)) ∧
     (∀ neg m, v = .fin neg m →
       (let r := RCP (onePlus (EXP (negVal v)))
        specialFn 0x25 x = (mul1 v r.1, r.2)) ∧
       (let r := RCP (onePlus (EXP (mul1 (mul1 v (fma1 t constG3 constG1)) (num (-2) 1))))
        specialFn 0x26 x = (mul1 v r.1, r.2)))))

/-- R214, R215, R190: at its completion an operation leaves the queue, its flags and its first error accrue in VSTATUS, the
ENGINE latch bit is set, and with IRQ the pending bit with the block's here address; a vcmpm's mask is its window's
result. R219: the refill. -/
def Stated.VectorCompletes : Prop :=
  (∀ (s : State) (core : Nat) (o : VecOp), alone s core o → o.err ≠ 10 →
    let c := s.core core
    let t := s.thr o.key
    let here := BitVec.ofNat 64 (0x100000 + o.block)
    let v := t.vstatus ||| o.flags.setWidth 64
    let v' := if o.err = 0 ∨ t.vstatus.toNat / 2 ^ 8 % 16 ≠ 0 then v
      else v ||| BitVec.ofNat 64 (o.block * 2 ^ 12 + o.err * 2 ^ 8)
    let t' := { t with vstatus := v', latch := t.latch ||| 0b00100#5 }
    let irq := o.cmd ≠ 0x100 ∧ recFlags o.recD / 64 % 2 = 1
    let u := (s.setCore core { c with vecQueue := [] }).setThr o.key
      (if irq then { t' with uip := t'.uip ||| 1#3, argEngine := here, argEng := 0#3 } else t')
    (o.wid = none → exec (.vectorOpComplete core o.id) s = .next u) ∧
    (∀ w, o.wid = some w → exec (.vectorOpComplete core o.id) s = .next (arrive u o.key w (.one o.m)))) ∧
  (∀ (s : State) (core : Nat), ∃ u, exec (.energyRefill core) s = .next u ∧ (u.core core).exhausted = 0#8 ∧
    ∀ j < 4, (u.core core).eleft.getD j 0 = (s.core core).eshare0.toNat / 2 ^ (16 * j) % 2 ^ 16 ∧
      (u.core core).eleft.getD (4 + j) 0 = (s.core core).eshare1.toNat / 2 ^ (16 * j) % 2 ^ 16)

/-- R221, R222: rep captures the words behind it, the thread runs on behind them, and the sequencer reissues them with the
operands of codes 0 to 11 from the snapshot and the s-bank operands stepped by the stagger. It reissues nothing while its
residence is pre-empted (R223), its die retired (R492) or an acquire of its thread is open (R494). -/
def Stated.Repetition : Prop :=
  (∀ (s : State) (a b : Reg) (len : BitVec 4) (ws : List IWord),
    let i := Instr.rep a b len
    let t := s.thr s.cur
    let x := readReg s s.cur a
    let y := readReg s s.cur b
    let n := len.toNat + 1
    let count := x.toNat % 2 ^ 16
    let c := s.core (coreOf s.cur)
    ready i s = true →
      ((∃ r ∈ c.reps, r.key = s.cur) → exec i s = .next s) ∧
      ((∀ r ∈ c.reps, r.key ≠ s.cur) → ws.length = n →
        (∀ j, j < n → ∃ p, fetchReach s s.cur (t.pc + BitVec.ofNat 64 (4 + 4 * j)) = .at p ∧
          ws[j]? = some (BitVec.ofNat 32 (readBytes s.mem p.cell 4))) →
        (∀ w ∈ ws, captureCause s s.cur w = none) → ∃ u, exec i s = .next u ∧
          ((∀ w ∈ t.windows, 2 ≤ w.count) → (u.thr s.cur).pc = t.pc + BitVec.ofNat 64 (4 + 4 * n) ∧
            (u.thr s.cur).seq = t.seq + BitVec.ofNat 32 (count * (ws.filter isCounted).length) ∧
            (count = 0 → (u.core (coreOf s.cur)).reps = c.reps) ∧
            (0 < count → u.work = s.work ++ [.repReissue s.cur] ∧ ∃ r, (u.core (coreOf s.cur)).reps = c.reps ++ [r] ∧
              r.words = ws ∧ r.count = count ∧ r.stagger = y.toNat % 16 ∧ r.base = t.seq ∧ r.seed = c.rseed ∧ r.k = 0 ∧ r.j = 0 ∧
              r.p = t.p ∧ r.q = t.q))) ∧
      ((∀ r ∈ c.reps, r.key ≠ s.cur) → ∀ cause, 
        (∃ p, fetchReach s s.cur (t.pc + 4#64) = .at p ∧ len = 0#4 ∧
          captureCause s s.cur (BitVec.ofNat 32 (readBytes s.mem p.cell 4)) = some cause) →
        exec i s = trapped s kindILLEGAL cause ((encode i).setWidth 64))) ∧
  (∀ (s : State) (k : Nat) (r : RepSeq) (a b : Reg) (row : Instr × Nat), (s.core (coreOf k)).reps = [r] → r.key = k →
    row ∈ vectorRows a b → regOk a = true → regOk b = true → r.words[r.j]? = some (encode row.1) →
    let operand := fun (f : Reg) => if h : f.toNat < 10 then r.p[f.toNat] else if f.toNat = 11 then r.q
      else if f.toNat = 10 then 0#64 else readReg s k (BitVec.ofNat 5 (16 + (f.toNat - 16 + r.k * r.stagger) % 16))
    let x := operand a
    let held := opHalts s k = true ∨ s.dieRetired (dieOf (coreOf k)) = true ∨ heldBack (s.thr k) = true
    let rank := r.k * (r.words.filter isCounted).length + ((r.words.take r.j).filter isCounted).length
    (held → ∃ u, exec (.repReissue k) s = .next u ∧ (u.core (coreOf k)).reps = [r] ∧
      (u.core (coreOf k)).vecQueue = (s.core (coreOf k)).vecQueue ∧ u.work = s.work ++ [.repReissue k]) ∧
    (¬ held → tagFits x → blockFits x → admitted (s.core (coreOf k)) 5 1 →
    ∃ u o, exec (.repReissue k) s = .next u ∧ (u.core (coreOf k)).vecQueue = (s.core (coreOf k)).vecQueue ++ [o] ∧
      o.cmd = row.2 ∧ o.block = x.toNat % 2 ^ 20 ∧ o.mask = operand b ∧ o.key = k ∧
      o.n = r.base + BitVec.ofNat 32 rank ∧ o.seed = r.seed ∧
      (r.j + 1 < r.words.length → ∃ r', (u.core (coreOf k)).reps = [r'] ∧ r'.j = r.j + 1 ∧ r'.k = r.k) ∧
      (r.words.length = r.j + 1 → r.k + 1 < r.count → ∃ r', (u.core (coreOf k)).reps = [r'] ∧ r'.j = 0 ∧ r'.k = r.k + 1) ∧
      (r.words.length = r.j + 1 → r.count = r.k + 1 → (u.core (coreOf k)).reps = [])))

/-! The tensor copy engine (10). -/

namespace Sys2Proof.Machine

/-- A completion object pointer: A-buffer, here form, a doubleword (R229). -/
def objectFits (x : Word) : Prop :=
  let p := x.toNat % 2 ^ 52
  p / 2 ^ 20 = 1 ∧ p % 8 = 0 ∧ p % 2 ^ 20 + 8 ≤ 524288

/-- The cell of the object. -/
def objectAt (s : State) (x : Word) : Nat := bufferCell (coreOf s.cur) 1 (x.toNat % 2 ^ 20)

/-- R229 and R233: the copy commands and their cmd values. -/
def copyRows (a b : Reg) : List (Instr × Nat) :=
  [(.cpbox a b, 0x01), (.cpmc a b, 0x02), (.cpredAddF32 a b, 0x10), (.cpredAddBf16 a b, 0x11), (.cpredMaxF32 a b, 0x12),
   (.cpredMaxBf16 a b, 0x13), (.cpredMinF32 a b, 0x14), (.cpredMinBf16 a b, 0x15)]

/-- The completion object is accessed at issue, over the here path, behind the thread's own earlier accesses to it there
(R134, R142, R229, R237): none where the opportunity is forfeited. -/
def objectReached (s : State) (x : Word) : Option State := settleHere s s.cur (objectAt s x) 8

/-- The command of thread k in the copy queue (R229): PENDING is written, the bank and b are snapshots, and the operation waits for
the accesses `fork` of its thread (R170). -/
def copyQueued (s : State) (k : Nat) (fork : List Nat) (cmd : Nat) (x y : Word) : State :=
  let core := coreOf k
  let c := s.core core
  let o : CopyOp :=
    { id := s.nonce, key := k, cmd := cmd, obj := x, sync := y, regs := (s.thr k).copyRegs
      fork := fork, started := false, probed := 0, refusal := none, next := 0, value := none, sent := 0, badLayout := false
      written := [], flags := 0#5, err := 0, done := false }
  let u := s.setCore core { c with copies := c.copies ++ [o] }
  { u with
    mem := if x = 0#64 then s.mem else writeWord s.mem (bufferCell core 1 (x.toNat % 2 ^ 20)) 0x4000000000000000#64
    work := s.work ++ [.copyOpStart core], nonce := s.nonce + 1 }

/-- The step of cpcan for one operation (R238): it completes as CANCELLED; one whose refusal waits for a free journal entry
completes so once it has it (R158, R235). -/
def cancelOne (core : Nat) (u : State) (o : CopyOp) : State :=
  if o.refusal = none then completeCopy u core { o with err := 12, done := true } else setCopy u core { o with err := 12 }

/-- The operations that a cpcan names (R238), in order. -/
def cancelled (s : State) (x y : Word) : List CopyOp :=
  (s.core (coreOf s.cur)).copies.filter fun o =>
    decide (o.key = s.cur) && !o.done && (y.getLsbD 0 || decide (o.obj = x))

/-- The coordinates i0 to i4 of walk number n (R225), for elements of whole bytes. -/
def boxIndex (o : CopyOp) (n : Nat) : List Nat :=
  let b := o.extent
  [n % b 0, n / b 0 % b 1, n / b 0 / b 1 % b 2, n / b 0 / b 1 / b 2 % b 3, n / b 0 / b 1 / b 2 / b 3]

/-- The distance of the element at coordinates c: size × (c0 + Σ ck × stride k) (R225). -/
def boxDistance (size : Nat) (stride : Nat → Int) (c : List Int) : Int :=
  size * (c.getD 0 0 + ((List.range 4).map fun k => c.getD (k + 1) 0 * stride (k + 1)).sum)

/-- The source coordinates of walk number n. -/
def boxSource (o : CopyOp) (n : Nat) : List Int := (List.range 5).map fun k => o.origin k + ((boxIndex o n).getD k 0 : Nat)

/-- The coordinates of walk number n lie within the tensor (R226). -/
def boxWithin (o : CopyOp) (n : Nat) : Bool :=
  (List.range 5).all fun k => decide (0 ≤ (boxSource o n).getD k 0 ∧ (boxSource o n).getD k 0 < (o.bound k : Nat))

/-- The fill value of a format of whole bytes (R226). -/
def boxFill (o : CopyOp) : Nat :=
  let f := o.srcFormat
  if o.fill = 0 then 0 else if f = 2 ∨ f = 3 then 0x80 else if f = 4 then 0x7FC0 else if f = 5 then 0x7FC00000
    else if f = 6 then 0x7FF8000000000000 else 0

/-- The elements of the box. -/
def boxCount (o : CopyOp) : Nat := o.extent 0 * o.extent 1 * o.extent 2 * o.extent 3 * o.extent 4

/-- Where the access of n bytes at a distance from pointer p lies, with the core that is its home (R227, R228, R230): in a
buffer of the here or glob form, at the swizzled offset, or through the core's translation, in the layout of the mode and with
the leaf's permission. -/
def sideAt (s : State) (core : Nat) (asid : BitVec 16) (mode : BitVec 2) (p : Word) (dist : Int) (code kind : Nat) :
    Option (Nat × Nat) :=
  let x := p.toNat % 2 ^ 52
  let swizzled := fun (off : Nat) => if code = 0 then off else Nat.xor off (16 * (off / 2 ^ (code + 5) % 2 ^ (code + 1)))
  if mode = 3#2 then some (core, bufferCell core (x / 2 ^ 20 % 4) 0 + swizzled ((x % 2 ^ 20 : Nat) + dist).toNat)
  else if mode = 2#2 then
    let home := 256 * (x / 2 ^ 49 % 4) + 16 * (x / 2 ^ 45 % 16) + x / 2 ^ 40 % 32
    some (home, bufferCell home (x / 2 ^ 38 % 4) 0 + swizzled ((x % 2 ^ 38 : Nat) + dist).toNat)
  else
    let ea := (x : Int) + dist
    if ea < 0 ∨ 2 ^ 51 ≤ ea then none
    else match tlbFind (s.core core) asid ea.toNat with
      | none => none
      | some t =>
        let at_ := leafPlace s t.level t.leaf ea.toNat
        if leafIlv t.leaf = decide (mode = 1#2) ∧ leafReason t.leaf core kind = none ∧ givingAt s asid ea.toNat = false then
          some (at_.home, at_.cell)
        else none

/-- The engine's access to a place goes through at once: its home refuses nothing (R159, R463, R464, R466), stands on the engine's
die, and has no bank in a thread's use (R134, R285). -/
def sideFree (s : State) (core : Nat) (asid : BitVec 16) (mode : BitVec 2) (home : Nat) : Prop :=
  s.poison = [] ∧ s.erring = [] ∧ s.dieRetired (dieOf home) = false ∧ (s.core home).health = .good ∧
    (mode = 2#2 → hostsContext s home asid = true) ∧ hops home core = [] ∧ hops core home = [] ∧
    (s.core home).quietOn = false ∧ ((s.core home).banks.ck = s.ck → (s.core home).banks.here = 0#16)

/-- The distance of element n's destination, of a type of size bytes (R225; log 37, DESIGN CHOICE: a cpred takes the destination's). -/
def boxTarget (o : CopyOp) (size n : Nat) : Int := boxDistance size o.dstStride ((boxIndex o n).map fun (i : Nat) => (i : Int))

/-- The cores that a cpmc selects (R230): bit j of DMASK the core j/4 rows and j mod 4 columns from row and column of b. -/
def multicastTo (core : Nat) (y : Word) : List Nat :=
  ((List.range 16).filter fun j => y.getLsbD (32 + j)).map fun j =>
    256 * (core / 256) + 16 * (bitsAt y 48 4 + j / 4) + (bitsAt y 52 5 + j % 4)

/-- A cpred's step (R233): the exact sum, or the lesser or greater, of the destination's bits and the source's, rounded to the
destination's type, with the flags. -/
def reducedTo (cmd f old v : Nat) : Nat × BitVec 5 :=
  let t := if cmd % 2 = 0 then Fmt.fp32 else Fmt.bf16
  let x := t.value old
  let y := elementValue f v
  let z := if cmd / 2 = 8 then addVal nearest x y else if cmd / 2 = 9 then (maxVal x y, 0#5) else (minVal x y, 0#5)
  let r := roundTo t nearest z.1
  (r.1, z.2 ||| r.2)

/-- A started operation from its first element on, over formats of whole bytes, whose accesses all go through at once. -/
def plainRun (s : State) (core : Nat) (o : CopyOp) : Prop :=
  let asid := (s.thr o.key).asid
  let kind := if 0x10 ≤ o.cmd then kindRMW else kindSTORE
  o.started = true ∧ o.done = false ∧ o.refusal = none ∧ o.next = 0 ∧ o.value = none ∧ o.sent = 0 ∧ o.written = [] ∧
  o.cmd ∈ [1, 2, 0x10, 0x11, 0x12, 0x13, 0x14, 0x15] ∧ o.srcFormat ∈ [0, 2, 3, 4, 5, 6, 7] ∧
  (if 0x10 ≤ o.cmd then o.dstFormat = (if o.cmd % 2 = 0 then 5 else 4) ∧ o.dstMode.toNat < 2 else o.dstFormat = o.srcFormat) ∧
  (o.cmd = 2 → o.dstMode = 3#2 ∧ bitsAt o.sync 48 4 + 3 < 14 ∧ bitsAt o.sync 52 5 + 3 < 16 ∧
    ∀ c ∈ multicastTo core o.sync, sideFree s core asid 2#2 c) ∧
  ∀ n < boxCount o,
    (boxWithin o n = true → ∃ x, sideAt s core asid o.srcMode o.src (boxDistance (walkBytes o.srcFormat) o.srcStride (boxSource o n))
        o.srcSwizzle kindLOAD = some x ∧ sideFree s core asid o.srcMode x.1) ∧
    (o.cmd ≠ 2 → ∃ x, sideAt s core asid o.dstMode o.dst (boxTarget o (walkBytes o.dstFormat) n) o.dstSwizzle kind = some x ∧
      sideFree s core asid o.dstMode x.1)

/-- Memory and flags after element n of such an operation (R226, R231 to R233). -/
def elementRun (s : State) (core : Nat) (o : CopyOp) (m : List Host.Cell × BitVec 5) (n : Nat) : List Host.Cell × BitVec 5 :=
  let asid := (s.thr o.key).asid
  let size := walkBytes o.srcFormat
  let source := ((sideAt s core asid o.srcMode o.src (boxDistance size o.srcStride (boxSource o n)) o.srcSwizzle kindLOAD).getD (0, 0)).2
  let v := if boxWithin o n then readBytes m.1 source size else boxFill o
  let target := fun kind =>
    ((sideAt s core asid o.dstMode o.dst (boxTarget o (walkBytes o.dstFormat) n) o.dstSwizzle kind).getD (0, 0)).2
  if o.cmd = 1 then (writeBytes m.1 (target kindSTORE) size v, m.2)
  else if o.cmd = 2 then
    let off := fun c => ((sideAt s c asid 3#2 o.dst (boxTarget o size n) o.dstSwizzle kindSTORE).getD (0, 0)).2
    ((multicastTo core o.sync).foldl (fun m c => writeBytes m (off c) size v) m.1, m.2)
  else if boxWithin o n then
    let d := walkBytes o.dstFormat
    let r := reducedTo o.cmd o.srcFormat (readBytes m.1 (target kindRMW) d) v
    (writeBytes m.1 (target kindRMW) d r.1, m.2 ||| r.2)
  else m

/-- n turns, as long as each answers a next state. -/
def turns (act : State → Out) : Nat → State → State
  | 0, s => s
  | n + 1, s => match act s with
    | .next u => turns act n u
    | _ => s

/-- A started cpbox between buffers of its own core, without swizzles, of elements of f's whole bytes, not yet over. -/
def simpleCopy (o : CopyOp) (f : Nat) : Prop :=
  o.started = true ∧ o.done = false ∧ o.refusal = none ∧ o.cmd = 1 ∧ o.srcMode = 3#2 ∧ o.dstMode = 3#2 ∧ o.srcSwizzle = 0 ∧ o.dstSwizzle = 0 ∧
  o.srcFormat = f ∧ o.dstFormat = f ∧ f ∈ [0, 2, 3, 4, 5, 6, 7] ∧
  o.next < o.extent 0 * o.extent 1 * o.extent 2 * o.extent 3 * o.extent 4

/-- BYTES of R235, from the elements written at each destination core. -/
def copiedBytes (o : CopyOp) : Nat :=
  (o.written.map fun x =>
    if 0x10 ≤ o.cmd then x.2 * walkBytes o.dstFormat else if o.srcFormat = 8 then (x.2 + 1) / 2
    else x.2 * walkBytes o.srcFormat).sum

/-- The completion object's value (R236). -/
def objectValue (o : CopyOp) : Word :=
  fieldsWord [(if o.err = 0 then 2 else 3, 62), (o.err, 58), (if 0x10 ≤ o.cmd then o.flags.toNat else 0, 53),
    (copiedBytes o % 2 ^ 48, 0)]

end Sys2Proof.Machine

/-- R229, R237, R238: the instructions of the copy engine. -/
def Obligations.CopyIssue : Prop :=
  ∀ (s : State) (d a b : Reg) (lk : BitVec 4),
    let x := readReg s s.cur a
    let y := readReg s s.cur b
    let c := s.core (coreOf s.cur)
    let bad := fun (i : Instr) => (¬ tagFits x → exec i s = trapped s kindADDRESS 0 x) ∧
      (tagFits x → ¬ objectFits x → exec i s = trapped s kindADDRESS 0 (BitVec.ofNat 64 (x.toNat % 2 ^ 52)))
    let room := c.copies.length < 512 ∧ admitted c 6 3
    let fork := (s.thr s.cur).outst.map Outstanding.aid
    let can := Instr.cpcan a b
    let stat := Instr.cpstat d a
    let wait := Instr.cpwait d a lk
    (∀ r ∈ copyRows a b, codedC r.1 1#3 r.2 ∧ (ready r.1 s = true →
      (x ≠ 0#64 → bad r.1) ∧
      (x = 0#64 ∨ (tagFits x ∧ objectFits x) →
        (¬ room → exec r.1 s = .next s) ∧
        (room → x = 0#64 → exec r.1 s = passed (copyQueued s s.cur fork r.2 x y)) ∧
        (room → x ≠ 0#64 → hereSettles s (objectAt s x) 8 ∧ (objectReached s x = none → exec r.1 s = .next s) ∧
          ∀ u, objectReached s x = some u → exec r.1 s = passed (copyQueued u s.cur fork r.2 x y))))) ∧
    codedC can 1#3 0x03 ∧
    (ready can s = true →
      (2 ≤ y.toNat → exec can s = trapped s kindADDRESS 0 y) ∧
      (y.toNat = 0 → x ≠ 0#64 → bad can) ∧
      (y.toNat = 1 ∨ (y.toNat = 0 ∧ (x = 0#64 ∨ (tagFits x ∧ objectFits x))) → exec can s = passed
        ((cancelled s x y).foldl (cancelOne (coreOf s.cur)) s))) ∧
    codedR stat 0x61#7 0x08#6 ∧ codedL wait 0x61#7 0x09#6 lk ∧
    (∀ i ∈ [stat, wait], ready i s = true → bad i) ∧
    (ready stat s = true → tagFits x → objectFits x →
      hereSettles s (objectAt s x) 8 ∧ (objectReached s x = none → exec stat s = .next s) ∧
      ∀ u, objectReached s x = some u → exec stat s = wrote u d (readWord u.mem (objectAt s x))) ∧
    (ready wait s = true → tagFits x → objectFits x →
      exec wait s = .next (retireTo { s with
        nonce := s.nonce + 1, work := s.work ++ [.longLatencyResultArrival s.cur s.nonce] } s.cur
        ((s.thr s.cur).pc + 4#64)
        [{ id := s.nonce, dest := d, count := lk.toNat, event := true, holds := false, word := encode wait
           pc := (s.thr s.cur).pc, a := x, b := 0#64, mismatch := false, retry := false, arrival := .pending }]))

/-- R237: the event of a cpwait is an object that is not PENDING; d gets the object as it stands when the window closes. -/
def Stated.CopyWaits : Prop :=
  ∀ (s : State) (k wid : Nat) (w : Window) (d a : Reg) (lk : BitVec 4), (s.thr k).windows = [w] →
    (s.thr k).held = [] → (s.thr k).frozen = [] → w.id = wid → w.arrival = .pending → w.word = encode (.cpwait d a lk) →
    w.count = 0 →
    let v := readWord s.mem (bufferCell (coreOf k) 1 (w.a.toNat % 2 ^ 20))
    (v.toNat / 2 ^ 62 = 1 → exec (.longLatencyResultArrival k wid) s =
      .next { s with work := s.work ++ [.longLatencyResultArrival k wid] }) ∧
    (v.toNat / 2 ^ 62 ≠ 1 → ∃ u, exec (.longLatencyResultArrival k wid) s = .next u ∧ (u.thr k).windows = [] ∧
      (regOk w.dest = true → w.dest ≠ 10#5 →
        readReg u k w.dest = if remains true s k w.dest then v else readReg s k w.dest))

/-- R234, R226, R225, R233: the start of an operation, which looks up the first pages of its translated sides and then makes
its checks in order, and one element of a copy between buffers: read from its source and written unchanged, or filled, as
soon as its banks are free (R134); and the arithmetic of a cpred's step. -/
def Stated.CopyRuns : Prop :=
  (∀ (s : State) (core : Nat) (o : CopyOp) (ea : Int) (mode : BitVec 2), (s.core core).copies = [o] → o.started = false →
    o.done = false → (∀ a ∈ (s.thr o.key).outst, a.aid ∉ o.fork) → o.firstPages[o.probed]? = some (ea, mode) →
    ∃ u, exec (.copyOpStart core) s = .next u ∧ u.mem = s.mem ∧ u.work = s.work ++ [.copyOpStart core] ∧
      (∀ t, tlbFind (s.core core) (s.thr o.key).asid ea.toNat = some t →
        (u.core core).copies = [{ o with
          probed := o.probed + 1, badLayout := o.badLayout || decide (leafIlv t.leaf ≠ decide (mode = 1#2)) }]) ∧
      ((u.core core).copies = [o] ∨ (u.core core).copies = [{ o with probed := o.probed + 1 }])) ∧
  (∀ (s : State) (core : Nat) (o : CopyOp), (s.core core).copies = [o] → o.started = false → o.done = false →
    (∀ a ∈ (s.thr o.key).outst, a.aid ∉ o.fork) → o.firstPages.length ≤ o.probed →
    ∃ u err, exec (.copyOpStart core) s = .next u ∧ u.mem = s.mem ∧
      (u.core core).copies = [{ o with started := true, err := err, done := decide (err ≠ 0) }] ∧
      u.work = s.work ++ [if err = 0 then .copyOpStart core else .copyOpComplete core o.id] ∧
      (¬ (tagFits o.src ∧ tagFits o.dst) → err = 1) ∧
      (tagFits o.src → tagFits o.dst → o.badLayout = true → err = 2) ∧
      (tagFits o.src → tagFits o.dst → o.badLayout = false → sourceSpaceFails s core o = false →
        destSpaceFails s core o = false →
        (o.cmd < 0x10 → o.srcFormat ≠ o.dstFormat → err = 3) ∧
        (0x10 ≤ o.cmd → o.dstFormat ≠ (if o.cmd % 2 = 0 then 5 else 4) → err = 3) ∧
        (o.cmd < 0x10 → o.srcFormat = o.dstFormat → o.ctl.toNat / 2 ^ 26 ≠ 0 → err = 4) ∧
        (o.cmd = 1 → o.srcFormat = o.dstFormat → copyShapeFails o = false → (2 ≤ o.fill ∨ (o.fill = 1 ∧ o.srcFormat ∈ [0, 7, 8])) →
          err = 5))) ∧
  (∀ (s : State) (core f : Nat) (o : CopyOp), (s.core core).copies = [o] → simpleCopy o f → s.dieRetired (dieOf core) = false →
    (s.core core).health = .good → s.poison = [] → s.erring = [] →
    let size := walkBytes f
    let source := bufferCell core (bitsAt o.src 20 2)
      ((bitsAt o.src 0 20 : Int) + boxDistance size o.srcStride (boxSource o o.next)).toNat
    let target := bufferCell core (bitsAt o.dst 20 2)
      ((bitsAt o.dst 0 20 : Int) + boxDistance size o.dstStride ((boxIndex o o.next).map fun (i : Nat) => (i : Int))).toNat
    let reads := o.value = none ∧ boxWithin o o.next = true
    let v := o.value.getD (if boxWithin o o.next then readBytes s.mem source size else boxFill o)
    let waits := reads ∧ banksHeld s core (banksOf core source size)
    let held := banksHeld s core (banksOf core target size)
    (waits → ∃ u, exec (.copyOpStart core) s = .next u ∧ u.mem = s.mem ∧ u.cores = s.cores ∧ u.threads = s.threads ∧
      u.work = s.work ++ [.copyOpStart core]) ∧
    (¬ waits → ∃ u, exec (.copyOpStart core) s = .next u ∧
      (held → u.mem = s.mem ∧ (u.core core).copies = [{ o with value := some v }]) ∧
      (¬ held → u.mem = writeBytes s.mem target size v ∧ (u.core core).copies = [{ o with
        next := o.next + 1, value := none, sent := 0
        written := tabSet o.written core (tabGet 0 o.written core + 1) }]))) ∧
  (∀ (cmd f old v : Nat), 0x10 ≤ cmd → cmd ≤ 0x15 →
    reduceElement cmd f old v = reducedTo cmd f old v)

/-- R225 to R228, R230 to R233, R235: a cpbox, cpmc or cpred as a whole, over buffers and translated sides alike: as many turns as
the box has elements read each element in the tensor from its source, or take the fill value, and write it to the destination,
to every selected core's, or reduced into it; the next turn ends the operation. A cpmc to a core that does not host the
context is refused there, and ends with code 11, as soon as the refusal has its journal entry (R158, R159). -/
def Stated.CopyWhole : Prop :=
  (∀ (s : State) (core : Nat) (o : CopyOp), core < 1024 → (s.core core).copies = [o] → plainRun s core o →
    let n := boxCount o
    let r := (List.range n).foldl (elementRun s core o) (s.mem, o.flags)
    let inside := ((List.range n).filter (boxWithin o)).length
    let u := turns (exec (.copyOpStart core)) n s
    let v := turns (exec (.copyOpStart core)) (n + 1) s
    u.mem = r.1 ∧ (∃ w, (u.core core).copies = [{ o with next := n, written := w, flags := r.2 }] ∧
      (o.cmd = 1 → tabGet 0 w core = n) ∧ (o.cmd = 2 → ∀ c ∈ multicastTo core o.sync, tabGet 0 w c = n) ∧
      (0x10 ≤ o.cmd → tabGet 0 w core = inside)) ∧
    v.mem = u.mem ∧ ((v.core core).copies.map fun x => (x.id, x.done, x.err)) = [(o.id, true, o.err)] ∧
    .copyOpComplete core o.id ∈ v.work) ∧
  (∀ (s : State) (core c e v : Nat) (o : CopyOp) (cs : List Nat), (s.core core).copies = [o] → o.started = true → o.done = false →
    o.refusal = none → o.cmd = 2 → o.srcMode = 3#2 → o.next < boxCount o → o.value = some v → o.sent = 0 → o.srcFormat ∈ [0, 2, 3, 4, 5, 6, 7] →
    multicastTo core o.sync = c :: cs → bitsAt o.sync 48 4 + 3 < 14 → bitsAt o.sync 52 5 + 3 < 16 →
    s.dieRetired (dieOf c) = false → (s.core c).health = .good → hostsContext s c (s.thr o.key).asid = false →
    journalFree (s.core core) = some e →
    ∃ u, exec (.copyOpStart core) s = .next u ∧ u.mem = s.mem ∧ (u.core core).copies = [{ o with err := 11, done := true }] ∧
      u.work = s.work ++ [.copyOpComplete core o.id] ∧
      (journalAt (u.core core) e).busy = true ∧ (journalAt (u.core core) e).ref = true ∧ (journalAt (u.core core) e).cause = 1#4 ∧
      (journalAt (u.core core) e).kind = 3)

/-- R235, R236, R190: the completion of an operation, in its order: its bytes are retired on its barrier, its object is
written, the latch and the interrupt are set, and it leaves the engine. -/
def Stated.CopyCompletes : Prop :=
  ∀ (s : State) (core : Nat) (o : CopyOp), (s.core core).copies = [o] → o.done = true → o.err ≠ 9 → o.cmd ≠ 2 →
    let y := o.sync.toNat
    let scope := y / 2 ^ 2 % 8
    let ix := y / 2 ^ 5 % 64
    (y / 2 % 2 = 1 → ix < objectsOf scope) →
    let s1 := if y / 2 % 2 = 1 then retireBytes s core (s.thr o.key).asid scope ix (copiedBytes o) (decide (o.err ≠ 0)) else s
    let t := s1.thr o.key
    let t' := { t with latch := t.latch ||| 0b00100#5 }
    let told := if o.obj = 0#64 then s1.mem
      else writeWord s1.mem (bufferCell core 1 (o.obj.toNat % 2 ^ 20)) (objectValue o)
    let u := State.setThr { s1 with mem := told } o.key (if y % 2 = 1 then { t' with uip := t'.uip ||| 1#3, argEngine := o.obj, argEng := 1#3 } else t')
    let rest := (s1.core core).copies.filter fun p => p.id != o.id
    exec (.copyOpComplete core o.id) s = .next (u.setCore core { s1.core core with
      copies := rest, walk := if rest = [] then none else (s1.core core).walk })

/-! The matrix engine (11). -/

namespace Sys2Proof.Machine

/-- The commands that take no counter value, with cmd and the operand registers that they name (R243). -/
def matrixRows (a b : Reg) : List (Instr × Nat × Reg × Reg) :=
  [(.mgath a b, 0x01, a, b), (.mgang, 0x02, 10#5, 10#5), (.mzero a, 0x08, a, 10#5), (.mband a, 0x0A, a, 10#5),
   (.mmaF4 a b, 0x10, a, b), (.mmaF8 a b, 0x11, a, b), (.mmaBf16 a b, 0x12, a, b), (.mmaI8 a b, 0x13, a, b)]

/-- The command in the core's matrix queue, with the snapshot of the slot's bank (R243). -/
def matrixQueued (s : State) (cmd : Nat) (x y : Word) (n : BitVec 32) : State :=
  let core := coreOf s.cur
  let c := s.core core
  let o : MatOp :=
    { id := s.nonce, key := s.cur, cmd := cmd, a := x, b := y, n := n, seed := c.rseed, regs := (s.thr s.cur).matRegs
      fork := (s.thr s.cur).outst.map Outstanding.aid, started := false, err := 0, flags := 0#5 }
  let u := s.setCore core { c with matQueue := c.matQueue ++ [o] }
  { u with work := s.work ++ [.matrixCmdStart core], nonce := s.nonce + 1 }

/-- The command alone in its queue may start: its fork has drained, its residence is not being switched out, and the core
has not arrived at a gang. -/
def headStarts (s : State) (core : Nat) (o : MatOp) : Prop :=
  (s.core core).matQueue = [o] ∧ o.started = false ∧ (s.core core).arrived = false ∧ opHalts s o.key = false ∧
    ∀ a ∈ (s.thr o.key).outst, a.aid ∉ o.fork

/-- The same command, ended with an error code and flags. -/
def ended (o : MatOp) (err : Nat) (flags : BitVec 5) : MatOp := { o with started := true, err := err, flags := flags }

/-- M and NS of R240. -/
def tileM (core : Nat) : Nat := if core / 16 % 16 < 6 then 128 else 64
def tileNS (core : Nat) : Nat := if core / 16 % 16 < 6 then 32 else 16

/-- A here-form pointer of format f to buffer b at a multiple of n, with n bytes there. -/
def hereFits (core : Nat) (x : Word) (b n : Nat) (fs : List Nat) : Prop :=
  tagFits x ∧ x.toNat % 2 ^ 52 / 2 ^ 20 = b ∧ x.toNat / 2 ^ 58 ∈ fs ∧ x.toNat % 2 ^ 20 % n = 0 ∧
    x.toNat % 2 ^ 20 + n ≤ bufferSize core b

/-- The cell of byte i at such a pointer. -/
def hereByte (core : Nat) (x : Word) (i : Nat) : Nat := bufferCell core (x.toNat / 2 ^ 20 % 4) (x.toNat % 2 ^ 20 + i)

/-- The 32-bit saturation of R91. -/
def saturated32 (v : Int) : Int := if v < -(2 ^ 31) then -(2 ^ 31) else if 2 ^ 31 - 1 < v then 2 ^ 31 - 1 else v

/-- Signed byte k of a number. -/
def byteOf (v k : Nat) : Int := signedOf 8 (v / 256 ^ k % 256)

/-- Element k of a row of n-byte elements, or of FP4 super-blocks, held as a number from its first byte on (R79, R242). -/
def codeIn (f row k : Nat) : Nat :=
  if f = 1 then row / 2 ^ (384 * (k / 64) + 4 * (k % 64)) % 2 ^ 4 else row / 2 ^ (8 * walkBytes f * k) % 2 ^ (8 * walkBytes f)

def zeroVal : Val := .fin false (.rat 0 1)

/-- The exact sum of the products of the 8 elements from k on, times the block scale of A's (R89, R90). -/
def blockExact (fa fb ra rb k : Nat) : Val :=
  let value := fun (f c : Nat) => if f = 1 then Fmt.fp4.value c else elementValue f c
  let w := (List.range 8).foldl (fun w i =>
    (addVal nearest w (mulVal (value fa (codeIn fa ra (k + i))) (value fb (codeIn fb rb (k + i)))).1).1) zeroVal
  let scale := ra / 2 ^ (384 * (k / 64) + 256 + 12 * (k % 64 / 8)) % 2 ^ 12
  if fa ≠ 1 then w else if scale = 0xFFF then .nan else if scale = 0 then zeroVal else (mulVal (scaleVal scale) w).1

/-- The blocks of group g of a pass of klen elements. -/
def blocksIn (klen g : Nat) : List Nat := ((List.range 4).map fun b => 32 * g + 8 * b).filter fun k => decide (k < klen)

/-- One group enters an accumulator element (R89 to R91), with the flags of R249. -/
def groupAdds (cmd fa fb ra rb klen : Nat) (acc : Nat × BitVec 5) (g : Nat) : Nat × BitVec 5 :=
  if cmd = 0x13 then
    let old := signedOf 32 acc.1
    let sum := ((blocksIn klen g).map fun k =>
      ((List.range 8).map fun i => byteOf ra (k + i) * byteOf rb (k + i)).sum).sum
    let v := saturated32 (old + sum)
    ((v % 2 ^ 32).toNat, acc.2 ||| (if v = old + sum then 0#5 else flagOF))
  else
    let w := (blocksIn klen g).foldr (fun k w => (addVal nearest (blockExact fa fb ra rb k) w).1) zeroVal
    let x := roundTo .fp32 nearest (if w.isZero then zeroVal else w)
    let r := roundTo .fp32 nearest (addVal nearest (Fmt.fp32.value acc.1) (Fmt.fp32.value x.1)).1
    (r.1, acc.2 ||| (x.2 ||| r.2) &&& (flagNX ||| flagOF))

/-- Where column j of B begins, from element BK0 on, and the bytes of klen elements (R242, R249). -/
def columnAt (core : Nat) (o : MatOp) (j : Nat) : Nat :=
  let f := (o.reg 2).toNat / 2 ^ 58
  let step := (j : Int) * (o.reg 3).toInt
  let b := ((o.reg 2).toNat % 2 ^ 20 : Nat) +
    (if f = 1 then 48 * ((o.b.toNat % 2 ^ 16 / 64 : Nat) + step) else (walkBytes f : Int) * ((o.b.toNat % 2 ^ 16 : Nat) + step))
  bufferCell core 0 b.toNat

def runBytes (f klen : Nat) : Nat := if f = 1 then 48 * (klen / 64) else walkBytes f * klen

/-- One slice of an mma over a memory, tile row after tile row, with its flags (R249). -/
def mmaSlice (core fa klen : Nat) (o : MatOp) (rows : List Nat) (m : List Host.Cell) : List Host.Cell × BitVec 5 :=
  let ns := tileNS core
  let fb := (o.reg 2).toNat / 2 ^ 58
  (List.range (tileM core)).foldl (fun x i => (List.range ns).foldl (fun y j =>
    let cell := hereByte core o.a (4 * (ns * i + j))
    let column := readBytes m (columnAt core o j) (runBytes fb klen)
    let r := (List.range ((klen + 31) / 32)).foldl (groupAdds o.cmd fa fb (rows.getD i 0) column klen)
      (if o.b.getLsbD 16 then 0 else readBytes x.1 cell 4, 0#5)
    (writeBytes y.1 cell 4 r.1, y.2 ||| r.2)) x) (m, 0#5)

/-- The types that a form takes from the latch and from B (R248). -/
def formTypes (cmd : Nat) : List Nat :=
  if cmd = 0x10 then [1] else if cmd = 0x11 then [2, 3] else if cmd = 0x12 then [4] else [7]

/-- An mma whose own checks pass on a core, for a latch of klen elements (R245, R249). -/
def sliceFits (core klen : Nat) (o : MatOp) : Prop :=
  let f := (o.reg 2).toNat / 2 ^ 58
  let unit := if o.cmd = 0x10 then 64 else 8
  0x10 ≤ o.cmd ∧ o.cmd ≤ 0x13 ∧ hereFits core o.a 2 (4 * tileM core * tileNS core) [if o.cmd = 0x13 then 0 else 5] ∧
    hereFits core (o.reg 2) 0 (if f = 1 then 16 else walkBytes f) (formTypes o.cmd) ∧ o.b.toNat < 2 ^ 17 ∧
    o.b.toNat % 2 ^ 16 % unit = 0 ∧ klen % unit = 0 ∧ 0 ≤ (o.reg 3).toInt ∧ (o.reg 3).toInt < 2 ^ 39 ∧
    columnAt core o (tileNS core - 1) + runBytes f klen ≤ bufferCell core 0 (bufferSize core 0)

/-- The four cores of a quad (R13, R240). -/
def coresOfQuad (die quad : Nat) : List Nat := (List.range 4).map fun j => 256 * die + 16 * (quad / 4) + 4 * (quad % 4) + j

/-- An ended command leaves the queue of its core (R253, R254, R190). -/
def commandLeaves (s : State) (core : Nat) (o : MatOp) : State :=
  let t := s.thr o.key
  let v := t.mstatus ||| o.flags.setWidth 64
  let v' := if o.err = 0 ∨ t.mstatus.toNat / 2 ^ 8 % 16 ≠ 0 then v
    else v ||| BitVec.ofNat 64 (o.cmd * 2 ^ 24 + o.err * 2 ^ 8)
  let t' := { t with mstatus := v', latch := t.latch ||| 0b00100#5 }
  let irq := o.cmd = 0x09 ∧ o.b.getLsbD 23 = true
  (s.setCore core { s.core core with matQueue := [] }).setThr o.key
    (if irq then { t' with uip := t'.uip ||| 1#3, argEngine := BitVec.ofNat 64 (o.a.toNat % 2 ^ 52), argEng := 2#3 } else t')

end Sys2Proof.Machine

/-- R243, R255: the matrix commands read their operands and the slot's bank at issue and make no check there; an mdrain takes
a counter value; a full queue forfeits. -/
def Obligations.MatrixIssue : Prop :=
  ∀ (s : State) (d a b : Reg) (lk : BitVec 4),
    let t := s.thr s.cur
    let room := admitted (s.core (coreOf s.cur)) 7 1
    let drain := Instr.mdrain a b
    let wait := Instr.mwait d a lk
    (∀ r ∈ matrixRows a b, codedC r.1 2#3 r.2.1 ∧ (ready r.1 s = true →
      (¬ room → exec r.1 s = .next s) ∧
      (room → exec r.1 s = passed
        (matrixQueued s r.2.1 (readReg s s.cur r.2.2.1) (readReg s s.cur r.2.2.2) 0#32)))) ∧
    codedC drain 2#3 0x09 ∧
    (ready drain s = true → (¬ room → exec drain s = .next s) ∧
      (room →
        let u := matrixQueued s 0x09 (readReg s s.cur a) (readReg s s.cur b) t.seq
        exec drain s = passed (u.setThr s.cur { t with seq := t.seq + 1#32 }))) ∧
    codedL wait 0x61#7 0x10#6 lk ∧
    (ready wait s = true → exec wait s = .next (retireTo { s with
      nonce := s.nonce + 1, work := s.work ++ [.longLatencyResultArrival s.cur s.nonce] } s.cur (t.pc + 4#64)
      [{ id := s.nonce, dest := d, count := lk.toNat, event := true, holds := false, word := encode wait
         pc := t.pc, mismatch := false, retry := false, a := readReg s s.cur a, b := 0#64, arrival := .pending }]))

/-- R244 to R246, R250 to R252: a command at the head. mzero clears its tile and nothing else; mband loads the scales; mgath
fills the quarter from the rows that its index names, once their banks are free (R134); mdrain writes each element rounded once; an mma there is SEQ, and
a bad tag is TAG. -/
def Stated.MatrixRuns : Prop :=
  ∀ (s : State) (core : Nat) (o : MatOp), headStarts s core o → core < 1024 →
    let M : Nat := tileM core
    let ns : Nat := tileNS core
    let ends := fun (u : State) (err : Nat) (flags : BitVec 5) => exec (.matrixCmdStart core) s = .next u ∧
      (u.core core).matQueue = [ended o err flags] ∧ u.work = s.work ++ [.matrixCmdComplete core]
    (o.cmd ∈ [0x01, 0x08, 0x09, 0x0A] → ¬ tagFits o.a → ∃ u, ends u 1 0#5 ∧ u.mem = s.mem) ∧
    (0x10 ≤ o.cmd → ∃ u, ends u 8 0#5 ∧ u.mem = s.mem) ∧
    (o.cmd = 0x08 → Memory.wf s.mem → hereFits core o.a 2 (4 * M * ns) [0, 5] → ∃ u, ends u 0 0#5 ∧
      ∀ x, readByte u.mem x =
        if hereByte core o.a 0 ≤ x ∧ x < hereByte core o.a (4 * M * ns) then 0#8 else readByte s.mem x) ∧
    (o.cmd = 0x0A → hereFits core o.a 0 8 [0] → o.a.toNat % 2 ^ 20 + 2 * (ns + M / 64) ≤ bufferSize core 0 →
      let h := fun j => readBytes s.mem (hereByte core o.a (2 * j)) 2
      (∀ j < ns, h j < 2 ^ 12) → ∃ u, ends u 0 0#5 ∧ u.mem = s.mem ∧
        (u.core core).bands = (List.range (ns + M / 64)).map h) ∧
    (o.cmd = 0x01 → hereFits core o.a 1 8 [0] → o.a.toNat % 2 ^ 20 + M / 2 ≤ bufferSize core 1 →
      let ma := o.reg 0
      let k0 : Nat := o.b.toNat % 2 ^ 16
      let klen : Nat := o.b.toNat / 2 ^ 16
      let index := fun t => readBytes s.mem (hereByte core o.a (2 * t)) 2
      let dist := fun (r : Nat) => ((ma.toNat % 2 ^ 20 : Nat) : Int) + ((k0 : Int) + r * (o.reg 1).toInt)
      tagFits ma → ma.toNat % 2 ^ 52 / 2 ^ 20 = 1 → ma.toNat / 2 ^ 58 ∈ [2, 3, 7] → klen % 8 = 0 → 8 ≤ klen → klen ≤ 256 →
      k0 % 8 = 0 → -(2 ^ 39) ≤ (o.reg 1).toInt → (o.reg 1).toInt < 2 ^ 39 →
      (∀ t < M / 4, index t ≠ 0xFFFF → 0 ≤ dist (index t) ∧ dist (index t) + klen ≤ bufferSize core 1) →
      (banksHeld s core (gathBanks s core o) → exec (.matrixCmdStart core) s =
        .next { s with work := s.work ++ [.matrixCmdStart core] }) ∧
      (¬ banksHeld s core (gathBanks s core o) → ∃ u, ends u 0 0#5 ∧ u.mem = s.mem ∧ (u.core core).latchValid = true ∧ (u.core core).latchKlen = klen ∧
        (u.core core).latchType = ma.toNat / 2 ^ 58 ∧
        (u.core core).latchRows = (List.range (M / 4)).map fun t =>
          if index t = 0xFFFF then 0 else readBytes s.mem (bufferCell core 1 (dist (index t)).toNat) klen)) ∧
    (o.cmd = 0x09 →
      let f := o.a.toNat / 2 ^ 58
      let size := walkBytes f
      let src := o.b.toNat % 2 ^ 20
      let i32 := o.b.getLsbD 25 = true
      let rnd := o.b.toNat / 2 ^ 20 % 8
      Memory.wf s.mem → hereFits core o.a 2 size [2, 3, 4, 5, 7] → o.a.toNat % 2 ^ 20 + size * M * ns ≤ bufferSize core 2 →
      (i32 → f ∈ [5, 7]) → (¬ i32 → f ≠ 7) → o.b.getLsbD 24 = false → o.b.toNat / 2 ^ 26 = 0 → rnd ≤ 4 →
      src % (4 * M * ns) = 0 → src + 4 * M * ns ≤ bufferSize core 2 →
      (o.a.toNat % 2 ^ 20 + size * M * ns ≤ src ∨ src + 4 * M * ns ≤ o.a.toNat % 2 ^ 20) →
      ∃ u flags, ends u 0 flags ∧
        (∀ n < M * ns,
          let bits := readBytes s.mem (bufferCell core 2 (src + 4 * n)) 4
          let v := if i32 then intVal (signedOf 32 bits) else Fmt.fp32.value bits
          let draw := if rnd = 4 then drawAt s o.key o.seed o.n n else 0#32
          readBytes u.mem (hereByte core o.a (size * n)) size = (roundElement f ⟨BitVec.ofNat 3 rnd, draw⟩ v).1) ∧
        ∀ x, (x < hereByte core o.a 0 ∨ hereByte core o.a (size * M * ns) ≤ x) → readByte u.mem x = readByte s.mem x)

/-- R247, R248, R249, R89 to R91: the gang. An mgang whose next entry is an mma arrives; behind the ck's withdrawals and arrivals
the four arrived cores of a quad are released: every mgang completes and leaves its queue, and the four mmas run to their
accumulators, or fail together with GANG or TYPE, and write nothing. An mgath that fails with SEQ leaves its quarter invalid (R246). -/
def Stated.MatrixGang : Prop :=
  (∀ (s : State) (core : Nat) (g m : MatOp) (rest : List MatOp), (s.core core).matQueue = g :: m :: rest → g.cmd = 2 →
    g.started = false → (s.core core).arrived = false → opHalts s g.key = false → (∀ a ∈ (s.thr g.key).outst, a.aid ∉ g.fork) →
    g.id ≠ m.id → core < 1024 →
    let quad := coresOfQuad (core / 256) (4 * (core / 16 % 16) + core % 16 / 4)
    let foreign := ∃ c ∈ quad, (s.core c).residence ≠ .free ∧ (s.core c).ctxAsid ≠ (s.thr g.key).asid
    ((m.cmd < 0x10 ∨ 0x13 < m.cmd) → ∃ u os, exec (.matrixCmdStart core) s = .next u ∧
      (u.core core).matQueue = ended g 8 0#5 :: os ∧ u.mem = s.mem ∧ (m.cmd = 0x01 → (u.core core).latchValid = false) ∧
      ∃ m' ∈ os, m' = { m with started := true, err := 8 }) ∧
    (0x10 ≤ m.cmd → m.cmd ≤ 0x13 → foreign → ∃ u os, exec (.matrixCmdStart core) s = .next u ∧
      (u.core core).matQueue = ended g 9 0#5 :: os ∧ u.mem = s.mem) ∧
    (0x10 ≤ m.cmd → m.cmd ≤ 0x13 → ¬ foreign → (∀ a ∈ (s.thr m.key).outst, a.aid ∉ m.fork) →
      exec (.matrixCmdStart core) s = .next (s.setCore core { s.core core with arrived := true }))) ∧
  (∀ (s : State) (die quad : Nat), die < 4 → quad < 56 → s.due = [] →
    let cs := coresOfQuad die quad
    let c0 := cs.headD 0
    (c0, s.core c0) ∈ s.cores → coreLives s c0 (s.core c0) = true →
    (.gangRelease die quad ∈ (closeCycle s).due ↔ ∀ c ∈ cs, (s.core c).arrived = true)) ∧
  (∀ (s : State) (die quad : Nat) (g m : Nat → MatOp), die < 4 → quad < 56 →
    let cs := coresOfQuad die quad
    let q := fun c => ((s.core c).latchValid, (s.core c).latchType, (s.core c).latchKlen)
    let c0 := cs.headD 0
    (∀ c ∈ cs, (s.core c).matQueue = [g c, m c] ∧ (g c).id ≠ (m c).id ∧ (m c).started = false) →
    let slices := cs.foldl (fun x c =>
      let r := mmaSlice c (q c0).2.1 (q c0).2.2 (m c) (cs.flatMap fun c => (s.core c).latchRows) x.1
      (r.1, x.2 ++ [r.2])) (s.mem, [])
    ((∃ c ∈ cs, (s.core c).arrived = false) → exec (.gangRelease die quad) s = .next s) ∧
    ((∀ c ∈ cs, (s.core c).arrived = true) → ∃ (u : State) (err : Nat → Nat) (flags : Nat → BitVec 5), exec (.gangRelease die quad) s = .next u ∧
      (∀ c ∈ cs, (u.core c).arrived = false ∧ (u.core c).matQueue = [ended (m c) (err c) (flags c)]) ∧
      u.work = s.work ++ cs.map Event.matrixCmdComplete ∧
      (((∃ c ∈ cs, (q c).1 = false ∨ q c ≠ q c0) ∨ (∃ c ∈ cs, (m c).cmd ≠ (m c0).cmd)) →
        u.mem = s.mem ∧ ∀ c ∈ cs, err c = 9) ∧
      ((∀ c ∈ cs, q c = q c0 ∧ (m c).cmd = (m c0).cmd) → (q c0).1 = true →
        ((m c0).cmd = 0x10 ∧ (q c0).2.1 ≠ 1 ∨ (m c0).cmd = 0x11 ∧ (q c0).2.1 ≠ 2 ∧ (q c0).2.1 ≠ 3 ∨
          (m c0).cmd = 0x12 ∧ (q c0).2.1 ≠ 4 ∨ (m c0).cmd = 0x13 ∧ (q c0).2.1 ≠ 7) →
        u.mem = s.mem ∧ ∀ c ∈ cs, err c = 3) ∧
      ((∀ c ∈ cs, q c = (true, (q c0).2.1, (q c0).2.2) ∧ (m c).cmd = (m c0).cmd ∧ (s.core c).latchRows.length = tileM c0 / 4 ∧
          sliceFits c (q c0).2.2 (m c)) → (q c0).2.1 ∈ formTypes (m c0).cmd →
        u.mem = slices.1 ∧ (∀ c ∈ cs, err c = 0) ∧ cs.map flags = slices.2)))

/-- R89 to R91: how one group of up to 32 elements enters an accumulator: the exact sum is rounded to FP32 before it is
added, and the sum is rounded again; an integer accumulator saturates and raises OF. And R255: the event of an mwait. -/
def Stated.MatrixGroups : Prop :=
  (∀ (fa fb ra rb acc : Nat) (ks : List Nat),
    let w := groupSum fa fb ra rb ks
    let w := if w.isZero then Val.fin false (.rat 0 1) else w
    (floatGroup fa fb ra rb acc ks).1 = (roundTo .fp32 nearest (addVal nearest (Fmt.fp32.value acc)
      (Fmt.fp32.value (roundTo .fp32 nearest w).1)).1).1) ∧
  (∀ (ra rb acc g n : Nat), acc < 2 ^ 32 → n ≤ 4 →
    let sum := ((List.range (8 * n)).map fun k => byteOf ra (32 * g + k) * byteOf rb (32 * g + k)).sum
    let r := intGroup ra rb acc ((List.range n).map fun b => 32 * g + 8 * b)
    (r.1 : Int) = saturated32 (signedOf 32 acc + sum) % 2 ^ 32 ∧
      (r.2 = flagOF ↔ saturated32 (signedOf 32 acc + sum) ≠ signedOf 32 acc + sum)) ∧
  (∀ (k : Nat) (w : Window) (d a : Reg) (lk : BitVec 4) (s : State), (s.thr k).windows = [w] → (s.thr k).held = [] →
    (s.thr k).frozen = [] → w.arrival = .pending → w.word = encode (.mwait d a lk) → w.count = 0 →
    let busy := ∃ o ∈ (s.core (coreOf k)).matQueue, o.key = k
    let v := (s.thr k).mstatus
    (busy → exec (.longLatencyResultArrival k w.id) s =
      .next { s with work := s.work ++ [.longLatencyResultArrival k w.id] }) ∧
    (¬ busy → ∃ u, exec (.longLatencyResultArrival k w.id) s = .next u ∧ (u.thr k).windows = [] ∧
      (regOk w.dest = true → w.dest ≠ 10#5 →
        readReg u k w.dest = if remains true s k w.dest then v else readReg s k w.dest) ∧
      (u.thr k).mstatus = if w.a.getLsbD 0 then 0#64 else v))

/-- R253, R254, R190: a command that has ended leaves the queue, accrues in MSTATUS, sets the ENGINE latch bit, and an mdrain
with IRQ the pending bit; and R247: the four slices of a joint operation complete in one step. -/
def Stated.MatrixCompletes : Prop :=
  (∀ (s : State) (core : Nat) (o : MatOp), (s.core core).matQueue = [o] → o.started = true → o.err ≠ 6 →
    (0x10 ≤ o.cmd → o.cmd ≤ 0x13 → o.err = 8) →
    exec (.matrixCmdComplete core) s = .next (commandLeaves s core o)) ∧
  (∀ (s : State) (die quad core : Nat) (m : Nat → MatOp), die < 4 → quad < 56 →
    let cs := coresOfQuad die quad
    core ∈ cs → (∀ c ∈ cs, (s.core c).matQueue = [m c] ∧ (m c).started = true ∧ 0x10 ≤ (m c).cmd ∧ (m c).cmd ≤ 0x13 ∧
      (m c).err ≠ 8 ∧ (m c).err ≠ 6) →
    exec (.matrixCmdComplete core) s = .next (cs.foldl (fun u c => (commandLeaves u c (m c)).later (.matrixCmdStart c)) s))

/-! The Meadow (12). -/

namespace Sys2Proof.Machine

/-- A context owns plot p of a die (R260). -/
def contextOwns (s : State) (asid : BitVec 16) (die p : Nat) : Prop :=
  let x := s.plot die p
  x.valid = true ∧ x.asid = asid ∧ (p % 2 = 1 → (s.plot die (p - 1)).join = false)

/-- The thread owns plot p of its die (R260). -/
def owner (s : State) (k p : Nat) : Prop := contextOwns s (s.thr k).asid (dieOf (coreOf k)) p ∧ coreOf k < 1024

/-- The commands and astat (R264): operation, the register that gets the answer, the operand registers. -/
def meadowRows (d a b : Reg) : List (Instr × MeadowOp × Reg × Reg × Reg) :=
  [(.acfg a b, .cfg, 10#5, a, b), (.acoef a b, .coef, 10#5, a, b), (.ascale a b, .scale, 10#5, a, b),
   (.arun a, .run, 10#5, a, 10#5), (.ahold a, .hold, 10#5, a, 10#5), (.areset a, .reset, 10#5, a, 10#5),
   (.astat d a, .stat d, d, a, 10#5)]

/-- The request on its way to the die's controller (R266). -/
def meadowAsked (s : State) (op : MeadowOp) (x y : Word) : MeadowReq :=
  { key := s.cur, asid := (s.thr s.cur).asid, die := dieOf (coreOf s.cur), plot := x.toNat % 8, op := op, a := x, b := y
    writes := plotWrites s (dieOf (coreOf s.cur)) (x.toNat % 8), alone := false }

/-- The checks at issue (R260, R265, R277): an operand trap, the MEADOW trap, or go. fits: the checks that depend on the
plot as it stands (R268), which an instruction that meets SATPEND makes before the MEADOW trap. -/
def meadowIssues (s : State) (i : Instr) (x : Word) (ok fits : Prop) (go : Prop) : Prop :=
  let p := x.toNat % 8
  let die := dieOf (coreOf s.cur)
  (¬ (owner s s.cur p ∧ ok) → exec i s = trapped s kindADDRESS 0 x) ∧
  (owner s s.cur p → ok → (s.plot die p).satpend = true →
    (¬ fits → exec i s = trapped s kindADDRESS 0 x) ∧
    (fits → exec i s = trapped (s.setPlot die p { s.plot die p with satpend := false }) kindMEADOW p 0#64)) ∧
  (owner s s.cur p → ok → (s.plot die p).satpend = false → go)

/-- Waiters return a status, and a plot is left as x without waiters. -/
def waitersEnd (s : State) (die p : Nat) (x : Plot) (ws : List PlotWaiter) (status : Nat) : State :=
  ws.foldl (fun s w => arrive s w.key w.wid (.one (BitVec.ofNat 64 status))) (s.setPlot die p { x with waiters := [] })

/-- The thread goes on after its command (R266); one that a repetition sequence issues holds no thread. -/
def goesOn (s : State) (r : MeadowReq) (d : Reg) (v : Word) : Out :=
  .next (if r.alone then s else retire (writeReg (s.setThr r.key { s.thr r.key with hold := .none }) r.key d v) r.key)

/-- The trap of a command that does not fit its plot (R268). -/
def doesNotFit (s : State) (r : MeadowReq) : Out :=
  .next (if r.alone then s else exactTrap (s.setThr r.key { s.thr r.key with hold := .none }) r.key kindADDRESS 0 r.a)

/-- A plot after a write of its configuration in each state (R270). -/
def reconfigured (x : Plot) : Plot :=
  if x.state = .running then { x.recomputed with settle := 15, waiters := x.waiters.map fun w => { w with run := 0 } }
  else if x.state = .held then { x.recomputed with settle := 15 } else x

/-- A plot that areset or an MPLOT write discharged (R270). -/
def discharged (x : Plot) (clr : Bool) : Plot :=
  if clr then { x with
    state := .idle, satpend := false, settle := 15, dmarg := 0, routes := [], codes := [], inits := [], tau := 0, gain := 0
    inUse := [], states := [] }
  else { x with state := .idle, satpend := false, settle := 15, dmarg := 0, states := [] }

/-- The states that an arun gives a plot's integrators (R270): the initial values, in units of 2^-32 full scale. -/
def initialStates (x : Plot) : Tab Int := x.inits.map fun v => (v.1, signedOf 12 (v.2 % 2 ^ 12) * 2 ^ 21)

/-- The words of astat (R276). -/
def plotReport (s : State) (die p sel : Nat) : Word :=
  let x := s.plot die p
  let code := match x.state with | .idle => 0 | .running => 1 | .held => 2 | .saturated => 3
  if sel = 0 then fieldsWord [((x.dmarg % 2 ^ 16).toNat, 48), (x.inUse.length, 40), (x.settle, 24),
    ((s.die die).blocked.toNat, 16), (x.satpend.toNat, 15), (code, 12), (x.satsum.toNat, 7), (x.satix, 0)]
  else if sel = 1 then fieldsWord [(x.ea.toNat, 32), (x.eta.toNat, 16), (x.calFault.toNat, 2), (x.stale.toNat, 1),
    (x.calValid.toNat, 0)]
  else if sel = 2 then x.tset else x.theld

/-- A controller's request that is applied now (R266, R278). -/
def applies (s : State) (r : MeadowReq) : Prop :=
  (s.die r.die).blocked = false ∧ s.dieRetired r.die = false ∧ contextOwns s r.asid r.die r.plot ∧
    plotWrites s r.die r.plot = r.writes

/-- 2048 K_ij of R262. -/
def coupling (x : Plot) (i j : Nat) : Int :=
  ((x.routes.filter fun r => r.2.1 == j && r.2.2 == i).map fun r => signedOf 12 (tabGet 0 x.codes r.1 % 2 ^ 12)).sum

/-- The margin of integrator i of R262. -/
def marginOf (x : Plot) (used : List Nat) (i : Nat) : Int :=
  -(coupling x i i) - ((used.filter fun j => j ≠ i).map fun j => ((coupling x i j).natAbs : Int)).sum

end Sys2Proof.Machine

/-- R260, R264, R265, R266, R270, R273, R277, R278: a Meadow instruction at issue. A command and astat hold their thread until they
are applied. asettle and asample open a window and are applied as they issue, behind the thread's reissued commands: an asettle
waits at a running plot and else has its status, an asample has its pair; in a calibration block they wait at the controller and
their thread sleeps. -/
def Obligations.MeadowIssue : Prop :=
  ∀ (s : State) (d a b : Reg) (lk : BitVec 4),
    let x := readReg s s.cur a
    let y := readReg s s.cur b
    let t := s.thr s.cur
    let settle := Instr.asettle d a b lk
    let sample := Instr.asample d a b lk
    let limit := if (s.plot (dieOf (coreOf s.cur)) (x.toNat % 8)).join then 128 else 64
    let die := dieOf (coreOf s.cur)
    let plot := s.plot die (x.toNat % 8)
    let opens := fun (s1 : State) (i : Instr) (event : Bool) =>
      let opened := retireTo { s1 with nonce := s1.nonce + 1 } s.cur ((s1.thr s.cur).pc + 4#64)
        [{ id := s.nonce, dest := d, count := lk.toNat, event := event, holds := false, word := encode i, pc := t.pc, a := x
           b := y, mismatch := false, retry := false, arrival := .pending }]
      { opened with ranks := tabSet opened.ranks (2 ^ 16 + 8 * die + x.toNat % 8) (1 + s.cur) }
    let waits := fun (i : Instr) (op : MeadowOp) (event : Bool) (now : State → Prop) =>
      let r := meadowAsked s op x y
      let s1 := meadowArrives s s.cur
      let u1 := opens s1 i event
      let u := opens s i event
      ((s1.die die).blocked = false → exec i s = exec (.meadowApply r) u1) ∧
      ((s1.die die).blocked = true → exec i s = exec (.meadowApply r) (u1.setThr s.cur { u1.thr s.cur with hold := .block })) ∧
      ((∀ q, .meadowApply q ∈ s.work → q.key ≠ s.cur) →
        ((s.die die).blocked = true →
          let v := u.setThr s.cur { u.thr s.cur with hold := .block }
          exec i s = .next (v.setDie die { v.die die with blockHeld := (s.die die).blockHeld ++ [r] })) ∧
        ((s.die die).blocked = false → s.dieRetired die = true → exec i s = .next u) ∧
        ((s.die die).blocked = false → s.dieRetired die = false → now u))
    let gives := fun (i : Instr) (u : State) (a : Result) => exec i s = .next (arrive u s.cur s.nonce a)
    (∀ r ∈ meadowRows d a b, let u := readReg s s.cur r.2.2.2.1
      let v := readReg s s.cur r.2.2.2.2
      decode (encode r.1) = some r.1 ∧ (ready r.1 s = true → meadowIssues s r.1 u (meadowOperands r.2.1 u v = true)
        (fieldsFit (s.plot die (u.toNat % 8)) r.2.1 u v = true)
        (exec r.1 s = .next { s.setThr s.cur { t with hold := .answer r.2.2.1 } with
          work := s.work ++ [.meadowApply (meadowAsked s r.2.1 u v)] }))) ∧
    codedL settle 0x61#7 0x19#6 lk ∧ codedL sample 0x61#7 0x1A#6 lk ∧
    (ready settle s = true → meadowIssues s settle x (x.toNat < 8 ∧ y.toNat / 2 ^ 52 = 0 ∧ y.toNat % 2 ^ 16 ≠ 0 ∧
      y.toNat / 2 ^ 16 % 2 ^ 16 ≠ 0 ∧ y.toNat / 2 ^ 32 % 2 ^ 20 ≠ 0) True (waits settle (.settle s.nonce) true fun u =>
        (plot.state = .idle → gives settle u (.one 3#64)) ∧ (plot.state = .saturated → gives settle u (.one 2#64)) ∧
        (plot.state = .held → gives settle u (.one (if plot.settle = 0 then 0#64 else 3#64))) ∧
        (plot.state = .running → exec settle s = .next (u.setPlot die (x.toNat % 8) { plot with
          waiters := plot.waiters ++ [⟨s.cur, s.nonce, y, 0, 0⟩] })))) ∧
    (ready sample s = true → meadowIssues s sample x (x.toNat < 8 ∧ y.toNat < limit) True
      (waits sample (.sample s.nonce) false fun u =>
        let v := samplePair s plot die (x.toNat % 8) (y.toNat % 128)
        gives sample u (.two v.1 v.2))) ∧
    (∀ u v : Word,
      (meadowOperands .hold u v = true ↔ u.toNat < 8) ∧ (meadowOperands .run u v = true ↔ u &&& ~~~0x1007#64 = 0#64) ∧
      (meadowOperands .reset u v = true ↔ u &&& ~~~0x1007#64 = 0#64) ∧
      (meadowOperands (.stat d) u v = true ↔ u &&& ~~~0x37#64 = 0#64) ∧
      (meadowOperands .scale u v = true ↔ u.toNat < 8 ∧ v.toNat < 64 ∧ v.toNat / 8 % 2 = 0 ∧ v.toNat % 8 ≠ 7) ∧
      (meadowOperands .coef u v = true ↔ u &&& ~~~0x11FF0307#64 = 0#64 ∧
        v.toNat / 2 ^ (16 * (u.toNat / 2 ^ 8 % 4 + 1)) = 0 ∧
        ∀ j ≤ u.toNat / 2 ^ 8 % 4, v.toNat / 2 ^ (16 * j) % 2 ^ 16 < 2 ^ 12))

/-- R266, R268 to R271, R276, R278, R492: what the controller does with each instruction, by the state of the plot; one that
no longer owns its plot, or meets an MPLOT write, is void; a calibration block makes it wait in the order of arrival; a retired
die's controller takes none. -/
def Stated.MeadowApplies : Prop :=
  ∀ (s : State) (r : MeadowReq) (d : Reg),
    let x := s.plot r.die r.plot
    let with' := fun (y : Plot) => s.setPlot r.die r.plot y
    let go := exec (.meadowApply r) s
    let ends := fun (w n : Nat) => go = .next (arrive s r.key w (.one (BitVec.ofNat 64 n)))
    let waits := r.alone = false → (s.thr r.key).hold = .answer d
    ((s.die r.die).blocked = true → go = .next (s.setDie r.die { s.die r.die with
      blockHeld := (s.die r.die).blockHeld ++ [r] })) ∧
    ((s.die r.die).blocked = false → s.dieRetired r.die = true → go = .next s) ∧
    ((s.die r.die).blocked = false → s.dieRetired r.die = false →
      ¬ (contextOwns s r.asid r.die r.plot ∧ plotWrites s r.die r.plot = r.writes) →
      (∀ w, r.op = .settle w → ends w 4) ∧
      (∀ w, r.op = .sample w → go = .next (arrive s r.key w (.two 0#64 0x7F800000#64))) ∧
      ((∀ w, r.op ≠ .settle w) → (∀ w, r.op ≠ .sample w) → waits → go = goesOn s r d 0#64)) ∧
    (applies s r →
      (∀ w, r.op = .settle w →
        (x.state = .idle → ends w 3) ∧ (x.state = .saturated → ends w 2) ∧
        (x.state = .held → ends w (if x.settle = 0 then 0 else 3)) ∧
        (x.state = .running → go = .next (with' { x with waiters := x.waiters ++ [⟨r.key, w, r.b, 0, 0⟩] }))) ∧
      (waits →
        (∀ e, r.op = .stat e → go = goesOn s r d (plotReport s r.die r.plot (r.a.toNat / 2 ^ 4 % 4))) ∧
        (r.op = .run → go = goesOn (with' (if x.state = .idle ∨ x.state = .held then
          { x.recomputed with
            settle := 15, state := .running
            states := if x.state = .idle ∨ r.a.getLsbD 12 = true then initialStates x else x.states } else x)) r d 0#64) ∧
        (r.op = .hold → (x.state ≠ .running → go = goesOn s r d 0#64) ∧
          (x.state = .running → go = goesOn (waitersEnd s r.die r.plot { x with
            state := .held, settle := 15, freeze := s.time, tset := s.time } x.waiters 4) r d 0#64)) ∧
        (r.op = .reset → go = goesOn (waitersEnd s r.die r.plot (discharged x (r.a.getLsbD 12)) x.waiters 4) r d 0#64) ∧
        (r.op = .scale → go = goesOn (with' (reconfigured { x with tau := r.b.toNat % 8, gain := r.b.toNat / 2 ^ 4 % 4 })) r d
          0#64) ∧
        (let first := r.a.toNat / 2 ^ 16 % 2 ^ 9
         let n := r.a.toNat / 2 ^ 8 % 4 + 1
         let value := fun (t : Tab Nat) => (List.range n).foldl
           (fun t j => tabSet t (first + j) (r.b.toNat / 2 ^ (16 * j) % 2 ^ 16)) t
         r.op = .coef →
          (first + n ≤ (if r.a.getLsbD 28 = false ∧ x.join = true then 512 else if r.a.getLsbD 28 = false then 256
              else if x.join then 128 else 64) →
            go = goesOn (with' (reconfigured (if r.a.getLsbD 28 then { x with inits := value x.inits }
              else { x with codes := value x.codes }))) r d 0#64) ∧
          ((if r.a.getLsbD 28 = false ∧ x.join = true then 512 else if r.a.getLsbD 28 = false then 256
              else if x.join then 128 else 64) < first + n →
            go = doesNotFit s r)) ∧
        (r.op = .cfg → (fieldsFit x .cfg r.a r.b = false →
            go = doesNotFit s r) ∧
          (fieldsFit x .cfg r.a r.b = true → ∃ routes,
            go = goesOn (with' (reconfigured { x with routes := routes })) r d 0#64 ∧
            (∀ i < 128, (routes.filter fun m => m.2.2 == i).length ≤ 8 ∨ plotIntegrators x ≤ i) ∧
            ∀ m < 512, 
              let first := r.a.toNat / 2 ^ 16 % 2 ^ 9
              let f := r.b.toNat / 2 ^ (16 * (m - first)) % 2 ^ 16
              (m < first ∨ first + r.a.toNat / 2 ^ 8 % 4 < m →
                (routes.filter fun e => e.1 == m) = x.routes.filter fun e => e.1 == m) ∧
              (first ≤ m → m ≤ first + r.a.toNat / 2 ^ 8 % 4 → (routes.filter fun e => e.1 == m) =
                if f = 0xFFFF then [] else [(m, (f % 256, f / 256))])))))

/-- R262: the set in use and the dominance margin as they are recomputed. -/
def Stated.DominanceMargin : Prop :=
  ∀ (x : Plot), let y := x.recomputed
    let used := (List.range (if x.join then 128 else 64)).filter fun i => x.routes.any fun r => r.2.1 == i || r.2.2 == i
    y = { x with inUse := y.inUse, dmarg := y.dmarg } ∧ y.inUse = used ∧ (used = [] → y.dmarg = 0) ∧
    (∀ i ∈ used, y.dmarg ≤ marginOf x used i) ∧ (used ≠ [] → ∃ i ∈ used, y.dmarg = marginOf x used i)

/-- R263, R274: where the dominance margin is positive, the model's settled state solves K x = -k, and it is the only
solution. -/
def Stated.SettledState : Prop :=
  ∀ (x : Plot), x.recomputed = x → 0 < x.dmarg →
    let solves := fun (v : Nat → Rat) => ∀ i ∈ x.inUse,
      (x.inUse.map fun j => (coupling x i j : Rat) * v j).sum = -(coupling x i 0xFE : Rat)
    solves (settled x) ∧ ∀ v, solves v → ∀ i ∈ x.inUse, v i = settled x i

/-- R273, R274: a sample's pair. v is n × 2^-13, for a code n of the converter. e is +∞ in the cases of the rule; else it is the exact
bound, 2^-14 + EA' 2^-20 + (τθ/G + ETA' 2^-20)/δ, rounded up: here N / D of the formula with every factor multiplied out; and the
exact settled state lies within it of v, where it lies so near to any of the converter's codes (log 38, DEDUCED). -/
def Stated.SampleBound : Prop :=
  ∀ (s : State) (r : MeadowReq) (w : Nat), r.op = .sample w → applies s r →
    let x := s.plot r.die r.plot
    let i := r.b.toNat % 128
    let at' := tabGet 0 x.states i
    let open' := at' < -(2 ^ 32) ∨ 2 ^ 32 - 2 ^ 19 < at' ∨ x.state ≠ .held ∨ x.settle ≠ 0 ∨ x.dmarg ≤ 0 ∨ i ∉ x.inUse ∨ x.calFault = true ∨ x.stale = true ∨
      10000000 < (s.time - x.freeze).toNat
    let EA := max x.eaThen.toNat x.ea.toNat
    let ETA := max x.etaThen.toNat x.eta.toNat
    let THR := x.theld.toNat % 2 ^ 16
    let G := 2 ^ x.gain
    ∃ (v e : Nat) (n : Int), exec (.meadowApply r) s = .next (arrive s r.key w
        (.two (BitVec.ofNat 64 v) (BitVec.ofNat 64 e))) ∧
      v = (roundTo .fp32 nearest (.fin (decide (n < 0)) (.rat n.natAbs (2 ^ 13)))).1 ∧
      -8192 ≤ n ∧ n ≤ 8191 ∧ (open' → e = 0x7F800000) ∧
      (¬ open' → ∃ N D : Nat, 0 < D ∧
        (let near := fun (c : Int) => (c : Rat) / 2 ^ 13 - (N : Rat) / D ≤ settled x i ∧ settled x i ≤ (c : Rat) / 2 ^ 13 + (N : Rat) / D
         (∃ c, -8192 ≤ c ∧ c ≤ 8191 ∧ near c) → near n) ∧
        -- N / D = 2^-14 + EA / 2^20 + 2048 ((2^TAU / 4) (THR / 2^20) / G + ETA / 2^20) / DMARG
        N * (2 ^ 22 * G * x.dmarg.toNat) =
          D * (2 ^ 8 * G * x.dmarg.toNat + 4 * EA * G * x.dmarg.toNat + 2048 * (2 ^ x.tau * THR + 4 * ETA * G)) ∧
        e = (roundTo .fp32 ⟨3#3, 0#32⟩ (.fin false (.rat N D))).1)

/-- R259, R271, R272, R277, R278: MPLOT writes, the freeze of a settled plot, a timeout, a saturation, and the calibration
block. -/
def Stated.PlotEvents : Prop :=
  (∀ (s : State) (die p : Nat) (v : Word), (s.plot die p).join = v.getLsbD 30 →
    let x := s.plot die p
    exec (.mplotWrite die p v) s = .next
      (let u := waitersEnd s die p { discharged x true with writes := x.writes + 1 } x.waiters 4
       u.setPlot die p { u.plot die p with valid := v.getLsbD 31, join := v.getLsbD 30, asid := v.extractLsb' 0 16 })) ∧
  (∀ (s : State) (die p key wid : Nat),
    let x := s.plot die p
    let over' := fun (w : PlotWaiter) => w.word.toNat / 2 ^ 16 % 2 ^ 16 ≤ w.run
    (x.state = .running → (∃ w ∈ x.waiters, over' w) → ∃ u w, exec (.settleFreeze die p key wid) s = .next u ∧
      w ∈ x.waiters ∧ over' w ∧ (∀ v ∈ x.waiters, over' v → w.word.toNat % 2 ^ 16 ≤ v.word.toNat % 2 ^ 16) ∧
      u = ((x.waiters.filter fun w => ¬ over' w).foldl (fun s w => arrive s w.key w.wid (.one 4#64))
        ((x.waiters.filter fun w => over' w).foldl (fun s w => arrive s w.key w.wid (.one 0#64))
          (s.setPlot die p { x with
            state := .held, settle := 0, tset := s.time, theld := w.word, freeze := s.time, eaThen := x.ea
            etaThen := x.eta, waiters := [] })))) ∧
    (∀ w rest, x.waiters = w :: rest → w ∉ rest → w.key = key → w.wid = wid →
      1000 * (w.word.toNat / 2 ^ 32 % 2 ^ 20) ≤ w.edges → exec (.settleTimeout die p key wid) s = .next
        (arrive (s.setPlot die p { x with settle := 1, tset := s.time, waiters := rest }) key wid (.one 1#64))) ∧
    (∀ sum ix, x.state = .running → exec (.plotSaturation die p sum ix) s = .next (waitersEnd s die p { x with
      state := .saturated, satpend := true, settle := 2, satsum := sum, satix := ix, tset := s.time
      freeze := s.time } x.waiters 2))) ∧
  (∀ (s : State) (die : Nat),
    (∃ u, exec (.calibrationStart die) s = .next u ∧ (u.die die).blocked = true ∧ ∀ p,
      u.plot die p = { s.plot die p with waiters := (s.plot die p).waiters.map fun w => { w with run := 0 } }) ∧
    ((s.die die).blocked = false → exec (.calibrationEnd die) s = .next s) ∧
    ((s.die die).blocked = true → ∃ u, exec (.calibrationEnd die) s =
        .next ((s.die die).blockHeld.foldl (fun s r => meadowTaken (unblockThread s r.key) r) u) ∧
      (u.die die).blocked = false ∧ (u.die die).blockHeld = [] ∧ ∀ p < 8,
      let x := s.plot die p
      let y := u.plot die p
      y = { x with ea := y.ea, eta := y.eta, calValid := true, stale := false, calFault := y.calFault } ∧
      (y.calFault = false ↔ y.ea.toNat ≤ 64 ∧ y.eta.toNat ≤ 256) ∧
      (u.die die).mfault.getLsbD p = ((s.die die).mfault.getLsbD p || y.calFault)) ∧
    (∃ u, exec (.calibrationStale die) s = .next u ∧ ∀ p < 8, u.plot die p = { s.plot die p with stale := true }))

/-! Links and reduction servers (21). -/

namespace Sys2Proof.Machine

/-- The core that rpart and grpq name (R456, R15). -/
def targetCore (s : State) (x : Word) : Option Nat :=
  let n := x.toNat
  let die := n / 2 ^ 49 % 4
  let row := n / 2 ^ 45 % 16
  let col := n / 2 ^ 40 % 32
  if n / 2 ^ 52 ≠ 0 ∨ n / 2 ^ 8 % 2 ^ 32 ≠ 0 then none
  else if n / 2 ^ 40 = 0 then some (coreOf s.cur)
  else if n / 2 ^ 51 % 2 = 1 ∧ row < 14 ∧ col < 16 ∧ s.dieRetired die = false then some (256 * die + 16 * row + col)
  else none

/-- The report of lstat (R454); cl0 tells whether a class-0 flit waits. -/
def portReport (x : Port) (p cl0 : Nat) : Word :=
  if p ≤ 2 then fieldsWord [(x.out, 60), (x.excl.toNat, 58), (x.queue.length, 54), (cl0, 53), (x.up.toNat, 52),
    (x.tlast.toNat % 2 ^ 32, 0)]
  else fieldsWord [(1, 59), (x.excl.toNat, 58), (x.queue.length, 54), (cl0, 53), (x.up.toNat, 52)]

/-- The status of a context (R457). -/
def contextReport (x : RedCtx) : Word :=
  fieldsWord [(x.epoch.toNat, 48), (x.arrived.toNat, 32), (x.cfg[4].toNat % 2 ^ 16, 16), (x.drops, 8), (x.fault.toNat, 2),
    (1, 0)]

/-- The operands of an rsvr with the bank's registers 6 to 10 in v (R455). -/
def serverFits (v : Vector Word 5) (x y : Word) : Prop :=
  let f := fun (i : Fin 5) (lo n : Nat) => v[i].toNat / 2 ^ lo % 2 ^ n
  x.toNat < 64 ∧ y.toNat < 2 ^ 32 ∧ v[0].toNat < 256 ∧ f 0 1 3 = 0 ∧ f 0 4 2 ≠ 3 ∧ f 0 6 2 ≠ 3 ∧ f 1 62 1 = 0 ∧ f 1 0 33 = 0 ∧
    v[3].toNat < 2 ^ 17 ∧ v[4].toNat < 2 ^ 16 ∧ (x.toNat / 16 % 2 = 1 → v[4].toNat ≠ 0 ∧ y.toNat % 2 ^ 16 ≠ 0) ∧
    (f 1 63 1 = 0 → v[2].toNat / 2 ^ 52 = 0 ∧ v[2].toNat % 64 = 0) ∧ (f 0 0 1 = 1 → f 3 0 16 ≠ 0)

/-- The sum of the partials by child, element by element, in ascending order of the children (R448), for INT64 add. -/
def int64Sum (x : RedCtx) : List Word :=
  (List.range 6).map fun i => ((List.range 16).filter fun c => x.cfg[4].getLsbD c).foldl
    (fun acc c => acc + (tabGet [] x.bufs c).getD i 0#64) 0#64

/-- A flit of the way waits to go out of port p of a die (R437). -/
def flitWaits (s : State) (die p : Nat) (x : Transit) : Prop := x ∈ s.transit ∧ x.since.isSome = true ∧ x.way[x.hop]? = some (die, p)

def classWaits (s : State) (die p c : Nat) : Prop := ∃ x, flitWaits s die p x ∧ x.cls = c

/-- The oldest flit of a direction has waited more than 4,000 ns (R438). -/
def longWait (s : State) (die p : Nat) : Prop := ∃ x t, flitWaits s die p x ∧ x.since = some t ∧ 4000 < (s.time - t).toNat

/-- The other end of a port of the ring or of the Barn's link, whose end at the Barn stands under 12 (R433, log 18, DESIGN CHOICE). -/
def farEnd (die p : Nat) : Nat × Nat :=
  if p = 0 then ((die + 1) % 4, 1) else if p = 1 then ((die + 3) % 4, 0) else if p = 2 then (die, 12) else (die, 2)

/-- The end of a port may send a flit of class c (R435, R437, R441): groups drive outwards that are not silent in a turn, and a permit
is admitted. -/
def maySend (z : Port) (c : Nat) : Prop :=
  let min' := fun j => z.lpmin.toNat / 2 ^ (12 * j) % 2 ^ 11
  let held := z.held.getD c 0
  z.up = true ∧ 0 < (if z.silent then min z.steady z.out else z.out) ∧ held < z.lpcap.toNat / 2 ^ (12 * c) % 2 ^ 11 ∧
    (held < min' c ∨ ((List.range 5).map fun j => max (z.held.getD j 0) (min' j)).sum < z.capacity)

/-- No discarded flit and no audit is on its way into a port (R434, R444). -/
def wayClear (s : State) (die p : Nat) : Prop := (s.port die p).replay = [] ∧ ∀ l, .auditFlitArrival die p l ∉ s.work

end Sys2Proof.Machine

/-- R453 to R457: the link instructions. -/
def Stated.LinkResults : Prop :=
  ∀ (s : State) (d a b : Reg) (lk : BitVec 4),
    let x := readReg s s.cur a
    let y := readReg s s.cur b
    let core := coreOf s.cur
    let die := dieOf core
    let t := s.thr s.cur
    let turn := Instr.lturn a b
    let stat := Instr.lstat d a
    let part := Instr.rpart a b
    let query := Instr.grpq d a lk
    codedC turn 4#3 0x01 ∧ codedC part 4#3 0x03 ∧ codedR stat 0x61#7 0x20#6 ∧ codedL query 0x61#7 0x21#6 lk ∧
    (ready turn s = true →
      let p := s.port die x.toNat
      exec turn s = if 3 ≤ x.toNat ∨ 8 < y.toNat then trapped s kindADDRESS 0 x
        else if 4 ≤ p.queue.length then .next s
        else passed (s.setPort die x.toNat { p with queue := p.queue ++ [y.toNat] })) ∧
    (ready stat s = true →
      (x.toNat = 3 ∨ 12 ≤ x.toNat → exec stat s = trapped s kindADDRESS 0 x) ∧
      (x.toNat ≠ 3 → x.toNat < 12 →
        (classWaits s die x.toNat 0 → exec stat s = wrote s d (portReport (s.port die x.toNat) x.toNat 1)) ∧
        (¬ classWaits s die x.toNat 0 → exec stat s = wrote s d (portReport (s.port die x.toNat) x.toNat 0)))) ∧
    (ready part s = true → exec part s =
      match targetCore s x with
      | none => trapped s kindADDRESS 0 x
      | some c =>
        if 2 ^ 16 ≤ y.toNat then trapped s kindADDRESS 0 x
        else if 8 ≤ outbound s core 3 then .next s
        else passed { s with work := s.work ++ [.partialArrival
          { src := core, core := c, asid := t.asid, ctx := x.toNat % 16, child := x.toNat / 16 % 16
            epoch := y.extractLsb' 0 16, v := (List.range 6).map fun i => t.linkRegs.getD i 0#64 }] }) ∧
    (ready query s = true → exec query s =
      match targetCore s x with
      | none => trapped s kindADDRESS 0 x
      | some c =>
        let r := s.red c (x.toNat % 16)
        if x.toNat / 16 % 16 ≠ 0 then trapped s kindADDRESS 0 x
        else opened s query d lk (if r.on = true ∧ r.asid = t.asid then contextReport r else 0#64))

/-- R455: rsvr on a context of the issuing core, with the registers of the slot's bank. While the outbound queue has no room for
the sum that it sends to a parent it forfeits (R361; log 39, DESIGN CHOICE). -/
def Stated.ServerSetup : Prop :=
  ∀ (s : State) (a b : Reg),
    let x := readReg s s.cur a
    let y := readReg s s.cur b
    let core := coreOf s.cur
    let r := (s.thr s.cur).linkRegs
    let v : Vector Word 5 := #v[r[6], r[7], r[8], r[9], r[10]]
    let k := x.toNat % 16
    let c := s.red core k
    let i := Instr.rsvr a b
    codedC i 4#3 0x02 ∧ (ready i s = true →
      (¬ serverFits v x y → exec i s = trapped s kindADDRESS 0 x) ∧
      (serverFits v x y →
        (x.toNat / 16 % 2 = 0 → exec i s = passed (s.setRed core k
          { c with on := false, arrived := 0#16, drops := 0, fault := false, bufs := [] })) ∧
        (x.toNat / 16 % 2 = 1 → (x.toNat / 32 % 2 = 0 ∨ c.on = false) → exec i s = passed (s.setRed core k
          { c with
            on := true, asid := y.extractLsb' 0 16, cfg := v, epoch := y.extractLsb' 16 16, arrived := 0#16, bufs := [] })) ∧
        (x.toNat / 16 % 2 = 1 → x.toNat / 32 % 2 = 1 → c.on = true →
          c.arrived &&& v[4].setWidth 16 ≠ v[4].setWidth 16 → exec i s = passed (s.setRed core k
            { c with cfg := v, arrived := c.arrived &&& v[4].setWidth 16 })) ∧
        (x.toNat / 16 % 2 = 1 → x.toNat / 32 % 2 = 1 → c.on = true →
          c.arrived &&& v[4].setWidth 16 = v[4].setWidth 16 →
          let full := v[1].getLsbD 63 = true ∧ 8 ≤ outbound s core 3
          (full → exec i s = .next s) ∧
          (¬ full → exec i s = passed (redComplete (s.setRed core k
            { c with cfg := v, arrived := c.arrived &&& v[4].setWidth 16 }) core k)))))

/-- R447 to R450: a partial that reaches a core is work of its server, which slot 7's opportunities do before the thread's own:
it is dropped and counted, kept, or the last one, which completes the context; the sum goes to the parent, or is written as
the root's result with the epoch behind it. -/
def Stated.PartialSums : Prop :=
  ∀ (s : State) (p : Partial), p.core < 1024 → rowOf p.core < 14 → s.dieRetired (dieOf p.core) = false →
    (s.core p.core).health = .good → p.child < 16 →
    let x := s.red p.core p.ctx
    let child := x.cfg[4].setWidth 16
    let fits := x.on = true ∧ x.asid = p.asid ∧ p.epoch = x.epoch ∧ child.getLsbD p.child = true ∧ x.arrived.getLsbD p.child = false
    let y := { x with bufs := tabSet x.bufs p.child p.v, arrived := x.arrived ||| BitVec.ofNat 16 (2 ^ p.child) }
    let c := x.cfg[1].toNat / 2 ^ 41 % 2 ^ 11
    let parent : Partial :=
      { src := p.core, core := 256 * (c / 2 ^ 9) + 16 * (c / 2 ^ 5 % 16) + c % 2 ^ 5, asid := x.asid
        ctx := x.cfg[1].toNat / 2 ^ 37 % 16, child := x.cfg[1].toNat / 2 ^ 33 % 16, epoch := x.epoch, v := int64Sum y }
    let own := x.cfg[1].toNat / 2 ^ 52 % 2 ^ 10 = Config.ownModule
    let idle' := ∀ k e l, .rootResultWrite p.core k e l ∉ s.work
    let full := x.cfg[1].getLsbD 63 = true ∧ y.arrived = child ∧ 8 ≤ outbound s p.core 3
    (¬ fits → exec (.partialArrival p) s = .next (s.setRed p.core p.ctx { x with drops := min (x.drops + 1) 255 })) ∧
    (fits → y.arrived ≠ child → exec (.partialArrival p) s = .next (s.setRed p.core p.ctx y)) ∧
    (fits → y.arrived = child → ∃ u, exec (.partialArrival p) s = .next u ∧
      u.red p.core p.ctx = { y with epoch := x.epoch + 1#16, arrived := 0#16, bufs := [] } ∧
      (x.cfg[0].toNat / 2 ^ 4 % 16 = 8 → (∀ c < 16, child.getLsbD c = true → (tabGet [] y.bufs c).length = 6) →
        (x.cfg[1].getLsbD 63 = true → own → u.work = s.work ++ [.partialArrival parent]) ∧
        (x.cfg[1].getLsbD 63 = true → ¬ own → ∃ port, 4 ≤ port ∧ port ≤ 11 ∧ u.work = s.work ++ [.partialLeaves parent port]) ∧
        (x.cfg[1].getLsbD 63 = false → x.cfg[0].getLsbD 0 = false → u.work = s.work ∧ (u.core p.core).server =
          .rootResultWrite p.core p.ctx x.epoch (int64Sum y) :: (s.core p.core).server))) ∧
    (runEvent (.partialArrival p) s = .next (s.setCore p.core { s.core p.core with
      server := (s.core p.core).server ++ [.partialArrival p] })) ∧
    (∀ es, (s.core p.core).server = .partialArrival p :: es → ∀ k, coreOf k = p.core → slotOf k = 7 →
      turnOf s k = .serve ∧ (full → serverStep s p.core = .next s) ∧
        (idle' → ¬ full → serverStep s p.core = exec (.partialArrival p) (s.setCore p.core { s.core p.core with server := es }))) ∧
    (∀ m, exec (.moduleFailure m) s = .next (if m ∈ s.lostModules then s else { s with lostModules := s.lostModules ++ [m] }))

/-- R449: the root's result: six doublewords and then the epoch, one store in each step of the server, before any other work of
it; a page fault or a refusal of one drops those that remain and sets FAULT. v: the doublewords that remain. A store to another
die goes there as a request, and the server waits for it (R440). -/
def Stated.RootResult : Prop :=
  ∀ (s : State) (core k : Nat) (e : BitVec 16) (v : List Word), v.length ≤ 6 →
    let x := s.red core k
    let at' := resultPlace s core x.asid (x.cfg[2].toNat % 2 ^ 52 + 8 * (6 - v.length))
    let go := exec (.rootResultWrite core k e v) s
    (at' = none → go = .next (s.setRed core k { x with fault := true })) ∧
    (∀ q, at' = some q →
      (v = [] → go = .next { s with mem := writeWord s.mem q.cell (e.setWidth 64) }) ∧
      (∀ w ws, v = w :: ws → go = .next ({ s with mem := writeWord s.mem q.cell w }.setCore core { s.core core with
        server := .rootResultWrite core k e ws :: (s.core core).server }))) ∧
    (∀ es, (s.core core).server = .rootResultWrite core k e v :: es →
      (∀ k' e' l, .rootResultWrite core k' e' l ∉ s.work) →
      let rest := s.setCore core { s.core core with server := es }
      ((∀ q, at' = some q → hops core q.home = []) → serverStep s core = exec (.rootResultWrite core k e v) rest) ∧
      (∀ q, at' = some q → hops core q.home ≠ [] →
        serverStep s core = .next { rest with work := s.work ++ [.rootResultWrite core k e v] })) ∧
    ((∃ k' e' l, .rootResultWrite core k' e' l ∈ s.work) → serverStep s core = .next s)

/-- R437, R438: what a boundary does with a port whose groups are all usable, 1 to 7 of them outwards: with fewer than two turns in
the microsecond before it, a direction that has waited long gets four groups, and else the oldest request is taken, trimmed;
a turn counts at both ends, and the turning groups are silent for 6 ns. After two turns only a direction that holds no group and
has a class-0 flit waiting gets one. -/
def Stated.LaneTurns : Prop :=
  (∀ (s : State) (die p : Nat), p ≤ 2 → die < 4 →
    let x := s.port die p
    let far := farEnd die p
    let z := s.port far.1 far.2
    let before := (x.history.filter fun t => decide (t.toNat < s.time.toNat ∧ s.time.toNat < t.toNat + 1000)).length
    x.usable = 255#8 → z.usable = 255#8 → x.failing = 0#8 → s.time ∉ x.history → x.excl = false →
    ∃ u, exec (.linkTurnBoundary die p) s = .next u ∧
      let y := u.port die p
      let long := longWait s die p
      let longIn := longWait s far.1 far.2
      (y.out ≠ x.out → y.turns = x.turns + 1#16 ∧ y.tlast = s.time ∧ y.silent = true ∧ y.steady = min x.out y.out ∧
        (u.port far.1 far.2).out = 8 - y.out ∧ .turnSilenceEnd die p ∈ u.work) ∧
      (1 ≤ x.out → x.out ≤ 7 → before < 2 →
        (long → longIn → y.out = 4 ∧ y.queue = x.queue) ∧
        (long → ¬ longIn → y.out = max x.out 4 ∧ y.queue = x.queue) ∧
        (¬ long → longIn → y.out = min x.out 4 ∧ y.queue = x.queue) ∧
        (¬ long → ¬ longIn → x.queue = [] → y.out = x.out ∧ y.queue = []) ∧
        (¬ long → ¬ longIn → ∀ r rest, x.queue = r :: rest → y.queue = rest ∧ y.out = max 1 (min 7 r))) ∧
      (2 ≤ before → 1 ≤ x.out → x.out ≤ 7 → y = x) ∧
      (x.out = 0 → classWaits s die p 0 → y.out = 1 ∧ y.queue = x.queue) ∧
      (x.out = 8 → classWaits s far.1 far.2 0 → y.out = 7 ∧ y.queue = x.queue)) ∧
  (∀ (s : State) (die p : Nat), let x := s.port die p
    exec (.turnSilenceEnd die p) s = .next (if (s.time - x.tlast).toNat < 6 then
      { s with work := s.work ++ [.turnSilenceEnd die p] } else s.setPort die p { x with silent := false }) ∧
    (∀ up, 4 ≤ p → p ≤ 11 → exec (.portTrainingChange die p up) s = .next (s.setPort die p { x with up := up })))

/-- R434, R437, R440, R441, R443 to R445: flits, permits, returns, audits and the retirement of a block of permits, for ports 0 to 2
and the Barn's end of port 2; class 0 goes first. -/
def Stated.Permits : Prop :=
  (∀ (s : State) (die p : Nat), p ∈ [0, 1, 2, 12] → die < 4 →
    let x := s.port die p
    let far := farEnd die p
    let z := s.port far.1 far.2
    let again := fun (e : Event) => (.next { s with work := s.work ++ [e] } : Out)
    (∀ c < 5, ∀ bad, z.held.length = 5 → x.occ.length = 5 →
      let open' := wayClear s die p ∧ maySend z c
      (¬ open' → exec (.flitArrival die p c bad) s = again (.flitArrival die p c bad)) ∧
      (open' → ∃ u, exec (.flitArrival die p c bad) s = .next u ∧ (u.port far.1 far.2).held.getD c 0 = z.held.getD c 0 + 1 ∧
        (u.port far.1 far.2).flits = z.flits + 1 ∧
        (z.flits % 65536 = 65535 ↔ .auditFlitSend far.1 far.2 ∈ u.due.drop s.due.length) ∧
        (bad = 0#8 → (u.port die p).occ.getD c 0 = x.occ.getD c 0 + 1 ∧ u.work = s.work ++ [.returnFlitSend die p]) ∧
        (bad ≠ 0#8 → (u.port die p).replay = [c] ∧ (u.port die p).occ = x.occ ∧ u.work = s.work ++ [.flitReplay die p]))) ∧
    (∀ c cs, x.replay = c :: cs → c < 5 → x.occ.length = 5 → ∃ u, exec (.flitReplay die p) s = .next u ∧
      (u.port die p).replay = cs ∧ (u.port die p).occ.getD c 0 = x.occ.getD c 0 + 1 ∧ u.work = s.work ++ [.returnFlitSend die p]) ∧
    (x.ret.length = 5 → x.occ.length = 5 →
      let ret := (List.range 5).map fun c => x.ret.getD c 0#16 + BitVec.ofNat 16 (x.occ.getD c 0)
      let soon := ∃ t, x.returned = some t ∧ (s.time - t).toNat < 32
      ∃ u, exec (.returnFlitSend die p) s = .next u ∧ (u.port die p).ret = ret ∧ (u.port die p).occ = [0, 0, 0, 0, 0] ∧
        (x.retSent = ret → u.work = s.work) ∧
        (x.retSent ≠ ret → soon → u.work = s.work ++ [.returnFlitSend die p]) ∧
        (x.retSent ≠ ret → ¬ soon → (u.port die p).retSent = ret ∧ (u.port die p).returned = some s.time ∧
          ∃ good, u.work = s.work ++ [.returnFlitArrival far.1 far.2 good ret])) ∧
    (∀ ret, x.held.length = 5 → x.last.length = 5 → ret.length = 5 → ∃ u v,
      exec (.returnFlitArrival die p true ret) s = .next u ∧ (u.port die p).last = ret ∧
      (∀ c < 5, (u.port die p).held.getD c 0 = x.held.getD c 0 - (ret.getD c 0#16 - x.last.getD c 0#16).toNat) ∧
      exec (.returnFlitArrival die p false ret) s = .next v ∧ (v.port die p).dropret = x.dropret + 1#32 ∧
      (v.port die p).held = x.held) ∧
    exec (.auditFlitSend die p) s = again (.auditFlitArrival far.1 far.2 x.sent) ∧
    (∀ sent, x.occ.length = 5 → sent.length = 5 →
      let ret := (List.range 5).map fun c => sent.getD c 0#16 - BitVec.ofNat 16 (x.occ.getD c 0)
      (x.replay ≠ [] → exec (.auditFlitArrival die p sent) s = again (.auditFlitArrival die p sent)) ∧
      (x.replay = [] → ret = x.ret → exec (.auditFlitArrival die p sent) s = .next s) ∧
      (x.replay = [] → ret ≠ x.ret → ∃ u good, exec (.auditFlitArrival die p sent) s = .next u ∧
        u.port die p = { x with ret := ret, retSent := ret, repairs := x.repairs + 1#32, returned := some s.time } ∧
        u.work = s.work ++ [.returnFlitArrival far.1 far.2 good ret])) ∧
    (64 ≤ x.capacity →
      let min' := fun j => x.lpmin.toNat / 2 ^ (12 * j) % 2 ^ 11
      let rest := min' 1 + min' 2 + min' 3 + min' 4
      let cap := x.capacity - 64
      (cap < x.held.sum → exec (.permitBlockRetire die p) s = again (.permitBlockRetire die p)) ∧
      (x.held.sum ≤ cap → min' 0 + rest ≤ cap →
        exec (.permitBlockRetire die p) s = .next (s.setPort die p { x with capacity := cap })) ∧
      (x.held.sum ≤ cap → cap < min' 0 + rest → ∃ w, exec (.permitBlockRetire die p) s =
          .next ((s.setPort die p { x with capacity := cap, lpmin := w, ovc := true }).raised (.portOvc die p)) ∧
        w.toNat % 2 ^ 11 = min' 0 ∧
        ∀ j, 1 ≤ j → j ≤ 4 → w.toNat / 2 ^ (12 * j) % 2 ^ 11 = (cap - min' 0) * min' j / rest))) ∧
  (∀ (s : State) (e : Event) (h : Nat × Nat) (way : List (Nat × Nat)) (c n : Nat), (∀ x ∈ s.transit, x.event ≠ e) →
    (pass s e [] c n = .arrives s) ∧
    (0 < n → (¬ maySend (s.port h.1 h.2) c ∨
        (0 < c ∧ (∃ x, flitWaits s h.1 h.2 x ∧ x.cls = 0 ∧ streamHead s.work.length s.work x.event = x.event) ∧ maySend (s.port h.1 h.2) 0 ∧
          h.2 ∈ [0, 1, 2, 12] ∧ wayClear s (farEnd h.1 h.2).1 (farEnd h.1 h.2).2)) → h.2 ∈ [0, 1, 2, 12] →
      ∃ u, pass s e (h :: way) c n = .waits u ∧ u.dies = s.dies ∧ u.mem = s.mem ∧
        flitWaits u h.1 h.2 ⟨e, h :: way, c, n, 0, n, some s.time⟩))

/-! Kernels (14), groups and messages (15). -/

namespace Sys2Proof.Machine

/-- The refusedAs word of R316, R337 and R393. -/
def refusedAs (status : Nat) : Word := BitVec.ofNat 64 (2 ^ 63 + status)

/-- The state that a launch record enters when nothing holds it any more (R308). -/
def recordReleased (s : State) (x : KernelRec) : KernelRec :=
  if x.timed = true ∧ s.time.toNat < x.start.toNat then { x with state := .timedWait }
  else { x with
    state := .pending, entered := s.time, late := x.late || (x.timed && decide (x.start.toNat < s.time.toNat)) }

/-- The operands of launch (R316) on the issuing core. -/
def launchFits (s : State) (x y : Word) : Prop :=
  x.toNat / 2 ^ 52 = 0 ∧ x.toNat % 64 = 0 ∧ y.toNat / 2 ^ 20 = 0 ∧
    (1024 ≤ coreOf s.cur → y.toNat % 2 ^ 16 ≠ 0 ∧ y.getLsbD 18 = true)

/-- A record that a launch has allocated (R316): its words are w0 … w7, its kernel e, its slot held old. -/
def allocated (old : KernelRec) (asid : BitVec 16) (e : KernelEntry) (ea : Nat) (w : List Word) (start : Option Word)
    (detach : Bool) : KernelRec :=
  { KernelRec.reset with
    gen := old.gen + 1#8, used := true, asid := asid, kernel := e, record := ea
    args := [w.getD 3 0#64, w.getD 4 0#64, w.getD 5 0#64, w.getD 6 0#64]
    timed := start.isSome || (w.getD 0 0#64).getLsbD 32, start := start.getD (w.getD 1 0#64), detach := detach }

/-- The step of a launch at the pool (R316): the state u and the result v. A record whose home refuses the read is NOREC (R492; log
39, DESIGN CHOICE). -/
def launched (s : State) (x y : Word) (start : Option Word) (u : State) (v : Word) : Prop :=
  let own := (s.thr s.cur).asid
  let asid := if y.toNat % 2 ^ 16 = 0 then own else y.extractLsb' 0 16
  let die := if y.getLsbD 18 = true then y.toNat / 2 ^ 16 % 4 else dieOf (coreOf s.cur)
  let refused := fun n => u = s ∧ v = refusedAs n
  let mayName := (coreOf s.cur < 1024 → asid = own) ∧ guestOwns s s.cur asid = true
  let free := fun ix => ix < 256 ∧ (s.record die ix).used = false
  (¬ mayName → refused 3) ∧
  (mayName → (∀ ix, ¬ free ix) → refused 1) ∧
  (mayName → (∃ ix, free ix) →
    (boundRecord s asid x.toNat = none ∨ unitPlace s (256 * die) asid x.toNat kindLOAD false = none → refused 2) ∧
    (∀ bound p, boundRecord s asid x.toNat = some bound → unitPlace s (256 * die) asid x.toNat kindLOAD false = some p →
      homeRefusal s p.home p.mode asid true p.cell p.cell ≠ none → refused 2) ∧
    (∀ bound p, boundRecord s asid x.toNat = some bound → unitPlace s (256 * die) asid x.toNat kindLOAD false = some p →
      homeRefusal s p.home p.mode asid true p.cell p.cell = none →
      let w := (List.range 8).map fun i => readWord s.mem (p.cell + 8 * i)
      let word0 := w.getD 0 0#64
      (bound.kernels[word0.toNat % 2 ^ 32]? = none → refused 2) ∧
      (∀ e, bound.kernels[word0.toNat % 2 ^ 32]? = some e →
        let place := s.dieRetired die = false ∧ ∃ n ∈ kernelNodes e, nodeInPartition s asid die n = true
        (¬ place → refused 4) ∧
        (place → word0.getLsbD 33 = true → promiseCell s (w.getD 2 0#64) asid = none → refused 5) ∧
        (place → (word0.getLsbD 33 = true → promiseCell s (w.getD 2 0#64) asid ≠ none) → ∃ ix, free ix ∧
          let r := allocated (s.record die ix) asid e x.toNat w start (y.getLsbD 19)
          u = s.setRecord die ix (if word0.getLsbD 33 = true then
            { r with state := .awaiting, await := promiseCell s (w.getD 2 0#64) asid } else recordReleased s r) ∧
          v = fieldsWord [(die, 16), (r.gen.toNat, 8), (ix, 0)]))))

/-- A record's fields in the kstat word of R317. -/
def recordFields (x : KernelRec) : Word :=
  let code := match x.state with
    | .pending => 0 | .timedWait => 1 | .awaiting => 2 | .placing => 3 | .running => 4 | .draining => 5 | .done => 6
    | .faulted => 7
  match x.node with
  | none => fieldsWord [(code, 60), (x.cause, 56), (x.late.toNat, 55), (x.bereaved.toNat, 54), (x.live % 2 ^ 16, 16)]
  | some n => fieldsWord [(code, 60), (x.cause, 56), (x.late.toNat, 55), (x.bereaved.toNat, 54), (n.2, 40), (n.1, 32),
      (x.live % 2 ^ 16, 16), (x.group.toNat, 0)]

/-- The kstat word of R317 of the record that handle h names, for a thread of context asid, or for a system core. -/
def recordWord (s : State) (h : Nat) (asid : Option (BitVec 16)) : Word :=
  let x := s.record (h / 2 ^ 16 % 4) (h % 256)
  let stale := x.used = false ∨ x.gen.toNat ≠ h / 2 ^ 8 % 256 ∨ ∃ a, asid = some a ∧ a ≠ x.asid
  if stale then fieldsWord [(15, 60)] else recordFields x

/-- A record that has reached DONE or FAULTED: a DETACH kernel's is freed at once (R314). -/
def recordOver (s : State) (x : KernelRec) : KernelRec := if x.detach then { x with used := false, freed := some s.time } else x

/-- The context whose records a thread reads. -/
def ownContext (s : State) (k : Nat) : Option (BitVec 16) := if 1024 ≤ coreOf k then none else some (s.thr k).asid

/-- An E instruction has issued: its window waits for its event, and keeps the operands x and y. -/
def waitsFor (s : State) (i : Instr) (d : Reg) (lk : BitVec 4) (holds : Bool) (x y : Word) : Out :=
  .next (retireTo { s with nonce := s.nonce + 1, work := s.work ++ [.longLatencyResultArrival s.cur s.nonce] } s.cur
    ((s.thr s.cur).pc + 4#64)
    [{ id := s.nonce, dest := d, count := lk.toNat, event := true, holds := holds, word := encode i,
       pc := (s.thr s.cur).pc, a := x, b := y, mismatch := false, retry := false, arrival := .pending }])

end Sys2Proof.Machine

/-- R316: launch and tlaunch. -/
def Stated.LaunchResults : Prop :=
  ∀ (s : State) (d a b : Reg) (lk : BitVec 4),
    let x := readReg s s.cur a
    let y := readReg s s.cur b
    let bad := if x.toNat / 2 ^ 52 ≠ 0 ∨ x.toNat % 64 ≠ 0 then x else y
    ∀ row ∈ [(Instr.launch d a b lk, 0x00#6, (none : Option Word)), (.tlaunch d a b lk, 0x01#6, some (readReg s s.cur d))],
      codedL row.1 0x6E#7 row.2.1 lk ∧ (ready row.1 s = true →
        (¬ launchFits s x y → exec row.1 s = trapped s kindADDRESS 0 bad) ∧
        (launchFits s x y → accessesDone s s.cur = false → exec row.1 s = .next s) ∧
        (launchFits s x y → accessesDone s s.cur = true → ∃ u v, exec row.1 s = opened u row.1 d lk v ∧
          launched s x y row.2.2 u v))

/-- R71, R72, R74: a bind answers with one status; one that fails leaves everything but the report as it was, and one that
is BOUND enters the sheaf behind those that are bound. An unbind is BUSY while a kernel of the sheaf is under way, a thread of the
context, in a slot or saved, holds a PC in its code, or another bind uses a symbol of it; else the sheaf is gone (the status 0 of that
answer, and that an unbind which names no bind reports nothing, are log 39, DESIGN CHOICE). -/
def Stated.BindsAnswer : Prop :=
  ∀ (s : State) (asid : BitVec 16),
    let reports := fun (n : Nat) => ({ s with bindReport := some (asid, n) } : State)
    (∀ f bases area stores, ∃ u, ∃ n ≤ 7, runEvent (.bindRequest asid f bases area stores) s = .next u ∧
      u.bindReport = some (asid, n) ∧ (n ≠ 0 → u = reports n) ∧ (sheafOk f = false → n = 1) ∧
      (n = 0 → ∃ b, u.bound = s.bound ++ [b] ∧ b.asid = asid ∧ b.records.length = (entries f 7 64).length ∧
        b.kernels.length = (entries f 6 32).length ∧ ∀ j < b.records.length, b.records[j]? = some (area + 64 * j))) ∧
    (∀ id, (∀ b ∈ s.bound, ¬ (b.asid = asid ∧ b.id = id)) → runEvent (.unbindRequest asid id) s = .next s) ∧
    (∀ pre b post, s.bound = pre ++ b :: post → b.asid = asid → (∀ x ∈ pre, ¬ (x.asid = asid ∧ x.id = b.id)) →
      let e := Event.unbindRequest asid b.id
      let code := fun (a : Nat) => ∃ x ∈ b.sections, x.1 = 1 ∧ x.2.1 ≤ a ∧ a < x.2.1 + x.2.2
      let runs := ∃ die < 4, ∃ x ∈ (s.die die).pool, x.2.used = true ∧ x.2.asid = asid ∧ x.2.record ∈ b.records ∧
        x.2.state ≠ .done ∧ x.2.state ≠ .faulted
      let holds := ∃ x ∈ s.threads, x.2.sstate ≠ .empty ∧ x.2.sstate ≠ .ended ∧ x.2.asid = asid ∧
        (code x.2.pc.toNat ∨ (x.2.uin = true ∧ code x.2.upc.toNat) ∨
          ((x.2.sstate = .trapped ∨ x.2.sstate = .pagewait) ∧ code x.2.epc.toNat))
      let word := fun (cell off : Nat) => readWord s.mem (cell + off)
      let saved := ∃ x ∈ savedRecords s asid, code (word x.2.2 8).toNat ∨
        ((word x.2.2 0).toNat / 2 ^ 58 % 8 = 2 ∧ code (word x.2.2 0xA8).toNat) ∨
        ((word x.2.2 0x68).getLsbD 8 = true ∧ code (word x.2.2 0x70).toNat)
      let used := ∃ y ∈ s.bound, b.id ∈ y.uses
      (runs ∨ holds ∨ saved ∨ used → runEvent e s = .next (reports 8)) ∧
      (¬ runs → ¬ holds → ¬ saved → ¬ used → ∃ u, runEvent e s = .next u ∧ u.bindReport = some (asid, 0) ∧
        u.bound = s.bound.filter fun y => y.id ≠ b.id))

/-- R317, R318: kstat reads the record at once; kwait waits, and holds back the accesses behind it. -/
def Stated.KernelWords : Prop :=
  ∀ (s : State) (d a : Reg) (lk : BitVec 4),
    let x := readReg s s.cur a
    let stat := Instr.kstat d a
    let wait := Instr.kwait d a lk
    codedR stat 0x6E#7 0x03#6 ∧ codedL wait 0x6E#7 0x02#6 lk ∧
    (ready stat s = true → exec stat s = if 2 ^ 18 ≤ x.toNat then trapped s kindADDRESS 0 x
      else wrote s d (recordWord s x.toNat (ownContext s s.cur))) ∧
    (ready wait s = true → exec wait s = if 2 ^ 18 ≤ x.toNat then trapped s kindADDRESS 0 x
      else waitsFor s wait d lk true x 0#64)

/-- R308, R312, R313, R492: how records leave AWAITING-PROMISE and TIMED-WAIT; a word whose home refuses the read releases nothing. -/
def Stated.RecordsReleased : Prop :=
  ∀ (s : State) (die ix : Nat),
    let x := s.record die ix
    let go := fun e y => exec e s = .next (s.setRecord die ix y)
    (x.used = true → x.state = .timedWait → x.start.toNat ≤ s.time.toNat →
      go (.kernelTimedStart die ix) { x with state := .pending, entered := s.time }) ∧
    ((x.used = false ∨ x.state ≠ .timedWait ∨ s.time.toNat < x.start.toNat) →
      exec (.kernelTimedStart die ix) s = .next s) ∧
    (∀ cell, x.used = true → x.state = .awaiting → x.await = some cell → promiseServed s x cell = false →
      exec (.kernelPromiseRelease die ix) s = .next s) ∧
    (∀ cell, x.used = true → x.state = .awaiting → x.await = some cell → promiseServed s x cell = true →
      let p := (readWord s.mem cell).toNat / 2 ^ 61
      (p = 1 → go (.kernelPromiseRelease die ix) (recordReleased s x)) ∧
      (p = 2 → go (.kernelPromiseRelease die ix) { recordReleased s x with bereaved := true }) ∧
      (p = 3 → go (.kernelPromiseRelease die ix) (recordOver s { x with state := .faulted, cause := 2 })) ∧
      (p = 0 ∨ 4 ≤ p → exec (.kernelPromiseRelease die ix) s = .next s)) ∧
    ((x.used = false ∨ x.state ≠ .awaiting ∨ x.await = none) → exec (.kernelPromiseRelease die ix) s = .next s)

/-- R309, R310, R311: a PENDING kernel takes the node that qualifies in its cluster with the lowest first quad, the token
cluster first; the group is created with the first core of the node as its home. -/
def Stated.Placement : Prop :=
  ∀ (s : State) (die ix : Nat), die < 4 →
    let x := s.record die ix
    let k := x.kernel
    let cores := fun (n : Nat × Nat) => (List.range 256).map (256 * die + ·) |>.filter fun c =>
      rowOf c < 14 ∧ colOf c < 16 ∧ n.1 ≤ quadOf c ∧ quadOf c < n.1 + 2 ^ n.2
    let fits := fun (n : Nat × Nat) => (∀ c ∈ cores n, (inPartition s x.asid c = true ∧ (s.core c).health = .good ∧
        (s.core c).ctxAsid = x.asid ∧ ((s.core c).residence = .loaded ∨ (s.core c).residence = .running)) ∧
        k.slots ≤ ((List.range 7).filter (slotOpen s c)).length) ∧
      ∀ y ∈ (s.die die).pool, y.2.holds = true → ∀ m, y.2.node = some m → n.1 + 2 ^ n.2 ≤ m.1 ∨ m.1 + 2 ^ m.2 ≤ n.1
    let group := fun gi => tabGet Group.reset (s.die die).groups gi
    let full := ∀ gi < 1024, (group gi).state ≠ .free
    x.used = true → x.state = .pending →
    (full ∨ (∀ n ∈ kernelNodes k, ¬ fits n) → exec (.kernelPlacement die ix) s = .next s) ∧
    (∀ pre n post gi, kernelNodes k = pre ++ n :: post → (∀ m ∈ pre, ¬ fits m) → fits n → gi < 1024 →
      (group gi).state = .free → (∀ j < gi, (group j).state ≠ .free) →
      let g := fieldsWord [(die, 14), ((group gi).gen.toNat, 10), (gi, 0)] |>.setWidth 16
      let home := (cores n).headD 0
      let u := s.setGroup g { Group.reset with
        state := .active, gen := (group gi).gen, used := true, asid := x.asid, whole := k.whole, live := k.threads
        home := home, kernel := some ix }
      let late := x.late || (x.timed && decide (x.start.toNat < s.time.toNat))
      let create := s.time + 256#64 +
        BitVec.ofNat 64 ((10 * (((k.images.map fun im => im.2.2.length).sum + 63) / 64) + 20) / 21)
      let u := u.setRecord die ix { x with
        state := .placing, node := some n, group := g, late := late, create := create, live := k.threads }
      let u := { u with mem := (cores n).foldl (fun m c => k.images.foldl (fun m im =>
        writeList m (bufferCell c im.1 im.2.1) im.2.2) m) u.mem }
      let quiet := (cores n).foldl (fun u c => u.setCore c { u.core c with quiet := true }) u
      exec (.kernelPlacement die ix) s =
        .next (declareAll die x.asid g home (if k.quiet = true then quiet else u) k.estate))

/-- R310, R311: the threads of a placed kernel, once its creation edge has come: thread t starts in the next EMPTY slot of
the core at its place, as the table gives. A held kill is then applied (R308). -/
def Stated.ThreadsCreated : Prop :=
  ∀ (s : State) (die ix : Nat) (n : Nat × Nat),
    let x := s.record die ix
    let k := x.kernel
    let cores := nodeCores die n
    x.used = true → x.state = .placing → x.node = some n → die < 4 →
    (s.time.toNat < x.create.toNat → exec (.kernelThreadCreate die ix) s = .next s) ∧
    (x.create.toNat ≤ s.time.toNat → 1 ≤ k.slots → k.threads ≤ k.slots * cores.length →
      (∀ c ∈ cores, hostsResidence s x.asid c = true ∧ k.slots ≤ ((List.range 7).filter (slotOpen s c)).length) →
      ∃ u, exec (.kernelThreadCreate die ix) s = .next
          (if x.killHeld = true ∧ u.groupHeld x.group = true ∧ (u.group x.group).state = .active then
            killGroup u x.group else u) ∧
        u.record die ix = { x with state := .running, killHeld := false } ∧ u.mem = s.mem ∧ u.work = s.work ∧
        (∀ t < k.threads,
          let c := cores.getD (t / k.slots) 0
          let key := 8 * c + ((List.range 7).filter (slotOpen s c)).getD (t % k.slots) 0
          let arg := fun (i : Nat) => x.args.getD i 0#64
          u.thr key = { Thread.empty with
            sstate := .run, gen := (s.thr key).gen + 1#8, pinned := k.pinned, asid := x.asid, group := x.group
            tnum := BitVec.ofNat 16 t, pc := k.entry, fresh := true
            p := #v[arg 0, arg 1, arg 2, arg 3, 0#64, 0#64, 0#64, 0#64,
              BitVec.ofNat 64 (bufferCell c 1 (524288 - t % k.slots * k.frame) - 2 ^ 53), 0#64] } ∧
          (u.core c).residence = .running))

/-- R314, R321, R323: the end of a DRAINING group, at a shared-clock edge: it waits for its accesses, its conveyance and its
packets; then its entry is free with GEN + 1, and its kernel is DONE, or FAULTED by a kill. -/
def Stated.GroupEnds : Prop :=
  ∀ (s : State) (g : BitVec 16),
    let x := s.group g
    let die := g.toNat / 2 ^ 14
    let e := Instr.kernelDrainEnd die g
    ((s.groupHeld g = false ∨ x.state ≠ .draining) → exec e s = .next s) ∧
    (s.groupHeld g = true → x.state = .draining →
      (x.done = false ∨ groupQuiet s g = false → exec e s = .next s) ∧
      (x.done = true → groupQuiet s g = true → ∃ u, exec e s = .next u ∧
        (u.group g).state = .free ∧ (u.group g).gen = x.gen + 1#4 ∧ u.mem = s.mem ∧
        (∀ ix, x.kernel = some ix → (s.record die ix).used = true → (s.record die ix).group = g →
          (s.record die ix).state = .draining → u.record die ix = recordOver s { s.record die ix with
            state := (if x.killed = true then .faulted else .done) }) ∧
        (x.letters = [] → ∀ k, u.thr k = s.thr k))) ∧
    ((∀ y ∈ (s.die die).groups, y.2.acts = []) → g ∈ dieGroups s die → x.state = .draining → x.done = true →
      groupQuiet s g = true → .kernelDrainEnd die g ∈ (groupsEdge s die).due)

/-- R322 to R324, R333: what an ACTIVE group takes at a shared-clock edge, the losses before the exits: LIVE falls, a loss
counts in LOST and is told to the home core; with its last thread the group drains, and a WHOLE group with any loss. -/
def Stated.GroupTakes : Prop :=
  ∀ (s : State) (g : BitVec 16),
    let x := s.group g
    let y := { x with acts := [], live := x.live - 1 }
    let u := groupEdge s g
    s.groupHeld g = true → x.state = .active → x.kernel = none →
    (x.acts = [] → u.group g = x ∧ u.work = s.work) ∧
    (x.acts = [.exit] → u.mem = s.mem ∧ (∀ k, u.thr k = s.thr k) ∧
      (1 < x.live → u.group g = y ∧ u.work = s.work) ∧
      (x.live ≤ 1 → u.group g = { y with state := .draining, killed := false } ∧ u.work = s.work ++ [.conveyanceStart g])) ∧
    (∀ n cause, x.acts = [.loss n cause] → u.mem = s.mem ∧
      (x.whole = false → 1 < x.live → u.group g = { y with lost := x.lost + 1 } ∧ u.work = s.work) ∧
      (x.whole = false → x.live ≤ 1 → u.group g = { y with lost := x.lost + 1, state := .draining, killed := false } ∧
        u.work = s.work ++ [.conveyanceStart g]) ∧
      (x.whole = true → u.group g = { y with state := .draining, killed := true }) ∧
      (x.home < 1024 → (s.core x.home).hevq.length < 32 → (u.core x.home).hevq = (s.core x.home).hevq ++
        [fieldsWord [(3, 60), ((s.core x.home).hevLost.toNat, 59), (x.whole.toNat, 35), (cause, 32), (n.toNat, 16),
          (g.toNat, 0)]])) ∧
    (∀ n cause, x.acts = [.exit, .loss n cause] → u = groupEdge (s.setGroup g { x with acts := [.loss n cause, .exit] }) g)

namespace Sys2Proof.Machine

/-- The operands of spawn (R337). -/
def spawnFits (x y : Word) : Prop :=
  let f := fun lo n => y.toNat / 2 ^ lo % 2 ^ n
  x.toNat / 2 ^ 52 = 0 ∧ x.toNat % 4 = 0 ∧ f 27 37 = 0 ∧ f 22 2 = 0 ∧ f 11 1 = 0 ∧ f 6 2 = 0 ∧ 1 ≤ f 8 3 ∧ f 8 3 ≤ 3

/-- The cores of the SCOPE unit around a core (R9), from it on in ascending order, wrapping. -/
def scopeFrom (core scope : Nat) : List Nat :=
  ((List.range 256).map fun i => dieOf core * 256 + (core + i) % 256).filter fun c =>
    rowOf c < 14 ∧ colOf c < 16 ∧ (scope = 1 → c = core) ∧ (scope = 2 → quadOf c = quadOf core)

/-- The keys of n threads dealt in turn over the cores (R337): in round r each core with an (r + 1)-th EMPTY slot takes
one. -/
def dealt (s : State) (cores : List Nat) (n : Nat) : List Nat :=
  let slots := cores.map fun c => ((List.range 7).filter (slotOpen s c)).map (8 * c + ·)
  ((List.range 7).flatMap fun r => slots.filterMap fun l => l[r]?).take n

end Sys2Proof.Machine

/-- R337: spawn. -/
def Stated.SpawnResults : Prop :=
  ∀ (s : State) (d a b : Reg) (lk : BitVec 4),
    let x := readReg s s.cur a
    let y := readReg s s.cur b
    let i := Instr.spawn d a b lk
    let f := fun lo n => y.toNat / 2 ^ lo % 2 ^ n
    let core := coreOf s.cur
    let die := dieOf core
    let t := s.thr s.cur
    let n := f 0 6 + 1
    let cand := (scopeFrom core (f 8 3)).filter fun c => (s.core c).health = .good ∧ (s.core c).ctxAsid = t.asid ∧
      ((s.core c).residence = .loaded ∨ (s.core c).residence = .running)
    let keys := dealt s cand n
    let group := fun gi => tabGet Group.reset (s.die die).groups gi
    codedL i 0x6E#7 0x08#6 lk ∧ (ready i s = true →
      (¬ spawnFits x y → exec i s = trapped s kindADDRESS 0 (if x.toNat / 2 ^ 52 ≠ 0 ∨ x.toNat % 4 ≠ 0 then x else y)) ∧
      (spawnFits x y → accessesDone s s.cur = false → exec i s = .next s) ∧
      (spawnFits x y → accessesDone s s.cur = true →
        (1024 ≤ core → exec i s = opened s i d lk (refusedAs 3)) ∧
        (core < 1024 → rowOf core < 14 → keys.length < n → exec i s = opened s i d lk (refusedAs 2)) ∧
        (core < 1024 → rowOf core < 14 → keys.length = n → (∀ gi < 1024, (group gi).state ≠ .free) →
          exec i s = opened s i d lk (refusedAs 1)) ∧
        (∀ gi < 1024, core < 1024 → rowOf core < 14 → keys.length = n → (group gi).state = .free →
          (∀ j < gi, (group j).state ≠ .free) →
          let g := (fieldsWord [(die, 14), ((group gi).gen.toNat, 10), (gi, 0)]).setWidth 16
          ∃ u, exec i s = opened u i d lk (g.setWidth 64) ∧
            u.group g = { Group.reset with
              state := .active, gen := (group gi).gen, used := true, asid := t.asid, whole := y.getLsbD 24
              msgirq := y.getLsbD 26, live := n, home := core } ∧
            u.mem = s.mem ∧ u.work = s.work ∧ (∀ k ∉ keys, u.thr k = s.thr k) ∧
            (∀ j < n, let k := keys.getD j 0
              (u.core (coreOf k)).residence = .running ∧ u.thr k = { Thread.empty with
                sstate := .run, gen := (s.thr k).gen + 1#8, pinned := y.getLsbD 25, asid := t.asid, group := g
                tnum := BitVec.ofNat 16 j, pc := x, fresh := true
                p := #v[BitVec.ofNat 64 j, t.p[1], t.p[2], t.p[3], 0#64, 0#64, 0#64, 0#64,
                  BitVec.ofNat 64 (bufferCell (coreOf k) 1 (524288 - 64 * f 12 10 * slotOf k) - 2 ^ 53), 0#64] }))))

/-- R338, R323: exit ends the thread: an ACTIVE group takes it at its next edge, of a DRAINING one LIVE falls; the slot vacates
later. -/
def Stated.ExitEnds : Prop :=
  ∀ (s : State), ready .exit s = true →
    let k := s.cur
    let t := s.thr k
    let x := s.group t.group
    let member := coreOf k < 1024 ∧ k % 8 < 7 ∧ s.groupHeld t.group = true
    let work := (dropWaiters s k).work ++ [.slotVacate k]
    codedR .exit 0x6E#7 0x09#6 ∧ ∃ u, exec .exit s = .next u ∧
      u.thr k = { t with
        sstate := .ended, windows := [], frozen := [], held := [], posted := [], sleep := none, killed := false } ∧
      (∀ j, j ≠ k → u.thr j = s.thr j) ∧ u.mem = s.mem ∧ u.work = work ∧
      (member → x.state = .active → u.group t.group = { x with acts := x.acts ++ [.exit] }) ∧
      (member → x.state ≠ .active → u.group t.group = { x with live := x.live - 1 }) ∧
      ((∀ r, .meadowApply r ∈ s.work → r.key ≠ k) → (dropWaiters s k).work = s.work)

namespace Sys2Proof.Machine

/-- The limits of R327 on a name word. -/
def nameFits (n : Nat) : Bool :=
  let row := n / 2 ^ 16 % 16
  decide (row ≠ 14 ∧ n / 2 ^ 11 % 32 ≤ 15 ∧ (row = 15 → n / 2 ^ 20 % 4 = 0 ∧ n / 2 ^ 8 % 8 = 0 ∧ n % 256 = 0))

/-- The context of a group instruction's field (R327, R339): a device thread writes 0, a system core the ASID. -/
def fieldContext (s : State) (f : Nat) : Option (BitVec 16) :=
  if 1024 ≤ coreOf s.cur then (if f = 0 then none else some (BitVec.ofNat 16 f))
  else if f = 0 then some (s.thr s.cur).asid else none

end Sys2Proof.Machine

/-- R339, R340: kill asks the home core, or the named thread's; gstat reads the group. -/
def Stated.GroupResults : Prop :=
  ∀ (s : State) (d a b : Reg),
    let x := readReg s s.cur a
    let y := readReg s s.cur b
    let t := s.thr s.cur
    let kill := Instr.kill d a b
    let stat := Instr.gstat d a
    codedR kill 0x6E#7 0x0A#6 ∧ codedR stat 0x6E#7 0x0D#6 ∧
    (ready kill s = true → exec kill s =
      match fieldContext s (y.toNat / 2 ^ 16 % 2 ^ 16) with
      | none => trapped s kindADDRESS 0 y
      | some asid =>
        if y.toNat / 2 % 2 ^ 15 ≠ 0 ∨ 2 ^ 32 ≤ y.toNat then trapped s kindADDRESS 0 y
        else if y.toNat % 2 = 0 then
          (if 2 ^ 16 ≤ x.toNat then trapped s kindADDRESS 0 x
           else asked s d (.groupKillArrival s.cur d asid (x.setWidth 16)))
        else if 2 ^ 22 ≤ x.toNat ∨ nameFits x.toNat = false then trapped s kindADDRESS 0 x
        else asked s d (.killThreadArrival s.cur d asid (x.setWidth 22))) ∧
    (ready stat s = true →
      let bad := 1024 ≤ coreOf s.cur ∨ x.toNat / 16 % 16 ≠ 0 ∨ 2 ^ 10 ≤ x.toNat ∨ 2 ≤ x.toNat % 16
      let g := s.group t.group
      let set := x.getLsbD 8 = true ∧ s.groupHeld t.group = true
      let u := if set then s.setGroup t.group { g with msgirq := x.getLsbD 9 } else s
      let msgirq := if set then x.getLsbD 9 else g.msgirq
      (bad → exec stat s = trapped s kindADDRESS 0 x) ∧
      (¬ bad → x.toNat % 16 = 0 → exec stat s = wrote u d
        (fieldsWord [(t.group.toNat, 48), (t.tnum.toNat, 32), ((nameWord s.cur t.gen).toNat, 0)])) ∧
      (¬ bad → x.toNat % 16 = 1 → exec stat s = wrote u d
        (fieldsWord [(if g.state = .draining then 1 else 0, 60), (g.whole.toNat, 59), (msgirq.toNat, 58), (g.dlovf.toNat, 57),
          (g.letters.length, 48), (g.lost % 2 ^ 16, 32), (g.live % 2 ^ 16, 16), (t.group.toNat, 0)])))

/-- R325 to R327: send. On a compute core the payload is read at issue over the here path, behind the thread's earlier accesses
to those bytes over that path, with the banks of R134; a system core sends six loads of a lin page, and the entry leaves once
they have been performed. -/
def Stated.SendResults : Prop :=
  ∀ (s : State) (a b : Reg),
    let x := readReg s s.cur a
    let y := readReg s s.cur b
    let i := Instr.send a b
    let f := fun lo n => x.toNat / 2 ^ lo % 2 ^ n
    let core := coreOf s.cur
    let t := s.thr s.cur
    let user := core < 1024 ∧ s.cur % 8 < 7
    let fits := f 48 16 = 0 ∧ f 27 5 = 0 ∧ f 22 2 = 0 ∧ f 24 3 ≤ 2 ∧
      ¬ (f 24 3 = 0 ∧ user ∧ (s.core core).ctxClass ≠ 0#2) ∧ nameFits (f 0 22) = true
    let asid := fieldContext s (f 32 16)
    let off := y.toNat % 2 ^ 20
    let place := y.toNat / 2 ^ 20 = 1 ∧ off % 16 = 0 ∧ off + 48 ≤ 524288
    let entry := fun (u : State) (as : BitVec 16) (payload : List Word) => ({
      src := core, asid := as
      w0 := fieldsWord [((u.thr s.cur).tnum.toNat, 48), ((u.thr s.cur).group.toNat, 32), (f 24 3, 24),
        ((nameWord s.cur (u.thr s.cur).gen).toNat, 0)]
      w1 := fieldsWord [(u.time.toNat % 2 ^ 32, 32), (f 0 22, 0)], payload := payload, seq := 0 } : Msg)
    codedR i 0x6E#7 0x0B#6 ∧ (ready i s = true →
      (¬ fits ∨ asid = none → exec i s = trapped s kindADDRESS 0 x) ∧
      (∀ as, fits → asid = some as → core < 1024 →
        (¬ place → exec i s = trapped s kindADDRESS 0 y) ∧
        (place → 8 ≤ outbound s core (f 24 3) → exec i s = .next s) ∧
        (place → outbound s core (f 24 3) < 8 →
          let settled := settleHere s s.cur (bufferCell core 1 off) 48
          hereSettles s (bufferCell core 1 off) 48 ∧ (settled = none → exec i s = .next s) ∧
          ∀ u, settled = some u → exec i s = passed { u with work := u.work ++ [.messageArrival (entry u as
            ((List.range 6).map fun j => readWord u.mem (bufferCell core 1 off + 8 * j)))] })) ∧
      (∀ as, fits → asid = some as → 1024 ≤ core →
        (2 ^ 51 ≤ y.toNat ∨ y.toNat % 8 ≠ 0 → exec i s = trapped s kindADDRESS 0 y) ∧
        (y.toNat < 2 ^ 51 → y.toNat % 8 = 0 → 8 ≤ outbound s core (f 24 3) → exec i s = .next s) ∧
        (∀ ps : Nat → Place, y.toNat < 2 ^ 51 → y.toNat % 8 = 0 → outbound s core (f 24 3) < 8 →
          (∀ j < 6, translated s core t.asid (y.toNat + 8 * j) kindLOAD (some false) = .at (ps j)) →
          let loads := (List.range 6).map fun j => ({
            key := s.cur, aid := s.nonce, wid := none, op := .load false, cell := (ps j).cell, size := 8, home := (ps j).home
            port := (ps j).port, ea := y + BitVec.ofNat 64 (8 * j), mode := (ps j).mode, data := 0#64, cmp := 0#64
            asid := t.asid, group := t.group, tnum := t.tnum, jent := none } : Request)
          (takeEntries s loads = none → exec i s = .next s) ∧
          (∀ u rs, takeEntries s loads = some (u, rs) →
            exec i s = passed { u with work := u.work ++ [.payloadRead (entry s as []) rs] })))) ∧
    (∀ (m : Msg) (rs : List Request), (∀ r ∈ rs, refusal s r = none ∧ r.jent = none) →
      runEvent (.payloadRead m rs) s = .next { s with work := .messageArrival { m with
        payload := rs.map fun r => readWord s.mem r.cell } :: s.work })

/-- R334: recv on a compute core: its window waits for an entry of a selected class, or a letter. -/
def Stated.RecvWaits : Prop :=
  ∀ (s : State) (d a b : Reg) (lk : BitVec 4),
    let x := readReg s s.cur a
    let y := readReg s s.cur b
    let i := Instr.recv d a b lk
    let core := coreOf s.cur
    let mask := x.toNat < 64 ∧ x.toNat / 8 % 4 = 0 ∧ x.toNat ≠ 0
    let place := y.toNat / 2 ^ 20 = 1 ∧ y.toNat % 64 = 0 ∧ y.toNat % 2 ^ 20 + 64 ≤ 524288
    codedL i 0x6E#7 0x0C#6 lk ∧ (ready i s = true → (¬ mask → exec i s = trapped s kindADDRESS 0 x) ∧
      (mask → core < 1024 → exec i s = if place then waitsFor s i d lk false x y else trapped s kindADDRESS 0 y) ∧
      (mask → 1024 ≤ core → 32 ≤ x.toNat → exec i s = trapped s kindADDRESS 0 x) ∧
      (mask → 1024 ≤ core → x.toNat < 32 → (2 ^ 51 ≤ y.toNat ∨ y.toNat % 8 ≠ 0) → exec i s = trapped s kindADDRESS 0 y) ∧
      (x.toNat < 8 → x.toNat ≠ 0 → 1024 ≤ core → y.toNat < 2 ^ 51 → y.toNat % 8 = 0 →
        (∀ j < 8, ∃ p, translated s core (s.thr s.cur).asid (y.toNat + 8 * j) kindSTORE (some false) = .at p) →
        exec i s = waitsFor s i d lk false x y))

/-- R318, R334, R148: the event of a kwait frees the record that it returns as DONE or FAULTED, which a second kwait that returns at
the same edge still reads; the event of a recv takes the
oldest entry of the lowest selected class that addresses the thread, and stores its eight doublewords: they are outstanding
at once, and issue one after the other, each behind the thread's earlier non-relaxed accesses. -/
def Stated.KwaitRecvEvents : Prop :=
  ∀ (k : Nat) (w : Window) (d a b : Reg) (lk : BitVec 4) (s : State), (s.thr k).windows = [w] → (s.thr k).held = [] →
    (s.thr k).frozen = [] → w.arrival = .pending → w.count = 0 →
    let again := exec (.longLatencyResultArrival k w.id) s = .next { s with work := s.work ++ [.longLatencyResultArrival k w.id] }
    (w.word = encode (.kwait d a lk) →
      let h := w.a.toNat
      let x := s.record (h / 2 ^ 16 % 4) (h % 256)
      let other := x.gen.toNat ≠ h / 2 ^ 8 % 256 ∨ ∃ a, ownContext s k = some a ∧ a ≠ x.asid
      let gone := x.used = false ∨ other
      let v := if other ∨ (x.used = false ∧ x.freed ≠ some s.time) then fieldsWord [(15, 60)] else recordFields x
      let ended := x.state = .done ∨ x.state = .faulted
      (¬ gone → ¬ ended → again) ∧
      (gone ∨ ended → ∃ u, exec (.longLatencyResultArrival k w.id) s = .next u ∧ (u.thr k).windows = [] ∧
        (regOk w.dest = true → w.dest ≠ 10#5 →
          readReg u k w.dest = if remains true s k w.dest then v else readReg s k w.dest) ∧
        (gone → u.record (h / 2 ^ 16 % 4) (h % 256) = x) ∧
        (¬ gone → u.record (h / 2 ^ 16 % 4) (h % 256) = { x with used := false, freed := some s.time }))) ∧
    (w.word = encode (.recv d a b lk) → coreOf k < 1024 →
      let mine := fun (m : Msg) => m.w1.toNat % 2 ^ 22 = (nameWord k (s.thr k).gen).toNat
      let g := (s.thr k).group
      let letters := w.a.getLsbD 5 = true ∧ s.groupHeld g = true
      let takes := fun (u : State) (m : Msg) => (u.thr k).windows = [] ∧
        (regOk w.dest = true → w.dest ≠ 10#5 →
          readReg u k w.dest = if remains true s k w.dest then m.w0 else readReg s k w.dest) ∧
        (u.thr k).outst = (s.thr k).outst ++ (List.range 8).map (fun i => ⟨s.nonce + i, false, true, none⟩) ∧
        (m.payload.length = 6 → u.work = s.work ++ [.storeIssue ((List.range 8).map fun i =>
          { key := k, aid := s.nonce + i, wid := none, op := .store
            cell := bufferCell (coreOf k) 1 (w.b.toNat % 2 ^ 20) + 8 * i, size := 8, home := coreOf k, port := false
            ea := BitVec.ofNat 64 (w.b.toNat % 2 ^ 52 + 8 * i), mode := 3#2, data := (m.w0 :: m.w1 :: m.payload).getD i 0#64
            cmp := 0#64, asid := (s.thr k).asid, group := g, tnum := (s.thr k).tnum, jent := none })])
      ((∀ c < 3, w.a.getLsbD c = true → ∀ m ∈ inboxOf (s.core (coreOf k)) c, ¬ mine m) →
        (¬ letters ∨ (s.group g).letters = []) → again) ∧
      (∀ c < 3, ∀ pre m post, w.a.getLsbD c = true →
        (∀ j < c, w.a.getLsbD j = true → ∀ m ∈ inboxOf (s.core (coreOf k)) j, ¬ mine m) →
        inboxOf (s.core (coreOf k)) c = pre ++ m :: post → (∀ x ∈ pre, ¬ mine x) → mine m →
        ∃ u, exec (.longLatencyResultArrival k w.id) s = .next u ∧ takes u m ∧
          inboxOf (u.core (coreOf k)) c = pre ++ post) ∧
      (∀ m ms, (∀ c < 3, w.a.getLsbD c = true → ∀ m ∈ inboxOf (s.core (coreOf k)) c, ¬ mine m) → letters →
        (s.group g).letters = m :: ms →
        ∃ u, exec (.longLatencyResultArrival k w.id) s = .next u ∧ takes u m ∧ (u.group g).letters = ms)) ∧
    (∀ r rs, r.home = coreOf r.key →
      let first := ((s.thr r.key).outst.filter fun o => !o.relaxed).head?.map Outstanding.aid
      (first ≠ some r.aid → runEvent (.storeIssue (r :: rs)) s = .next { s with work := .storeIssue (r :: rs) :: s.work }) ∧
      (first = some r.aid → runEvent (.storeIssue (r :: rs)) s = .next { s with
        work := .remoteRequestArrival r :: ((if rs = [] then [] else [.storeIssue rs]) ++ s.work) }))

namespace Sys2Proof.Machine

/-- The answer v of a step to the thread in slot key that waits for it: its instruction has issued. -/
def told (s : State) (key : Nat) (d : Reg) (v : Nat) : State :=
  retire (writeReg (s.setThr key { s.thr key with hold := .none }) key d (BitVec.ofNat 64 v)) key

/-- The user slots that hold a live thread of a group. -/
def liveIn (s : State) (g : BitVec 16) (k : Nat) : Prop :=
  ∃ t, (k, t) ∈ s.threads ∧ coreOf k < 1024 ∧ k % 8 < 7 ∧ t.group = g ∧ t.sstate ≠ .empty ∧ t.sstate ≠ .ended

/-- A thread that could not issue now, and meets its ending at once (R323): it sleeps, is parked or waits. -/
def endsAtOnce (s : State) (k : Nat) : Prop :=
  (s.core (coreOf k)).residence = .running ∧ inFlight s k = false ∧
    ((s.thr k).sstate ≠ .run ∨ asleep s k = true ∨ (s.thr k).hold ≠ .none)

/-- What a kill does to the thread in slot k (R323): it is marked; one that sleeps or is parked ends at once. -/
def markedIn (s u : State) (k : Nat) : Prop :=
  u.thr k = { s.thr k with killed := true } ∧ (endsAtOnce s k → .threadEnd k ∈ u.due)

end Sys2Proof.Machine

/-- R323, R324, R339: the arrival of a kill: of a group, of one thread. -/
def Stated.KillsArrive : Prop :=
  ∀ (s : State) (key : Nat) (d : Reg) (asid : BitVec 16), (s.thr key).hold = .answer d →
    (∀ g : BitVec 16,
      let x := s.group g
      let e := Instr.groupKillArrival key d asid g
      let stale := s.groupHeld g = false ∨ x.asid ≠ asid ∨ guestOwns s key asid = false
      let u := told s key d 0
      (stale → exec e s = .next (told s key d 1)) ∧
      (¬ stale → x.state = .draining → exec e s = .next (told s key d 2)) ∧
      (∀ ix, ¬ stale → x.state ≠ .draining → x.kernel = some ix → (s.record (g.toNat / 2 ^ 14) ix).state = .placing →
        (s.record (g.toNat / 2 ^ 14) ix).used = true → (s.record (g.toNat / 2 ^ 14) ix).group = g → exec e s = .next (u.setRecord (g.toNat / 2 ^ 14) ix
          { s.record (g.toNat / 2 ^ 14) ix with killHeld := true })) ∧
      (¬ stale → x.state ≠ .draining →
        (∀ ix, x.kernel = some ix → ¬ ((s.record (g.toNat / 2 ^ 14) ix).used = true ∧ (s.record (g.toNat / 2 ^ 14) ix).group = g ∧
          (s.record (g.toNat / 2 ^ 14) ix).state = .placing)) →
        ∃ v, exec e s = .next v ∧ v.group g = { x with state := .draining, killed := true } ∧ v.mem = s.mem ∧
          (∀ ix, x.kernel = some ix → (s.record (g.toNat / 2 ^ 14) ix).used = true →
            (s.record (g.toNat / 2 ^ 14) ix).group = g → (s.record (g.toNat / 2 ^ 14) ix).state = .running →
            v.record (g.toNat / 2 ^ 14) ix = { s.record (g.toNat / 2 ^ 14) ix with state := .draining, cause := 1 }) ∧
          (∀ k, liveIn u g k → markedIn u v k))) ∧
    (∀ name : BitVec 22,
      let n := name.toNat
      let k := 8 * (n / 2 ^ 20 * 256 + n / 2 ^ 16 % 16 * 16 + n / 2 ^ 11 % 32) + n / 2 ^ 8 % 8
      let t := s.thr k
      let e := Instr.killThreadArrival key d asid name
      let fits := n / 2 ^ 16 % 16 < 14 ∧ n / 2 ^ 8 % 8 < 7 ∧ t.sstate ≠ .empty ∧ t.gen = BitVec.ofNat 8 n ∧ t.asid = asid ∧
        guestOwns s key asid = true ∧ s.dieRetired (n / 2 ^ 20) = false
      n / 2 ^ 11 % 32 ≤ 15 →
      (¬ fits → n / 2 ^ 16 % 16 ≠ 14 → exec e s = .next (told s key d 1)) ∧
      (fits → t.sstate = .ended → exec e s = .next (told s key d 2)) ∧
      (fits → t.sstate ≠ .ended →
        let u := told s key d 0
        ∃ v, exec e s = .next v ∧ v.mem = u.mem ∧ v.group t.group = s.group t.group ∧
          v.thr k = { u.thr k with
            killed := true, lossCause := if (u.thr k).killed then (u.thr k).lossCause else 3 } ∧
          (endsAtOnce u k → .threadEnd k ∈ v.due)))

/-- R323, R324, R338: the end of a thread under a kill or a loss: its windows, its engine work and its waiting lrws are gone, an
ACTIVE group takes its end at the next edge, of a DRAINING one LIVE falls, and the slot vacates later. -/
def Stated.ThreadsEnd : Prop :=
  ∀ (s : State) (k : Nat),
    let t := s.thr k
    (t.sstate = .empty ∨ t.sstate = .ended → exec (.threadEnd k) s = .next s) ∧
    (t.sstate ≠ .empty → t.sstate ≠ .ended → ∃ u, exec (.threadEnd k) s = .next u ∧
      (u.thr k).sstate = .ended ∧ (u.thr k).windows = [] ∧ (u.thr k).frozen = [] ∧ (u.thr k).held = [] ∧
      (u.thr k).hold = .none ∧ (u.thr k).p = t.p ∧ (∀ j, j ≠ k → (u.thr j).p = (s.thr j).p) ∧
      .slotVacate k ∈ u.work ∧
      (∀ o ∈ (u.core (coreOf k)).vecQueue, o.key = k → o.done = true) ∧
      (∀ o ∈ (u.core (coreOf k)).copies, o.key = k → o.done = true) ∧
      (∀ o ∈ (u.core (coreOf k)).matQueue, o.key = k → o.started = true) ∧
      (coreOf k < 1024 → k % 8 < 7 → s.groupHeld t.group = true →
        let x := s.group t.group
        let y := u.group t.group
        y = { x with
          cancelled := y.cancelled
          acts := if x.state = .active then
            x.acts ++ [if t.lossCause = 0 then .exit else .loss t.tnum t.lossCause] else x.acts
          live := if x.state = .active then x.live else x.live - 1 }))

/-- R329, R338, R460: a slot vacates once the thread's accesses and engine operations are over and its PARKED bit is
clear; the entries that address it go back as stale, the oldest first. -/
def Stated.SlotsVacate : Prop :=
  ∀ (s : State) (k : Nat),
    let t := s.thr k
    let parked := coreOf k < 1024 ∧ k % 8 < 7 ∧ (s.core (coreOf k)).parked.getLsbD (k % 8) = true
    let again := exec (.slotVacate k) s = .next { s with work := s.work ++ [.slotVacate k] }
    (t.sstate ≠ .ended → exec (.slotVacate k) s = .next s) ∧
    (t.sstate = .ended → (drained s k = false ∨ parked) → again) ∧
    (t.sstate = .ended → drained s k = true → ¬ parked → coreOf k < 1024 → k % 8 < 7 → ∃ u,
      exec (.slotVacate k) s = .next u ∧ u.thr k = { Thread.empty with gen := t.gen } ∧
      (∀ j, j ≠ k → u.thr j = s.thr j) ∧ u.mem = s.mem ∧
      (∀ cls < 3, let l := inboxOf (s.core (coreOf k)) cls
        let mine := fun (m : Msg) => m.w1.toNat % 2 ^ 22 = (nameWord k t.gen).toNat
        inboxOf (u.core (coreOf k)) cls = l.filter (fun m => ¬ mine m) ∧
        ∀ m ∈ l, mine m → .staleResponse m ∈ u.work) ∧
      (∃ l : List Msg, u.work = s.work ++ l.map Event.staleResponse ∧ l.Pairwise fun m m' => m.seq ≤ m'.seq) ∧
      ((s.core (coreOf k)).residence = .running →
        (∀ j < 7, 8 * coreOf k + j ≠ k → (s.thr (8 * coreOf k + j)).sstate = .empty) →
        (u.core (coreOf k)).residence = .loaded))

/-- R328, R330, R365, R297: where an arriving entry goes; a full inbox turns it back, for 64 ck; a diverted one enters the saved
inbox. -/
def Stated.EntriesArrive : Prop :=
  ∀ (s : State) (m : Msg),
    let n := m.w1.toNat % 2 ^ 22
    let system := n / 2 ^ 16 % 16 = 15
    let core := if system then 1024 + n / 2 ^ 11 % 16 else n / 2 ^ 20 * 256 + n / 2 ^ 16 % 16 * 16 + n / 2 ^ 11 % 32
    let cls := m.w0.toNat / 2 ^ 24 % 8
    let c := s.core core
    let k := 8 * core + n / 2 ^ 8 % 8
    let t := s.thr k
    let fits := n / 2 ^ 16 % 16 < 14 ∧ n / 2 ^ 11 % 32 ≤ 15 ∧ n / 2 ^ 8 % 8 < 7 ∧
      (t.sstate = .run ∨ t.sstate = .trapped ∨ t.sstate = .pagewait) ∧ t.gen = BitVec.ofNat 8 n ∧ t.asid = m.asid ∧
      c.health = .good ∧ s.dieRetired (n / 2 ^ 20) = false
    let entered := { c with inbox := tabSet c.inbox cls (inboxOf c cls ++ [{ m with seq := s.nonce }]) }
    let back := { s with work := .inboxResend m (if m.seq = 0 then s.ck + 64 else s.ck) :: s.work }
    let behind := m.seq = 0 ∧ s.work.any (savedBehind core cls) = true
    ∀ e ∈ [Instr.messageArrival m, .inboxResend m],
      (system → 64 ≤ (inboxOf c cls).length → exec e s = .next back) ∧
      (system → (inboxOf c cls).length < 64 → ∃ v, exec e s = .next v ∧ v.core core = entered ∧ v.mem = s.mem) ∧
      (fits → (behind ∨ ¬ admitted c cls 1) → exec e s = .next back) ∧
      (fits → ¬ behind → admitted c cls 1 → ∃ v, exec e s = .next v ∧ v.core core = entered ∧ v.mem = s.mem ∧
        (∀ j, j ≠ k → v.thr j = s.thr j) ∧ (v.thr k).latch.getLsbD 3 = true ∧
        (s.groupHeld t.group = true → (s.group t.group).msgirq = true →
          (v.thr k).uip = t.uip ||| 4#3 ∧ (v.thr k).argMsg = BitVec.ofNat 64 cls) ∧
        ((s.groupHeld t.group = false ∨ (s.group t.group).msgirq = false) → (v.thr k).uip = t.uip)) ∧
      (n / 2 ^ 16 % 16 < 14 → n / 2 ^ 11 % 32 ≤ 15 → ¬ fits →
        (∀ x ∈ c.diverts.toList, x.valid = true → x.asid ≠ m.asid) →
        exec e s = .next { s with work := s.work ++ [.staleResponse m] }) ∧
      (∀ i : Fin 8, n / 2 ^ 16 % 16 < 14 → n / 2 ^ 11 % 32 ≤ 15 → ¬ fits → c.diverts[i].valid = true → c.diverts[i].asid = m.asid →
        (∀ j : Fin 8, j < i → c.diverts[j].valid = true → c.diverts[j].asid ≠ m.asid) →
        exec e s = .next ((appendSaved s core (c.diverts[i].addr.toNat * 2 ^ 16) m).getD back))

/-- R332, R333: the dead letter at the sending core: to its group while the entry holds it, whose live threads learn of it, dropped
at a full queue; the letter of a system core, and the letter without an heir, are dropped and counted. -/
def Stated.DeadLetters : Prop :=
  ∀ (s : State) (m : Msg),
    let g := m.w0.extractLsb' 32 16
    let x := s.group g
    let letter := { m with w0 := m.w0 ||| BitVec.ofNat 64 (2 ^ 27) }
    let count := fun (u : State) (die : Nat) => u.setDie die { u.die die with dlcnt := (u.die die).dlcnt + 1#32 }
    let e := Instr.staleResponse m
    (1024 ≤ m.src → exec e s = .next (count s 0)) ∧
    (m.src < 1024 → s.groupHeld g = true → 8 ≤ x.letters.length →
      exec e s = .next (count (s.setGroup g { x with dlovf := true }) (dieOf m.src))) ∧
    (m.src < 1024 → s.groupHeld g = true → x.letters.length < 8 → ∃ u, exec e s = .next u ∧
      u.group g = { x with letters := x.letters ++ [letter] } ∧ (savedThreads s g x.asid = [] → u.mem = s.mem) ∧
      (∀ k, liveIn s g k → (u.thr k).latch.getLsbD 3 = true) ∧ (∀ k, ¬ liveIn s g k → u.thr k = s.thr k)) ∧
    (m.src < 1024 → s.groupHeld g = false → (s.groupLast g = true → x.dheir = none) → ∃ u, exec e s = .next u ∧
      (u.die (dieOf m.src)).dlcnt = (s.die (dieOf m.src)).dlcnt + 1#32 ∧
      ((s.core m.src).hevq.length < 32 → (u.core m.src).hevq = (s.core m.src).hevq ++
        [fieldsWord [(2, 60), ((s.core m.src).hevLost.toNat, 59), (m.w0.toNat / 2 ^ 24 % 8, 38),
          (m.w1.toNat % 2 ^ 22, 16), (g.toNat, 0)]]))

/-! Estates, heirs and conveyance (18). -/

namespace Sys2Proof.Machine

/-- The die of a group number (R321). -/
def dieOfGroup (g : BitVec 16) : Nat := g.toNat / 2 ^ 14

/-- A valid entry of a die's table has the key in the context (R376). -/
def registered (s : State) (die : Nat) (key : Word) (asid : BitVec 16) : Prop :=
  ∃ x ∈ (s.die die).estate, x.2.kind ≠ 0 ∧ x.2.key = key ∧ x.2.asid = asid

/-- A registration (R393): the state u and the result v, for an entry of the context asid and group g at place p. -/
def registers (s : State) (kind : Nat) (key : Word) (asid g : BitVec 16) (p : Option Place) (u : State) (v : Word) : Prop :=
  let die := dieOfGroup g
  (registered s die key asid → u = s ∧ v = refusedAs 2) ∧
  (¬ registered s die key asid → (∀ ix < 8192, (s.holding die ix).kind ≠ 0) → u = s ∧ v = refusedAs 1) ∧
  (∀ ix < 8192, ¬ registered s die key asid → (s.holding die ix).kind = 0 → (∀ j < ix, (s.holding die j).kind ≠ 0) →
    v = fieldsWord [(die, 13), (ix, 0)] ∧
    let x : Holding := { kind := kind, key := key, asid := asid, holder := g, heir := none, bereaved := false, seq := s.nonce
                         cell := (p.map Place.cell).getD 0, home := (p.map Place.home).getD 0 }
    u = { s.setHolding die ix x with nonce := s.nonce + 1 })

/-- The entry that a handle names (R376). -/
def holdingNamed (s : State) (x : Word) : Holding := s.holding (x.toNat / 2 ^ 13 % 4) (x.toNat % 2 ^ 13)

/-- The entry is valid, of the thread's context and held by its group. -/
def heldBy (s : State) (x : Holding) : Prop :=
  x.kind ≠ 0 ∧ x.asid = (s.thr s.cur).asid ∧ x.holder = (s.thr s.cur).group

/-- STATE of a promise word (R378). -/
def promiseAt (s : State) (cell : Nat) : Nat := (readWord s.mem cell).toNat / 2 ^ 61

/-- The handle words of R377: the coordinates of a barrier are 0 where R347 requires it. -/
def handleFits (w : Word) : Prop :=
  let f := fun lo n => w.toNat / 2 ^ lo % 2 ^ n
  (f 60 4 = 1 ∧ f 18 42 = 0 ∧ f 3 13 = 0) ∨ (f 60 4 = 2 ∧ f 22 38 = 0 ∧ f 4 7 = 0) ∨
    (f 60 4 = 3 ∧ f 22 38 = 0 ∧ f 6 2 = 0 ∧ barrierZeroes w = true) ∨ (f 60 4 = 4 ∧ f 52 8 = 0)

/-- The key of a word. -/
def keyOf (x : Word) : Word := BitVec.ofNat 64 (x.toNat % 2 ^ 52)

/-- What the check of a lock or promise word answers where it does not pass (R393, R140): an R-format access of 8 bytes,
translated as a STORE; a word in a buffer, and for a promise one in an ilv page, is no such word. TVAL is the operand. -/
def wordStops (s : State) (i : Instr) (x : Word) (lin : Bool) : Prop :=
  let r := reachPlain s s.cur x 8 kindSTORE (encode i)
  (¬ tagFits x ∨ x.toNat % 8 ≠ 0 → exec i s = trapped s kindADDRESS 0 x) ∧
  (∀ kind dt v, r = .trap kind dt v → exec i s = trapped s kind dt (if kind = kindILLEGAL then v else x)) ∧
  (∀ reason, r = .page reason → exec i s = .next (pageFault s s.cur (keyOf x) reason kindSTORE)) ∧
  (r = .miss → exec i s = .next (startWalk s s.cur (keyOf x) kindSTORE)) ∧
  (∀ p, r = .at p → (2 ≤ p.mode.toNat ∨ (lin = true ∧ p.mode ≠ 0#2)) → exec i s = trapped s kindADDRESS 0 x)

/-- The check passes, with the word at place p. -/
def wordPlaced (s : State) (i : Instr) (x : Word) (lin : Bool) (p : Place) : Prop :=
  reachPlain s s.cur x 8 kindSTORE (encode i) = .at p ∧ p.mode.toNat < 2 ∧ (lin = true → p.mode = 0#2)

/-- The journal of thread k's core with a refused access to a doubleword in its free entry e (R158 to R161): kind 1 a load, 0
a store. -/
def refusedAt (s : State) (k : Nat) (ea : Word) (mode : BitVec 2) (kind : Nat) (cause : BitVec 4) (e : Nat) : State :=
  let c := s.core (coreOf k)
  let x : JournalEntry :=
    { busy := true, ref := true, kind := kind, cause := cause, mode := mode, size := 3, ea := ea, data := 0#64, eng := 0#3,
      slot := slotOf k, gen := (s.thr k).gen, time := s.time }
  (s.setCore (coreOf k) { c with journal := tabSet c.journal e x }).raised (.jref (coreOf k) e)

/-- The lowest free entry of a core's journal. -/
def freeAt (s : State) (core e : Nat) : Prop :=
  e < 64 ∧ (journalAt (s.core core) e).busy = false ∧ ∀ f < e, (journalAt (s.core core) f).busy = true

/-- What an instruction whose access its word's home refuses comes to: it is met again while the journal is full, and else goes
on with the entry. -/
def refuses (s : State) (i : Instr) (ea : Word) (mode : BitVec 2) (kind : Nat) (cause : BitVec 4)
    (go : State → Nat → Out) : Prop :=
  ((∀ e < 64, (journalAt (s.core (coreOf s.cur)) e).busy = true) → exec i s = .next s) ∧
  ∀ e, freeAt s (coreOf s.cur) e → exec i s = go (refusedAt s s.cur ea mode kind cause e) e

/-- A long-latency instruction with lookahead count lk whose window the refusal in entry e closes (R160). -/
def openedRefused (i : Instr) (d : Reg) (lk : BitVec 4) (s : State) (e : Nat) : Out :=
  .next (retireTo { s with nonce := s.nonce + 1, work := s.work ++ [.longLatencyResultArrival s.cur s.nonce] } s.cur
    ((s.thr s.cur).pc + 4#64)
    [{ id := s.nonce, dest := d, count := lk.toNat, event := false, holds := false, word := encode i,
       pc := (s.thr s.cur).pc, a := 0#64, b := 0#64, mismatch := false, retry := false, arrival := .later (.refused e) }])

/-- Over one path the n bytes at a cell hold what the thread's earlier accesses to them left (R142, R149): with none of those under
way, the state as it is; else what settleOver says, and none where one of them cannot be performed yet. -/
def pathSettles (port : Bool) (s : State) (cell n : Nat) : Prop :=
  (∀ r, (.remoteRequestArrival r ∈ s.work ∨ ∃ rs, .storeIssue rs ∈ s.work ∧ r ∈ rs) → r.key = s.cur → r.port = port →
    r.cell / 8 < cell / 8 ∨ (cell + n - 1) / 8 < r.cell / 8) → settleOver port s s.cur cell n = some s

end Sys2Proof.Machine

/-- R393, R396: hold and promise. A promise word's write comes behind the thread's earlier accesses to it over its path (R149);
where its home refuses the word no entry is made (log 37, DESIGN CHOICE). -/
def Stated.EstateRegisters : Prop :=
  ∀ (s : State) (d a b : Reg) (lk : BitVec 4),
    let x := readReg s s.cur a
    let y := readReg s s.cur b
    let t := s.thr s.cur
    let i := Instr.hold d a b lk
    let e := Instr.promise d a lk
    let key := BitVec.ofNat 64 (x.toNat % 2 ^ 52)
    let system := 1024 ≤ coreOf s.cur
    codedL i 0x5A#7 0x00#6 lk ∧ codedL e 0x5A#7 0x03#6 lk ∧
    (ready i s = true →
      (system ∨ (y ≠ 1#64 ∧ y ≠ 2#64) → exec i s = trapped s kindADDRESS 0 x) ∧
      (¬ system → y = 1#64 → wordStops s i x false) ∧
      (∀ p, ¬ system → y = 1#64 → wordPlaced s i x false p → ∃ u v, exec i s = opened u i d lk v ∧
        registers s 1 key t.asid t.group (some p) u v) ∧
      (¬ system → y = 2#64 → handleFits x → (handleOwned s t.asid x = false → exec i s = opened s i d lk (refusedAs 3)) ∧
        (handleOwned s t.asid x = true → ∃ u v, exec i s = opened u i d lk v ∧
          registers s 2 x t.asid t.group none u v)) ∧
      (¬ system → y = 2#64 → ¬ handleFits x → exec i s = trapped s kindADDRESS 0 x)) ∧
    (ready e s = true →
      (system → exec e s = trapped s kindADDRESS 0 x) ∧ (¬ system → wordStops s e x true) ∧
      (∀ p, ¬ system → wordPlaced s e x true p →
        (∀ cause, homeRefusal s p.home p.mode t.asid false p.cell p.cell = some cause →
          refuses s e key p.mode 0 cause (openedRefused e d lk)) ∧
        (homeRefusal s p.home p.mode t.asid false p.cell p.cell = none →
          let settled := settleOver p.port s s.cur p.cell 8
          pathSettles p.port s p.cell 8 ∧ (settled = none → exec e s = .next s) ∧
          ∀ z, settled = some z → ∃ u v w, exec e s = opened w e d lk v ∧
            registers z 3 key t.asid t.group (some p) u v ∧ (v.getLsbD 63 = true → w = u) ∧
            (v.getLsbD 63 = false → w = { u with mem := writeWord u.mem p.cell 0#64 }))))

/-- R394, R395, R379: unhold and heir. -/
def Stated.EstateChanges : Prop :=
  ∀ (s : State) (d a b : Reg) (lk : BitVec 4),
    let x := readReg s s.cur a
    let y := readReg s s.cur b
    let t := s.thr s.cur
    let i := Instr.unhold d a lk
    let e := Instr.heir d a b lk
    let h := holdingNamed s x
    let die := x.toNat / 2 ^ 13 % 4
    let ix := x.toNat % 2 ^ 13
    let system := 1024 ≤ coreOf s.cur
    let answer := fun (i : Instr) (u : State) (n : Nat) => exec i s = opened u i d lk (BitVec.ofNat 64 n)
    codedL i 0x5A#7 0x01#6 lk ∧ codedL e 0x5A#7 0x02#6 lk ∧
    (ready i s = true →
      let fits := ¬ system ∧ x.toNat < 2 ^ 15
      let isOpen := h.kind = 3 ∧ promiseAt s h.cell = 0
      (¬ fits → exec i s = trapped s kindADDRESS 0 x) ∧
      (fits → ¬ heldBy s h → answer i s 1) ∧
      (fits → heldBy s h → isOpen → answer i s 2) ∧
      (fits → heldBy s h → ¬ isOpen → answer i (s.setHolding die ix Holding.reset) 0)) ∧
    (ready e s = true →
      let g := y.setWidth 16
      let whole := x = BitVec.ofNat 64 (2 ^ 63)
      let heirv := y.toNat / 2 ^ 16 % 2 = 1
      let fits := ¬ system ∧ (whole ∨ x.toNat < 2 ^ 15) ∧ y.toNat < 2 ^ 17 ∧ (heirv ∨ y = 0#64)
      let mine := (whole ∧ s.groupHeld t.group = true ∧ (s.group t.group).asid = t.asid) ∨ (¬ whole ∧ heldBy s h)
      let known := s.groupHeld g = true ∧ (s.group g).asid = t.asid ∧ (s.group g).state = .active
      let named := if heirv then some g else none
      (¬ fits → exec e s = trapped s kindADDRESS 0 x) ∧
      (fits → ¬ mine → answer e s 1) ∧
      (fits → mine → heirv → ¬ known → answer e s 2) ∧
      (fits → mine → heirv → known → g = t.group → answer e s 3) ∧
      (fits → mine → (heirv → known ∧ g ≠ t.group) →
        (whole → answer e (s.setGroup t.group { s.group t.group with dheir := named }) 0) ∧
        (¬ whole → answer e (s.setHolding die ix { h with heir := named }) 0)))

/-- R397, R378, R160: fulfil waits for the thread's accesses; the word is FULFILLED with VALUE, and the entry is free. A home
that refuses the word gives a POSTED trap, and d stays (log 37, DESIGN CHOICE). -/
def Stated.PromiseKept : Prop :=
  ∀ (s : State) (d a b : Reg),
    let x := readReg s s.cur a
    let y := readReg s s.cur b
    let t := s.thr s.cur
    let i := Instr.fulfil d a b
    let mine := fun (z : Nat × Holding) => z.2.kind = 3 ∧ z.2.key.toNat = x.toNat % 2 ^ 52 ∧ z.2.asid = t.asid ∧
      z.2.holder = t.group
    codedR i 0x5A#7 0x04#6 ∧ (ready i s = true →
      (2 ^ 48 ≤ y.toNat → exec i s = trapped s kindADDRESS 0 x) ∧ (y.toNat < 2 ^ 48 → wordStops s i x true) ∧
      (∀ p, y.toNat < 2 ^ 48 → wordPlaced s i x true p →
        let keeps := promiseAt s p.cell = 0 ∨ promiseAt s p.cell = 2
        let refused := homeRefusal s p.home p.mode t.asid true p.cell p.cell
        (accessesDone s s.cur = false → exec i s = .next s) ∧
        (∀ cause, accessesDone s s.cur = true → refused = some cause → refuses s i (keyOf x) p.mode 0 cause fun u e =>
          passed (u.setThr s.cur { u.thr s.cur with posted := (u.thr s.cur).posted ++ [(e, keyOf x)] })) ∧
        (accessesDone s s.cur = true → refused = none → (1024 ≤ coreOf s.cur ∨ (∀ die < 4, ∀ z ∈ (s.die die).estate, ¬ mine z) ∨ ¬ keeps) →
          exec i s = wrote s d 1#64) ∧
        (∀ die < 4, ∀ pre ix h post, accessesDone s s.cur = true → refused = none → coreOf s.cur < 1024 → keeps →
          (∀ j < die, ∀ z ∈ (s.die j).estate, ¬ mine z) → (s.die die).estate = pre ++ (ix, h) :: post →
          (∀ z ∈ pre, ¬ mine z) → mine (ix, h) →
          exec i s = wrote ({ s with mem := writeWord s.mem p.cell (BitVec.ofNat 64 (2 ^ 61 + y.toNat)) }.setHolding die ix
            Holding.reset) d 0#64)))

/-- R398, R160: await waits at its word, in a page or in a buffer; after any step of the machine the word that is resolved, or no
promise, wakes it, and a home that refuses accesses closes its window with the refusal. -/
def Stated.PromiseAwaited : Prop :=
  (∀ (s : State) (d a : Reg) (lk : BitVec 4) (p : Place),
    let x := readReg s s.cur a
    let i := Instr.await d a lk
    let key := BitVec.ofNat 64 (x.toNat % 2 ^ 52)
    let r := reachPlain s s.cur x 8 kindLOAD (encode i)
    let refused := homeRefusal s p.home p.mode (s.thr s.cur).asid true p.cell p.cell
    codedL i 0x5A#7 0x05#6 lk ∧ (ready i s = true →
      (2 ^ 52 ≤ x.toNat ∨ x.toNat % 8 ≠ 0 → exec i s = trapped s kindADDRESS 0 x) ∧
      (x.toNat < 2 ^ 52 →
        (∀ kind dt v, r = .trap kind dt v → exec i s = trapped s kind dt x) ∧
        (∀ reason, r = .page reason → exec i s = .next (pageFault s s.cur key reason kindLOAD)) ∧
        (r = .miss → exec i s = .next (startWalk s s.cur key kindLOAD))) ∧
      (∀ cause, x.toNat < 2 ^ 52 → r = .at p → refused = some cause → refuses s i key p.mode 1 cause (openedRefused i d lk)) ∧
      (x.toNat < 2 ^ 52 → r = .at p → refused = none →
        exec i s = .next (retireTo { s with
            nonce := s.nonce + 1
            awaiters := s.awaiters ++ [⟨s.cur, s.nonce, p.cell, p.home, key, (s.thr s.cur).asid⟩] } s.cur ((s.thr s.cur).pc + 4#64)
          [{ id := s.nonce, dest := d, count := lk.toNat, event := true, holds := true, word := encode i,
             pc := (s.thr s.cur).pc, a := x, b := 0#64, mismatch := false, retry := false,
             arrival := .pending }])))) ∧
  (∀ (s : State) (x : Awaiter) (cause : BitVec 4), s.awaiters = [x] →
    homeRefusal s x.home 0#2 x.asid true x.cell x.cell = some cause →
    ((∀ e < 64, (journalAt (s.core (coreOf x.key)) e).busy = true) → wakeAwaits s = s) ∧
    ∀ e, freeAt s (coreOf x.key) e → wakeAwaits s =
      { arrive (refusedAt s x.key x.ea 0#2 1 cause e) x.key x.wid (.refused e) with awaiters := [] }) ∧
  (∀ (s : State) (x : Awaiter), s.awaiters = [x] → homeRefusal s x.home 0#2 x.asid true x.cell x.cell = none →
    let v := readWord s.mem x.cell
    let known := ∃ die < 4, ∃ z ∈ (s.die die).estate, z.2.kind = 3 ∧ z.2.key = x.ea ∧ z.2.asid = x.asid
    (promiseAt s x.cell ≠ 0 → wakeAwaits s = { arrive s x.key x.wid (.one v) with awaiters := [] }) ∧
    (promiseAt s x.cell = 0 → ¬ known →
      wakeAwaits s = { arrive s x.key x.wid (.one 0x6000000000000000#64) with awaiters := [] }) ∧
    (promiseAt s x.cell = 0 → known → wakeAwaits s = s))

/-- R399: estq. -/
def Stated.EstateQueries : Prop :=
  ∀ (s : State) (d a b : Reg) (lk : BitVec 4),
    let x := readReg s s.cur a
    let y := readReg s s.cur b
    let t := s.thr s.cur
    let g := s.group t.group
    let i := Instr.estq d a b lk
    let h := holdingNamed s y
    let numberOf := fun (o : Option (BitVec 16)) => (o.getD 0#16).toNat
    let n := ((s.die (dieOfGroup t.group)).estate.filter fun z =>
      z.2.kind ≠ 0 ∧ z.2.holder = t.group ∧ z.2.asid = t.asid).length
    let setArea := if s.groupHeld t.group = true then s.setGroup t.group { g with area := y } else s
    let trap := exec i s = trapped s kindADDRESS 0 x
    codedL i 0x5A#7 0x06#6 lk ∧ (ready i s = true →
      (1024 ≤ coreOf s.cur ∨ 3 ≤ x.toNat → trap) ∧
      (coreOf s.cur < 1024 →
        (x = 0#64 → 2 ^ 15 ≤ y.toNat → trap) ∧ (x = 2#64 → y ≠ 0#64 → trap) ∧
        (x = 1#64 → (2 ^ 51 ≤ y.toNat ∨ y.toNat % 2 ^ 12 ≠ 0) → trap) ∧
        (x = 0#64 → y.toNat < 2 ^ 15 → exec i s = opened s i d lk
          (if h.kind = 0 ∨ h.asid ≠ t.asid then 0#64
           else fieldsWord [(1, 63), (h.kind, 61), (h.bereaved.toNat, 60), ((decide (h.holder = t.group)).toNat, 59),
             ((holdingRes s h).toNat, 58), (h.heir.isSome.toNat, 48), (numberOf h.heir, 32), (h.holder.toNat, 0)])) ∧
        (x = 1#64 → y = 0#64 → exec i s = opened setArea i d lk g.area) ∧
        (x = 1#64 → y ≠ 0#64 → y.toNat < 2 ^ 51 → y.toNat % 2 ^ 12 = 0 → ∀ p,
          translated s (coreOf s.cur) t.asid y.toNat kindSTORE (some false) = .at p →
          exec i s = opened setArea i d lk g.area) ∧
        (x = 2#64 → y = 0#64 → exec i s = opened s i d lk
          (fieldsWord [(numberOf g.dheir, 48), (g.dheir.isSome.toNat, 47), (n, 16), (g.arrn.toNat, 0)]))))

/-- R380: the heir at the end of a chain of at most four groups. -/
def Stated.HeirChain : Prop :=
  ∀ (s : State) (h : BitVec 16),
    let isActive := fun g => s.groupHeld g = true ∧ (s.group g).state = .active
    let passes := fun g => ¬ isActive g ∧ (s.groupHeld g = true ∨ s.groupLast g = true)
    resolveHeir s 4 none = none ∧ (isActive h → resolveHeir s 4 (some h) = some h) ∧
    (¬ isActive h → ¬ passes h → resolveHeir s 4 (some h) = none) ∧
    (∀ x, passes h → (s.group h).dheir = some x → isActive x → resolveHeir s 4 (some h) = some x) ∧
    (∀ x y, passes h → (s.group h).dheir = some x → passes x → (s.group x).dheir = some y → isActive y →
      resolveHeir s 4 (some h) = some y) ∧
    (∀ x y z, passes h → (s.group h).dheir = some x → passes x → (s.group x).dheir = some y → passes y →
      (s.group y).dheir = some z → resolveHeir s 4 (some h) = if isActive z then some z else none)

namespace Sys2Proof.Machine

/-- The step of a conveyance in which entry x of index ix in a die's table passes (R383, R385, R386): from state u, in which
the word or the object carries the mark. -/
def passes (s u : State) (g : BitVec 16) (die ix : Nat) (x : Holding) (c : Conveyance) (v : State) : Prop :=
  match heirOf s x with
  | some h =>
    v.holding die ix = { x with holder := h, bereaved := true, heir := (u.group h).dheir, seq := u.nonce } ∧
    (v.group g).conv = some { c with
      conveyed := c.conveyed + 1, given := c.given ++ [(h, fieldsWord [(x.kind, 60), (die, 13), (ix, 0)], x.key)] } ∧
    (∀ k, (v.core k).hevq = (u.core k).hevq)
  | none =>
    v.holding die ix = Holding.reset ∧ (v.group g).conv = some { c with heirless := c.heirless + 1 } ∧
    ((u.core (s.group g).home).hevq.length < 32 → (s.group g).home < 1024 → ∃ w,
      (v.core (s.group g).home).hevq = (u.core (s.group g).home).hevq ++ [w] ∧ w.toNat / 2 ^ 60 = 1 ∧
      w.toNat % 2 ^ 52 = x.key.toNat % 2 ^ 52)

end Sys2Proof.Machine

/-- R381, R382, R383, R385, R386, R387: conveyance. It begins when the group drains, has no live thread and no access under
way; it takes the reservations, then the locks, then the handles, then the promises, each kind in registration order. A word whose
home refuses the unit stays as it is (log 39, DESIGN CHOICE). -/
def Stated.Conveyance : Prop :=
  ∀ (s : State) (g : BitVec 16),
    let x := s.group g
    let start := Instr.conveyanceStart g
    let stepE := Instr.conveyanceStep g
    let begins := s.groupHeld g = true ∧ x.state = .draining ∧ x.done = false ∧ x.conv = none
    (¬ begins → exec start s = .next s) ∧
    (begins → (x.live ≠ 0 ∨ groupQuiet s g = false) →
      exec start s = .next { s with work := s.work ++ [.conveyanceStart g] }) ∧
    (begins → x.live = 0 → groupQuiet s g = true → ∃ u, exec start s = .next u ∧ u.group g = { x with
        conv := some { began := s.time, part := 1, conveyed := 0, given := [], heirless := 0, ovf := false } } ∧
      u.work = s.work ++ [.conveyanceStep g]) ∧
    (x.conv = none → exec stepE s = .next s) ∧
    (∀ c, x.conv = some c →
      let next := fun (p : Nat) => ∃ u, exec stepE s = .next u ∧ u.group g = { x with conv := (some { c with part := p } : Option Sys2Proof.Machine.Conveyance) } ∧
        u.work = s.work ++ [.conveyanceStep g] ∧ u.mem = s.mem
      (c.part = 1 → firstReservation s g x.asid = none → next 2) ∧
      (2 ≤ c.part → c.part ≤ 4 → (∀ die < 4, ∀ z ∈ (s.die die).estate, ¬ (z.2.kind ≠ 0 ∧ z.2.holder = g ∧ z.2.asid = x.asid ∧
        z.2.kind = c.part - 1)) → next (c.part + 1)) ∧
      (5 ≤ c.part → exec stepE s = .next { s with work := s.work ++ [.arrivalRecordWrite g] }) ∧
      (∀ die ix h, c.part ∈ [2, 3, 4] → die < 4 →
        firstHolding s g x.asid (fun z => decide (z.kind + 1 = c.part)) = some (die, ix, h) → h.kind + 1 = c.part →
        (∀ h', heirOf s h = some h' → h' ≠ g) →
        let heirless := heirOf s h = none
        let old := readWord s.mem h.cell
        let marked := fieldsWord [(old.toNat % 2 ^ 60, 0), (1, 63), (if heirless then 1 else 0, 62)]
        let served := (homeRefusal s h.home 0#2 h.asid true h.cell h.cell).isNone
        let writes := fun (w : Word) => if served then writeWord s.mem h.cell w else s.mem
        ∃ v, exec stepE s = .next v ∧
          (c.part = 2 → v.mem = writes marked ∧ passes s { s with mem := v.mem } g die ix h c v) ∧
          (c.part = 4 → v.mem = writes (fieldsWord [(if heirless then 3 else 2, 61)]) ∧
            passes s { s with mem := v.mem } g die ix h c v) ∧
          (c.part = 3 → (h.key.toNat / 2 ^ 60 = 1 ∨ h.key.toNat / 2 ^ 60 = 4 ∨ handleOwned s h.asid h.key = false) →
            v.mem = s.mem ∧ passes s s g die ix h c v) ∧
          (c.part = 3 → h.key.toNat / 2 ^ 60 = 2 → handleOwned s h.asid h.key = true →
            let k := h.key.toNat / 2 ^ 20 % 4 * 256 + h.key.toNat / 2 ^ 16 % 16 * 16 + h.key.toNat / 2 ^ 11 % 32
            (v.core k).qbereaved.getLsbD (h.key.toNat % 16) = true ∧
            (heirless → (v.core k).qorphan.getLsbD (h.key.toNat % 16) = true))))

/-- R383, R384, R153: the reservation of a lock word passes to the heir's earliest waiter, which gets the marked word, or to
the heir group; without an heir, and for a word that is no lock, it is released and every waiter wakes with ORPHAN. A word whose
home refuses the unit stays as it is (log 39, DESIGN CHOICE). -/
def Stated.LocksPass : Prop :=
  ∀ (s : State) (g : BitVec 16) (c : Sys2Proof.Machine.Conveyance) (core : Nat) (r : Reservation),
    let x := s.group g
    x.conv = some c → c.part = 1 → firstReservation s g x.asid = some (core, r) → core < 1024 →
    (s.core core).resvHeld = [] →
    let queue := (s.core core).resv.filter fun e => e.cell = r.cell
    let others := (s.core core).resv.filter fun e => ¬ e.cell = r.cell
    let lock := fun (z : Holding) => decide (z.kind = 1 ∧ z.cell = r.cell)
    let served := (homeRefusal s core 0#2 r.asid true r.cell r.cell).isNone
    let writes := fun (w : Word) => if served then writeWord s.mem r.cell w else s.mem
    (firstHolding s g r.asid lock = none → ∃ v, exec (.conveyanceStep g) s = .next v ∧ v.mem = s.mem ∧
      (v.core core).resv = others) ∧
    (∀ die ix h, firstHolding s g r.asid lock = some (die, ix, h) →
      let old := readWord s.mem r.cell
      (heirOf s h = none → ∃ v, exec (.conveyanceStep g) s = .next v ∧ (v.core core).resv = others ∧
        v.mem = writes (fieldsWord [(old.toNat % 2 ^ 60, 0), (3, 62)])) ∧
      (∀ heir, heirOf s h = some heir → (∀ e ∈ queue.drop 1, e.group ≠ heir) → ∃ v, exec (.conveyanceStep g) s = .next v ∧
        v.mem = writes (fieldsWord [(old.toNat % 2 ^ 60, 0), (1, 63)]) ∧
        (v.core core).resv = others ++ { cell := r.cell, asid := r.asid, group := heir, tnum := none, absent := false
                                         waiting := none, seq := s.nonce } :: queue.drop 1) ∧
      (∀ heir pre e post q, heirOf s h = some heir → queue.drop 1 = pre ++ e :: post →
        (∀ z ∈ pre, z.group ≠ heir) → e ∉ pre → e.group = heir → e.asid = r.asid → e.waiting = some q →
        ∃ v, exec (.conveyanceStep g) s = .next v ∧
          v.mem = writes (fieldsWord [(old.toNat % 2 ^ 60, 0), (1, 63)]) ∧
          (v.core core).resv = others ++ { e with waiting := none, seq := s.nonce } :: (pre ++ post)))

/-- R388, R389, R390: the record of a conveyance for one heir: it is written at AREA + 512 × (ARRN mod 8) where it can be,
ARRN advances, and the live thread of lowest TNUM gets the estate interrupt; after the last heir comes the CONVEYED
event. -/
def Stated.ArrivalRecord : Prop :=
  ∀ (s : State) (g : BitVec 16),
    let x := s.group g
    let e := Instr.arrivalRecordWrite g
    (x.conv = none → exec e s = .next s) ∧
    (∀ c, x.conv = some c → c.given = [] →
      let u := s.setGroup g { x with conv := none, done := true }
      (c.conveyed = 0 → c.heirless = 0 → x.cancelled = [] → exec e s = .next u) ∧
      ((c.conveyed ≠ 0 ∨ c.heirless ≠ 0 ∨ x.cancelled ≠ []) → x.home < 1024 → (s.core x.home).hevq.length < 32 →
        ∃ v, exec e s = .next v ∧ v.group g = u.group g ∧ v.mem = s.mem ∧
          (v.core x.home).hevq = (s.core x.home).hevq ++ [fieldsWord [(4, 60), ((s.core x.home).hevLost.toNat, 59),
            (c.ovf.toNat, 44), (c.heirless % 2 ^ 14, 30), (c.conveyed % 2 ^ 14, 16), (g.toNat, 0)]])) ∧
    (∀ c h y rest, x.conv = some c → c.given = (h, y) :: rest → h ≠ g → s.groupHeld h = true → s.groupHeld g = true →
      let z := s.group h
      let items := ((c.given.filter fun i => i.1 = h).map fun i => i.2) ++ x.cancelled.map fun i => i.2
      let word := fun (i : Nat) =>
        if i = 0 then fieldsWord [(g.toNat, 0), (h.toNat, 16), (min items.length 28, 32), (if 28 < items.length then 1 else 0, 37)]
        else if i = 1 then c.began else if i = 2 then BitVec.ofNat 64 x.killed.toNat
        else if i < 8 then 0#64
        else match items[(i - 8) / 2]? with
          | some p => if i % 2 = 0 then p.1 else p.2
          | none => 0#64
      ∃ v, exec e s = .next v ∧ v.group h = { z with arrn := z.arrn + 1#8 } ∧
        (v.group g).conv = some { c with
          given := c.given.filter (fun i => i.1 ≠ h), ovf := c.ovf || decide (28 < items.length) } ∧
        v.work = s.work ++ [.arrivalRecordWrite g] ∧
        ((∀ y ∈ s.cores, y.2.residence ≠ .resuming ∧ ∀ i < 8, (y.2.diverts.getD i ⟨false, 0#16, 0#36⟩).valid = true →
            (y.2.diverts.getD i ⟨false, 0#16, 0#36⟩).asid ≠ z.asid) →
          (recordPlace s h = none → v.mem = s.mem) ∧
          (∀ ea p, recordPlace s h = some (ea, p) → ea = z.area + BitVec.ofNat 64 (512 * (z.arrn.toNat % 8)) ∧
            v.mem = writeWords s.mem p.cell ((List.range 64).map word)) ∧
          ((∃ k, liveIn s h k) → ∃ k, liveIn s h k ∧ (∀ j, liveIn s h j → (s.thr k).tnum.toNat ≤ (s.thr j).tnum.toNat) ∧
            v.thr k = { s.thr k with
              uip := (s.thr k).uip ||| 2#3, argEstate := ((recordPlace s h).map fun i => i.1).getD 0#64 } ∧
            ∀ j, j ≠ k → v.thr j = s.thr j)))

/-! Slots, residences, migration and levelling (13, 15). -/

namespace Sys2Proof.Machine

/-- A slot table that slotw and ctxload accept (R284, R296): every code is at most 8, and some entry is slot 7's. -/
def tableFits (v : Word) : Prop :=
  (∀ k < 16, v.toNat / 2 ^ (4 * k) % 16 ≤ 8) ∧ ∃ k < 16, v.toNat / 2 ^ (4 * k) % 16 = 7

/-- The operands of ctxsave and ctxload, with the number of modes (R293, R294). -/
def areaFits (x : Word) : Prop := x.toNat < 2 ^ 51 ∧ x.toNat % 2 ^ 16 = 0
def nameBits (y : Word) (modes : Nat) : Prop := y.toNat < 2 ^ 52 ∧ y.toNat / 4 % 2 ^ 38 = 0 ∧ y.toNat % 4 < modes

/-- The core hosts a residence of the context that takes threads (R288). -/
def takesThreads (s : State) (asid : BitVec 16) (core : Nat) : Prop :=
  (s.core core).health = .good ∧ (s.core core).ctxAsid = asid ∧
    ((s.core core).residence = .loaded ∨ (s.core core).residence = .running)

/-- The first core of a sample with the lowest load (R341, R302). -/
def isIdlest (l : List (Nat × Nat)) (n load : Nat) : Prop :=
  ∃ pre post, l = pre ++ (n, load) :: post ∧ (∀ z ∈ pre, load < z.2) ∧ ∀ z ∈ post, load ≤ z.2

/-- The save area lies at cell base and can be read and written: the core's first TLB entry maps it by one lin page of 16 GiB
of the system context. -/
def areaAt (s : State) (core : Nat) (area : Word) (base : Nat) : Prop :=
  area.toNat / 2 ^ 34 = (area.toNat + areaSize core) / 2 ^ 34 ∧ area.toNat < 2 ^ 50 ∧
  ∃ e rest, (s.core core).tlb = e :: rest ∧ e.asid = 0#16 ∧ e.level = 5 ∧ e.base.toNat / 2 ^ 34 = area.toNat / 2 ^ 34 ∧
    e.leaf.getLsbD 5 = true ∧ e.leaf.getLsbD 6 = true ∧ e.leaf.getLsbD 63 = false ∧ leafIlv e.leaf = false ∧
    let p := leafPlace s 5 e.leaf area.toNat
    p.cell = base ∧ base + areaSize core ≤ 2 ^ 53 ∧ s.dieRetired (dieOf p.home) = false ∧
      (s.core p.home).health = .good ∧ s.poison = [] ∧ s.erring = []

end Sys2Proof.Machine

/-- R284, R281, R282, R285, R294, R296, R361: slotw, which at the thread's own core acts in the ck of its issue, its step at another
core, for whose request it waits while the outbound queue is full (log 39, DESIGN CHOICE), and the frame boundary, at which the table, the shares and the quiet-bank mode come into force. -/
def Stated.SlotTable : Prop :=
  (∀ (s : State) (d a b : Reg),
    let x := readReg s s.cur a
    let y := readReg s s.cur b
    let i := Instr.slotw d a b
    let bad := 2 ^ 52 ≤ y.toNat ∨ y.toNat % 2 ^ 40 ≠ 0
    let core := coreOf s.cur
    codedR i 0x6D#7 0x02#6 ∧ (ready i s = true →
      (bad ∨ coreFor s s.cur y = none → exec i s = trapped s kindADDRESS 0 y) ∧
      (∀ n, ¬ bad → coreFor s s.cur y = some n → n ≠ core →
        exec i s = if outbound s core 0 < 8 then asked s d (.slotwRequest s.cur d n x) else .next s) ∧
      (¬ bad → coreFor s s.cur y = some core →
        (tableFits x → exec i s = wrote (s.setCore core { s.core core with slotpend := x }) d 0#64) ∧
        (¬ tableFits x → exec i s = wrote s d 1#64))) ∧
    ((s.thr s.cur).view = .hypervisor →
      (core < 1024 → coreFor s s.cur y = if y.toNat / 2 ^ 40 % 2 ^ 12 = 0 then some core else none) ∧
      (1024 ≤ core → y.toNat / 2 ^ 51 % 2 = 0 → coreFor s s.cur y = none) ∧
      (1024 ≤ core → y.toNat / 2 ^ 51 = 1 →
        let die := y.toNat / 2 ^ 49 % 4
        let row := y.toNat / 2 ^ 45 % 16
        let col := y.toNat / 2 ^ 40 % 32
        coreFor s s.cur y =
          if row < 14 ∧ col < 16 ∧ s.dieRetired die = false then some (256 * die + 16 * row + col) else none))) ∧
  (∀ (s : State) (key : Nat) (d : Reg) (core : Nat) (v : Word),
    (tableFits v → exec (.slotwRequest key d core v) s =
      .next (replied (s.setCore core { s.core core with slotpend := v }) core key d 0#64)) ∧
    (¬ tableFits v → exec (.slotwRequest key d core v) s = .next (replied s core key d 1#64))) ∧
  (∀ (s : State) (core : Nat),
    let c := s.core core
    ∃ u, exec (.frameBoundary core) s = .next u ∧ u.mem = s.mem ∧
      (c.sharePend = none → u.core core = { c with slottab := c.slotpend, quietOn := c.quiet, arming := false }) ∧
      (∀ tab e0 e1, c.sharePend = some (tab, e0, e1) → u.core core = { c with
        slottab := tab, slotpend := tab, quietOn := c.quiet, arming := false, sharePend := none, eshare0 := e0
        eshare1 := BitVec.ofNat 64 (c.eshare1.toNat / 2 ^ 48 * 2 ^ 48 + e1.toNat % 2 ^ 48) }) ∧
      (∀ j < 7, u.thr (8 * core + j) = { s.thr (8 * core + j) with fresh := false }) ∧
      ∀ k, (∀ j < 7, k ≠ 8 * core + j) → u.thr k = s.thr k)

/-- R302: migrate. -/
def Stated.MigrateResults : Prop :=
  ∀ (s : State) (d a : Reg),
    let x := readReg s s.cur a
    let i := Instr.migrate d a
    let core := coreOf s.cur
    let t := s.thr s.cur
    let die := x.toNat / 2 ^ 49 % 4
    let row := x.toNat / 2 ^ 45 % 16
    let col := x.toNat / 2 ^ 40 % 32
    let fits := x = 0#64 ∨
      (x.toNat / 2 ^ 51 = 1 ∧ x.toNat % 2 ^ 40 = 0 ∧ row < 14 ∧ col < 16 ∧ s.dieRetired die = false)
    let others := (s.core core).sample.filter fun z => z.1 ≠ core
    let ends := fun (n : Nat) => exec i s = wrote s d (BitVec.ofNat 64 n)
    let goesTo := fun (n : Nat) =>
      (n = core → ends 4) ∧ (n ≠ core → (s.cur % 8 = 7 ∨ ¬ takesThreads s t.asid n) → ends 3) ∧
      (n ≠ core → s.cur % 8 ≠ 7 → takesThreads s t.asid n → exec i s = .next { s.setThr s.cur { t with hold := .migrating } with
        work := s.work ++ [.migrationSend s.cur n (.instr d)] })
    codedR i 0x6D#7 0x04#6 ∧ (ready i s = true →
      (¬ fits → exec i s = trapped s kindADDRESS 0 x) ∧
      (fits → 1024 ≤ core → ends 3) ∧
      (fits → core < 1024 → t.pinned = true → ends 1) ∧
      (fits → core < 1024 → t.pinned = false → t.uin = true → ends 5) ∧
      (fits → core < 1024 → t.pinned = false → t.uin = false →
        (x ≠ 0#64 → goesTo (256 * die + 16 * row + col)) ∧ (x = 0#64 → others = [] → ends 3) ∧
        (∀ n load, x = 0#64 → isIdlest others n load → goesTo n)))

/-- R299, R300, R301, R128, R360, R361, R365: a migration waits for the thread's work and for room in its core's outbound
queue, sends the packet, which waits in front of queue 3 of the destination while that has no 2 entries, and the destination
takes the thread into its lowest EMPTY slot, or refuses; migrate's status is written where the thread then runs. -/
def Stated.Migration : Prop :=
  (∀ (s : State) (k dst : Nat) (cause : MigCause),
    let t := s.thr k
    let e := Instr.migrationSend k dst cause
    (t.hold ≠ .migrating → exec e s = .next s) ∧
    (t.hold = .migrating → 8 ≤ outbound s (coreOf k) 3 → exec e s = .next { s with work := s.work ++ [.migrationSend k dst cause] }) ∧
    (t.hold = .migrating → outbound s (coreOf k) 3 < 8 → t.windows = [] → ∃ u, u.thr k = t ∧ (∀ j, j ≠ k → u.thr j = s.thr j) ∧ u.mem = s.mem ∧
      u.work = s.work ∧
      ((t.outst ≠ [] ∨ enginesIdle s k = false) → exec e s = .next { u with work := s.work ++ [.migrationSend k dst cause] }) ∧
      (t.outst = [] → enginesIdle s k = true → t.posted = [] →
        exec e s = .next { u with work := s.work ++ [.migrationPacketArrival
          { src := k, dst := dst, cause := cause, pc := t.pc, asid := t.asid, tnum := t.tnum, group := t.group, gen := t.gen
            seq := t.seq, ie := t.uie, ip := t.uip, uvec := t.uvec, p := t.p.toList, q := t.q } s.ck] }) ∧
      (t.outst = [] → enginesIdle s k = true → t.posted ≠ [] → exec e s = .next (migrationStays u k cause 5)))) ∧
  (∀ (s : State) (p : MigPacket), s.dieRetired (dieOf p.dst) = false →
    let c := s.core p.dst
    let e := Instr.migrationPacketArrival p
    (admits c 3 2 = true → exec e s =
      .next { s.setCore p.dst { c with packets := c.packets ++ [p] } with work := s.work ++ [.packetTake p.dst] }) ∧
    (admits c 3 2 = false → exec e s = .next { s with work := .migrationPacketArrival p (s.ck + 64) :: s.work })) ∧
  (∀ (s₀ : State) (p : MigPacket) (ps : List MigPacket), coreOf p.src ≠ p.dst → p.dst < 1024 →
    (s₀.core p.dst).packets = p :: ps → (s₀.thr p.src).hold = .migrating → (s₀.thr p.src).gen = p.gen →
    let s := s₀.setCore p.dst { s₀.core p.dst with packets := ps }
    let e := Event.packetTake p.dst
    let opens := fun (j : Nat) => slotOpen s p.dst j = true
    let refuse := fun (n : Nat) => runEvent e s₀ = .next { s with work := s.work ++ [.migrationRefusalReturn p n] }
    let good := takesThreads s p.asid p.dst ∧ s.dieRetired (dieOf p.dst) = false
    (¬ good → refuse 3) ∧ (good → (∀ j < 7, ¬ opens j) → refuse 2) ∧
    (∀ j < 7, good → opens j → (∀ i < j, ¬ opens i) →
      let k := 8 * p.dst + j
      let t := s.thr p.src
      ∃ u, runEvent e s₀ = .next (match p.cause with
          | .instr d => retire (writeReg u k d 0#64) k
          | _ => u) ∧
        u.thr k = { Thread.empty with
          sstate := .run, gen := (s.thr k).gen + 1#8, asid := p.asid, group := p.group, tnum := p.tnum, pc := p.pc
          p := Vector.ofFn fun (i : Fin 10) => p.p.getD i.val 0#64
          q := p.q, latch := 0b11110#5, seq := p.seq, uvec := p.uvec, uip := p.ip ||| t.uip, uie := p.ie
          argEngine := t.argEngine, argEng := t.argEng, argEstate := t.argEstate, argMsg := t.argMsg
          killed := t.killed, lossCause := t.lossCause } ∧
        u.thr p.src = { Thread.empty with gen := t.gen } ∧ (u.core p.dst).residence = .running ∧ u.mem = s.mem ∧
        (∀ i, i ≠ k → i ≠ p.src → u.thr i = s.thr i))) ∧
  (∀ (s : State) (p : MigPacket) (n : Nat),
    let t := s.thr p.src
    let e := Instr.migrationRefusalReturn p n
    let u := s.setThr p.src { t with hold := .none }
    (t.hold ≠ .migrating → exec e s = .next s) ∧
    (t.hold = .migrating → t.killed = false →
      (p.cause = .access → ∃ v, exec e s = .next v ∧ v.thr p.src = { t with hold := .none, stay := true } ∧
        (∀ j, j ≠ p.src → v.thr j = s.thr j) ∧ v.cores = s.cores ∧ v.mem = s.mem) ∧
      (∀ d, p.cause = .instr d → exec e s = .next (retire (writeReg u p.src d (BitVec.ofNat 64 n)) p.src)) ∧
      (p.cause = .level → exec e s = .next u)))

/-- R293, R294, R288, R295, R361: ctxsave and ctxload, which wait while their core's outbound queue is full (log 39, DESIGN CHOICE), and what the state of the named core makes of a save request: the answer, or
the residence stops to run, a DIVERT entry is filled, and the save begins. -/
def Stated.SaveRequests : Prop :=
  (∀ (s : State) (d a b : Reg),
    let x := readReg s s.cur a
    let y := readReg s s.cur b
    ∀ row ∈ [(Instr.ctxsave d a b, 0x00#6, 3, fun (c : Nat) => Event.ctxsaveRequest ⟨s.cur, d, c, x, y.setWidth 2⟩),
        (.ctxload d a b, 0x01#6, 1, fun c => .ctxloadRequest ⟨s.cur, d, c, x, 0#2⟩)],
      codedR row.1 0x6D#7 row.2.1 ∧ (ready row.1 s = true →
        (¬ areaFits x → exec row.1 s = trapped s kindADDRESS 0 x) ∧
        (areaFits x → (¬ nameBits y row.2.2.1 ∨ coreFor s s.cur y = none) → exec row.1 s = trapped s kindADDRESS 0 y) ∧
        (∀ c, areaFits x → nameBits y row.2.2.1 → coreFor s s.cur y = some c →
          exec row.1 s =
            if c = coreOf s.cur ∨ outbound s (coreOf s.cur) 0 < 8 then asked s d (row.2.2.2 c) else .next s))) ∧
  (∀ (s : State) (r : CtxReq),
    let c := s.core r.core
    let e := Instr.ctxsaveRequest r
    let ends := fun (n : Nat) => exec e s = .next (replied s r.core r.key r.d (BitVec.ofNat 64 n))
    let hosted := c.residence = .loaded ∨ c.residence = .running
    let divert := fun (i : Nat) => c.diverts.getD i ⟨false, 0#16, 0#36⟩
    let mine := c.guestStop = none ∨ ∃ v, (s.thr r.key).view = .guest v ∧ c.guestStop = some v
    let same := c.area = r.area ∧ (c.stopped = true → mine) ∧
      ((r.mode = 0#2 ∧ c.residence = .preempting) ∨ (r.mode = 1#2 ∧ c.residence = .migratingOut))
    (c.health ≠ .good → ends 1) ∧
    (c.health = .good → placingOn s r.core = true → exec e s = .next { s with work := s.work ++ [.ctxsaveRequest r] }) ∧
    (c.health = .good → placingOn s r.core = false →
      (r.mode = 2#2 → c.residence ≠ .loaded → ends 1) ∧
      (r.mode = 2#2 → c.residence = .loaded → areaReach s r.core r.area.toNat kindSTORE = none → ends 4) ∧
      (∀ p, r.mode = 2#2 → c.residence = .loaded → areaReach s r.core r.area.toNat kindSTORE = some p →
        (∀ q, areaReach s r.core (r.area.toNat + 3) kindSTORE = some q → q.cell = p.cell + 3) →
        ∃ u, exec e s = .next (replied u r.core r.key r.d 0#64) ∧ (u.core r.core).residence = .free) ∧
      (r.mode ≠ 2#2 → hosted → (∀ i < 8, (divert i).valid = true) → ends 5) ∧
      (∀ i < 8, r.mode = 0#2 ∨ r.mode = 1#2 → hosted → (divert i).valid = false → (∀ j < i, (divert j).valid = true) →
        exec e s = .next { s.setCore r.core { c with
            residence := (if r.mode = 1#2 then .migratingOut else .preempting), area := r.area, stopped := false, guestStop := none, cursor := 0
            diverts := c.diverts.setIfInBounds i ⟨true, c.ctxAsid, (r.area.toNat / 2 ^ 16 : Nat)⟩ } with
          work := s.work ++ [.saveImageWrite r] }) ∧
      (r.mode ≠ 2#2 → ¬ hosted → same → exec e s =
        .next { s.setCore r.core { c with stopped := false, guestStop := none } with work := s.work ++ [.saveImageWrite r] }) ∧
      (r.mode ≠ 2#2 → ¬ hosted → ¬ same → ends 1)))

/-- R291, R290: what a save writes: the words of a thread record, and of the header. -/
def Stated.SavedWords : Prop :=
  (∀ (t : Thread), t.sstate ≠ .empty →
    let w := fun (off : Nat) => (threadRecord t).getD (off / 8) 0#64
    let own := if t.uin then t.ualt else shadowed t.p
    let code := match t.sstate with | .run => 0 | .trapped => 1 | .pagewait => 2 | .ended => 3 | .empty => 4
    (t.frozen ++ t.windows).length ≤ 8 →
    (threadRecord t).length = 128 ∧
    w 0 = fieldsWord [(1, 63), (t.pinned.toNat, 62), (code, 58), (t.gen.toNat, 48), (t.group.toNat, 32), (t.tnum.toNat, 16)] ∧
    w 0x08 = t.pc ∧ (∀ (i : Fin 4), w (0x10 + 8 * i.val) = own[i]) ∧
    (∀ (i : Fin 10), 4 ≤ i.val → w (0x10 + 8 * i.val) = t.p[i]) ∧ w 0x60 = t.q ∧
    w 0x68 = fieldsWord [(t.uin.toNat, 8), (t.uip.toNat, 4), (t.uie.toNat, 0)] ∧ w 0x70 = t.upc ∧ w 0x78 = t.uvec ∧
    (t.uin = true → ∀ (i : Fin 4), w (0x80 + 8 * i.val) = (shadowed t.p)[i]) ∧
    w 0xA0 = fieldsWord [(t.latch.toNat, 32), (t.seq.toNat, 0)] ∧
    w 0xA8 = t.epc ∧ w 0xB0 = t.cause ∧ w 0xB8 = t.tval ∧ w 0xC0 = t.vstatus ∧ w 0xC8 = t.mstatus ∧
    (∀ (i : Fin 17), w (0x200 + 8 * i.val) = t.copyRegs[i]) ∧ (∀ (i : Fin 4), w (0x288 + 8 * i.val) = t.matRegs[i]) ∧
    (∀ (i : Fin 11), w (0x2A8 + 8 * i.val) = t.linkRegs[i]) ∧
    (∀ i x, (t.frozen ++ t.windows)[i]? = some x →
      let at_ := 0x100 + 32 * i
      (∀ v, x.arrival = .ready (.one v) → w at_ = fieldsWord [(1, 63), (x.dest.toNat, 16), (x.count, 0)] ∧
        w (at_ + 8) = x.word.setWidth 64 ∧ w (at_ + 24) = v) ∧
      (∀ v z, x.arrival = .ready (.two v z) → w at_ = fieldsWord [(1, 63), (x.dest.toNat, 16), (x.count, 0)] ∧
        w (at_ + 8) = x.word.setWidth 64 ∧ w (at_ + 16) = z ∧ w (at_ + 24) = v) ∧
      (x.arrival = .pending → w at_ = fieldsWord [(3, 62), (x.dest.toNat, 16), (x.count, 0)] ∧
        w (at_ + 8) = x.word.setWidth 64 ∧ w (at_ + 16) = x.a ∧ w (at_ + 24) = x.b))) ∧
  (∀ (t : Thread), t.sstate = .empty → threadRecord t = List.replicate 128 0#64) ∧
  (∀ (s : State) (core base : Nat) (area : Word), core < 1024 → areaAt s core area base →
    let c := s.core core
    headerWords s core area.toNat = [fieldsWord [(1, 0), (if isPrompt core then 0 else 1, 16), (4, 24), (c.ctxAsid.toNat, 32),
        (c.ctxClass.toNat, 48), (c.quiet.toNat, 56)], c.slotpend, c.eshare0, c.eshare1, c.rseed,
      BitVec.ofNat 64 ((vfOfAsid s c.ctxAsid).getD 0), BitVec.ofNat 64 (areaSize core - 0x100),
      fieldsWord [(1, 51), (dieOf core, 49), (rowOf core, 45), (colOf core, 40)], s.time,
      BitVec.ofNat 64 (readBytes s.mem (base + 0x48) 4)] ++ List.replicate 22 0#64)

/-- R295 steps 4 to 7, on a residence whose threads have nothing under way: the image lies in the area, every user slot is
EMPTY, the residence is FREE and the issuer has status 0. A thread with an access under way makes the save wait. -/
def Stated.SaveCompletes : Prop :=
  ∀ (s : State) (r : CtxReq) (base : Nat),
    let core := r.core
    let c := s.core core
    let key := fun (j : Nat) => 8 * core + j
    let slot := fun (j : Nat) => s.thr (key j)
    let e := Instr.saveImageWrite r
    core < 1024 → rowOf core < 14 → r.mode = 0#2 → (∀ j < 7, r.key ≠ key j ∧ c.parked.getLsbD j = false) →
    ((s.thr r.key).view = .hypervisor) → Memory.wf s.mem →
    s.cores.all (fun x => x.2.resv = [] ∧ x.2.resvHeld = [] ∧ x.2.packets = []) = true →
    c.health = .good → c.residence = .preempting → c.area = r.area →
    c.inbox = [] → c.vecQueue = [] → c.copies = [] → c.matQueue = [] → c.reps = [] → c.arrived = false → c.cursor = 0 →
    s.work = [] → s.due = [] → s.awaiters = [] →
    (∀ j < 7, (slot j).hold = .none ∧ (slot j).windows = [] ∧ (slot j).frozen = [] ∧ (slot j).held = [] ∧
      (slot j).posted = [] ∧ (slot j).sstate ≠ .pagewait) →
    ((∃ j < 7, (slot j).sstate = .run ∧ (slot j).outst ≠ []) → ∃ u, exec e s = .next u ∧ u.work = [.saveImageWrite r] ∧
      u.mem = s.mem ∧ ∀ j < 7, u.thr (key j) = slot j) ∧
    ((∀ j < 7, (slot j).outst = []) → areaAt s core r.area base →
      ∃ u, exec e s = .next (replied u core r.key r.d 0#64) ∧ (u.core core).residence = .free ∧
        (∀ j < 7, u.thr (key j) = { Thread.empty with gen := (slot j).gen }) ∧
        (∀ j < 7, ∀ i < 128, readWord u.mem (base + 0x100 + 0x400 * j + 8 * i) = (threadRecord (slot j)).getD i 0#64) ∧
        (∀ i : Fin 16, readWord u.mem (base + 0x1D00 + 8 * i.val) = c.sbank[i]) ∧
        (∀ i < 32, readWord u.mem (base + 8 * i) = (headerWords s core r.area.toNat).getD i 0#64) ∧
        (∀ a, (a < base ∨ base + areaSize core ≤ a) → readByte u.mem a = readByte s.mem a))

/-- R288, R296, R297, R476, R460: a load request: the answers that change nothing; a FRESH area, which clears the core but for its
parked slots; a SAVED area of another core, whose DIVERT entry is cleared first. -/
def Stated.LoadRequests : Prop :=
  (∀ (s : State) (r : CtxReq) (base : Nat), r.mode = 0#2 → r.core < 1024 →
    rowOf r.core < 14 → areaAt s r.core r.area base → (s.thr r.key).view = .hypervisor → (∀ j < 7, r.key ≠ 8 * r.core + j) →
    let core := r.core
    let c := s.core core
    let e := Instr.ctxloadRequest r
    let h := fun (off n : Nat) => readBytes s.mem (base + off) n
    let ends := fun (n : Nat) => exec e s = .next (replied s core r.key r.d (BitVec.ofNat 64 n))
    let inside := vfOfCore s core = some (h 0x28 2)
    let fits := h 0 2 = 1 ∧ h 2 1 = (if isPrompt core then 0 else 1) ∧ h 3 1 ∈ [0, 4, 5] ∧ h 6 1 ≤ 3 ∧ h 7 1 < 2 ∧
      tableFits (BitVec.ofNat 64 (h 8 8)) ∧ inside
    let imageFits := (∀ j < 7, let w := h (0x100 + 0x400 * j) 8; w / 2 ^ 63 = 1 → w / 2 ^ 58 % 8 ≤ 3) ∧
      h (matrixSection core) 1 = 1 ∧ h (matrixSection core + 1) 1 % 2 = if isPrompt core then 0 else 1
    let from_ := 256 * (h 0x38 8 / 2 ^ 49 % 4) + 16 * (h 0x38 8 / 2 ^ 45 % 16) + h 0x38 8 / 2 ^ 40 % 32
    let asid := BitVec.ofNat 16 (h 4 2)
    (c.health ≠ .good → ends 1) ∧
    (c.health = .good → c.residence ≠ .free → c.residence ≠ .resuming → ends 1) ∧
    (c.health = .good → c.residence = .resuming → (c.stopped = false ∨ c.area ≠ r.area) → ends 1) ∧
    (c.health = .good → c.residence = .free → ¬ fits → ends 2) ∧
    (c.health = .good → c.residence = .free → fits → h 3 1 = 5 → ends 1) ∧
    (c.health = .good → c.residence = .free → fits → h 3 1 = 4 → ¬ imageFits → ends 2) ∧
    (c.health = .good → c.residence = .free → fits → h 3 1 = 4 → imageFits → from_ ≠ core → 8 ≤ outbound s core 0 →
      exec e s = .next { s with work := s.work ++ [.ctxloadRequest r] }) ∧
    (c.health = .good → c.residence = .free → fits → h 3 1 = 4 → imageFits → from_ ≠ core → outbound s core 0 < 8 → ∃ u, exec e s = .next u ∧
      (u.core core).residence = .resuming ∧ u.mem = s.mem ∧
      u.work = s.work ++ [.divertClearRequest from_ asid r.area core, .ctxloadRequest { r with mode := 1#2 }]) ∧
    (c.health = .good → c.residence = .free → fits → h 3 1 = 0 → Memory.wf s.mem →
      ∃ u, exec e s = .next (replied u core r.key r.d 0#64) ∧
        u.core core = { c with
          sbank := Vector.replicate 16 0#64, bands := [], latchValid := false, latchType := 0, latchKlen := 0, latchRows := []
          sharePend := some (BitVec.ofNat 64 (h 8 8), BitVec.ofNat 64 (h 0x10 8), BitVec.ofNat 64 (h 0x18 8)), arming := true
          quiet := decide (h 6 1 = 0 ∨ h 7 1 = 1), rseed := BitVec.ofNat 64 (h 0x20 8), ctxAsid := asid
          ctxClass := BitVec.ofNat 2 (h 6 1), residence := .loaded, stopped := false, guestStop := none } ∧
        (∀ j < 7, u.thr (8 * core + j) = if c.parked.getLsbD j then s.thr (8 * core + j)
          else { Thread.empty with gen := (s.thr (8 * core + j)).gen }) ∧
        readByte u.mem (base + 3) = 1#8 ∧
        (∀ b < 3, ∀ off < bufferSize core b, bufferCell core b off ≠ base + 3 → readByte u.mem (bufferCell core b off) = 0#8) ∧
        (∀ a, (∀ b < 3, ¬ (bufferCell core b 0 ≤ a ∧ a < bufferCell core b 0 + bufferSize core b)) → a ≠ base + 3 →
          readByte u.mem a = readByte s.mem a))) ∧
  (∀ (s : State) (core : Nat) (asid : BitVec 16) (area : Word),
    let c := s.core core
    exec (.divertClearRequest core asid area) s = .next (s.setCore core { c with
      diverts := c.diverts.map fun d =>
        if d.valid = true ∧ d.asid = asid ∧ d.addr.toNat = area.toNat / 2 ^ 16 % 2 ^ 36 then ⟨false, 0#16, 0#36⟩ else d }))

/-- R296: the load of a SAVED area with no window, no engine work and no message in it: each valid record is restored to its
slot with its GEN, the s-bank and the buffers hold the image, and the header is CONSUMED. -/
def Stated.LoadCompletes : Prop :=
  ∀ (s : State) (r : CtxReq) (base : Nat), r.mode = 1#2 → r.core < 1024 →
    rowOf r.core < 14 → areaAt s r.core r.area base → (s.thr r.key).view = .hypervisor → Memory.wf s.mem →
    s.work = [] → s.heldKills = [] → (∀ j < 7, r.key ≠ 8 * r.core + j ∧ (s.core r.core).parked.getLsbD j = false) →
    let core := r.core
    let c := s.core core
    c.health = .good → c.residence = .resuming → c.area = r.area →
    let h := fun (off n : Nat) => readBytes s.mem (base + off) n
    let word := fun (off : Nat) => readWord s.mem (base + off)
    let rec_ := fun (j off : Nat) => word (0x100 + 0x400 * j + off)
    let clear := ∀ b < 3, base + areaSize core ≤ bufferCell core b 0 ∨ bufferCell core b 0 + bufferSize core b ≤ base
    (∀ x ∈ s.cores, x.2.resv = []) → clear → word 0x6000 = 0#64 → h 0x4A 2 = 0 →
    (∀ j < 7, (rec_ j 0).getLsbD 63 = true → (rec_ j 0).toNat / 2 ^ 58 % 8 = 0 ∧ (rec_ j 0x68).getLsbD 8 = false ∧
      (∀ i < 8, (rec_ j (0x100 + 32 * i)).getLsbD 63 = false) ∧
      let g := (rec_ j 0).extractLsb' 32 16
      s.groupHeld g = true ∧ (s.group g).state = .active) →
    ∃ u, exec (.ctxloadRequest r) s = .next (replied u core r.key r.d 0#64) ∧
      (∀ j < 7, let t := u.thr (8 * core + j)
        ((rec_ j 0).getLsbD 63 = false → t = { Thread.empty with gen := (s.thr (8 * core + j)).gen }) ∧
        ((rec_ j 0).getLsbD 63 = true → t.sstate = .run ∧ t.pc = rec_ j 8 ∧ t.q = rec_ j 0x60 ∧
          (∀ i : Fin 10, t.p[i] = rec_ j (0x10 + 8 * i.val)) ∧ t.pinned = (rec_ j 0).getLsbD 62 ∧
          t.gen = (rec_ j 0).extractLsb' 48 8 ∧ t.group = (rec_ j 0).extractLsb' 32 16 ∧
          t.tnum = (rec_ j 0).extractLsb' 16 16 ∧ t.asid = BitVec.ofNat 16 (h 4 2) ∧ t.uvec = rec_ j 0x78 ∧
          t.uip = (rec_ j 0x68).extractLsb' 4 3 ∧ t.uie = (rec_ j 0x68).setWidth 3 ∧ t.seq = (rec_ j 0xA0).setWidth 32 ∧
          t.vstatus = rec_ j 0xC0 ∧ t.mstatus = rec_ j 0xC8 ∧ t.windows = [] ∧
          (∀ i : Fin 17, t.copyRegs[i] = rec_ j (0x200 + 8 * i.val)))) ∧
      (∀ i : Fin 16, (u.core core).sbank[i] = word (0x1D00 + 8 * i.val)) ∧
      (u.core core).sharePend = some (word 8, word 0x10, word 0x18) ∧ (u.core core).ctxAsid = BitVec.ofNat 16 (h 4 2) ∧
      ((u.core core).residence = .running ↔ ∃ j < 7, (rec_ j 0).getLsbD 63 = true) ∧
      (∀ off < 524288, readByte u.mem (bufferCell core 1 off) = readByte s.mem (base + aSection core + off)) ∧
      readByte u.mem (base + 3) = 1#8

/-- R341, R342, R343, R361: the balancing interval: the sample; a thread moves to an idler core; a levelled list ships entries to its
idlest neighbour, as far as the outbound queue has room (what it cannot take yet waits: log 39, DESIGN CHOICE). -/
def Stated.Levelling : Prop :=
  ∀ (s : State) (core : Nat), core < 1024 → rowOf core < 14 →
    let c := s.core core
    let load := fun (n : Nat) => ((List.range 7).filter fun j => (s.thr (8 * n + j)).sstate = .run ∧
      asleep s (8 * n + j) = false).length
    let sample := (((List.range 256).map (256 * dieOf core + ·)).filter fun n => rowOf n < 14 ∧ colOf n < 16 ∧
      isPrompt n = isPrompt core ∧ (s.core n).residence = .running ∧ (s.core n).ctxAsid = c.ctxAsid).map fun n => (n, load n)
    let u := s.setCore core { c with sample := sample }
    let may := fun (j : Nat) => movable s (8 * core + j) = true
    (c.levctl.toNat % 4 = 0 → exec (.balancingInterval core) s = .next u) ∧
    (c.levctl.toNat % 4 = 2 →
      ((∃ n l, isIdlest sample n l ∧ (n = core ∨ load core < l + 2)) → exec (.balancingInterval core) s = .next u) ∧
      (∀ n l, isIdlest sample n l → n ≠ core → l + 2 ≤ load core → (∀ j < 7, ¬ may j) →
        exec (.balancingInterval core) s = .next u) ∧
      (∀ n l, ∀ j < 7, isIdlest sample n l → n ≠ core → l + 2 ≤ load core → may j → (∀ i < j, ¬ may i) →
        exec (.balancingInterval core) s = .next { u.setThr (8 * core + j) { s.thr (8 * core + j) with hold := .migrating } with
          work := s.work ++ [.migrationSend (8 * core + j) n .level] })) ∧
    (∀ q, 8 ≤ q → q < 16 → c.levctl.toNat % 4 = 1 →
      (∀ j, 8 ≤ j → j < 16 → j ≠ q → qLevel (qcfgOf c j) = false) →
      qKind (qcfgOf c q) = 3 → qLevel (qcfgOf c q) = true →
      let l := tabGet [] c.lists q
      let near := ((List.range 256).map (256 * dieOf core + ·)).filter fun n => rowOf n < 14 ∧ colOf n < 16 ∧
        isPrompt n = isPrompt core ∧ meshHops n core = 1 ∧ (s.core n).residence = .running ∧
        (s.core n).ctxAsid = qAsid (qcfgOf c q) ∧ (s.core n).levctl.getLsbD 0 = true ∧ qKind (qcfgOf (s.core n) q) = 3 ∧
        qAsid (qcfgOf (s.core n) q) = qAsid (qcfgOf c q) ∧ (s.core n).qorphan.getLsbD q = false
      (c.qorphan.getLsbD q = true → exec (.balancingInterval core) s = .next u) ∧
      (∀ n m, c.qorphan.getLsbD q = false → isIdlest (near.map fun n => (n, (tabGet [] (s.core n).lists q).length)) n m →
        (l.length < m + 2 → exec (.balancingInterval core) s = .next u) ∧
        (m + 2 ≤ l.length →
          let ship := min ((l.length - m) / 2) 16
          let waits := c.shipping ++ (l.drop (l.length - ship)).map fun e => (n, q, e)
          let room := 8 - outbound s core 3
          exec (.balancingInterval core) s = .next { s.setCore core { c with
              sample := sample, lists := tabSet c.lists q (l.take (l.length - ship)), shipping := waits.drop room } with
            work := s.work ++ (waits.take room).map fun x => .levelledEntryArrival x.1 x.2.1 core x.2.2 })))

/-! Pages (19), handover (20) and reliability (22). -/

namespace Sys2Proof.Machine

/-- The bytes of a page of a size code (R400). -/
def pageBytes (size : Nat) : Nat :=
  if size = 0 then 2 ^ 12 else if size = 1 then 2 ^ 16 else if size = 2 then 2 ^ 21 else if size = 3 then 2 ^ 25
  else if size = 4 then 2 ^ 29 else 2 ^ 34

/-- The 32 bytes of a fault entry (R414). -/
def entryReport (e : FaultEntry) : List Word :=
  [fieldsWord [(e.seq.toNat, 32), (e.group.toNat, 16), (e.asid.toNat, 0)], BitVec.ofNat 64 (e.va.toNat % 2 ^ 52),
    fieldsWord [(e.tnum.toNat, 48), (e.detail, 32), (e.name.toNat, 0)], e.time]

/-- The die that DIEV and DIE name (R418, R419). -/
def faultDie (s : State) (diev : Bool) (die : Nat) : Option Nat :=
  if diev = true then some die else if 1024 ≤ coreOf s.cur then none else some (dieOf (coreOf s.cur))

/-- The entry lies in what a presume covers (R419). -/
def inPresume (x y : Word) (e : FaultEntry) : Prop :=
  let n := pageBytes (y.toNat / 2 ^ 16 % 8)
  e.asid.toNat = y.toNat % 2 ^ 16 ∧ (y.getLsbD 21 = true ∨ e.va.toNat % 2 ^ 52 / n = x.toNat / n)

/-- The range of a pinv (R420): context and page overlap. -/
def inDrop (x y : Word) (asid : BitVec 16) (base size : Nat) : Prop :=
  let n := pageBytes (y.toNat / 2 ^ 16 % 8)
  (y.getLsbD 21 = true ∨ asid.toNat = y.toNat % 2 ^ 16) ∧
    (y.getLsbD 20 = true ∨ y.getLsbD 21 = true ∨ (base < x.toNat / n * n + n ∧ x.toNat / n * n < base + size))

/-- A handover page that an entry of the TLB maps for the thread (R421). -/
def handoverPage (s : State) (x : Word) (kind : Nat) (e : TlbEntry) : Prop :=
  tagFits x ∧ x.toNat % 2 ^ 52 < 2 ^ 51 ∧ tlbFind (s.core (coreOf s.cur)) (s.thr s.cur).asid (x.toNat % 2 ^ 52) = some e ∧
    leafReason e.leaf (coreOf s.cur) kind = none ∧ e.leaf.getLsbD 63 = true ∧ leafIlv e.leaf = false

/-- The slot, barrier and engine state of a core is gone. -/
def atReset (u : State) (core : Nat) : Prop :=
  u.core core = { Core.reset with heldInReset := (u.core core).heldInReset, ckBase := (u.core core).ckBase } ∧ ∀ j < 8, u.thr (8 * core + j) = Thread.empty

end Sys2Proof.Machine

/-- R417, R418, R414: pfq takes the oldest queued fault of a die; the window's close stores its 32 bytes. -/
def Stated.FaultsTaken : Prop :=
  ∀ (s : State) (d a b : Reg) (lk : BitVec 4),
    let x := readReg s s.cur a
    let y := readReg s s.cur b
    let i := Instr.pfq d a b lk
    let core := coreOf s.cur
    let t := s.thr s.cur
    let named := faultDie s (x.getLsbD 2) (x.toNat % 4)
    let place := y.toNat / 2 ^ 20 = 1 ∧ y.toNat % 32 = 0 ∧ y.toNat % 2 ^ 20 + 32 ≤ 524288
    let trap := exec i s = trapped s kindADDRESS 0 x
    codedL i 0x6F#7 0x00#6 lk ∧ (ready i s = true →
      (named = none ∨ 8 ≤ x.toNat ∨ y.toNat % 32 ≠ 0 → trap) ∧ (core < 1024 → ¬ place → trap) ∧
      (1024 ≤ core → 2 ^ 51 ≤ y.toNat → trap) ∧
      (∀ die, named = some die → x.toNat < 8 → core < 1024 → place →
        let faults := (s.die die).faults
        ((∀ e ∈ faults, e.taken = true) → exec i s = .next (retireTo
            { s with nonce := s.nonce + 1, work := s.work ++ [.longLatencyResultArrival s.cur s.nonce] } s.cur (t.pc + 4#64)
            [{ id := s.nonce, dest := d, count := lk.toNat, event := false, holds := false, word := encode i, pc := t.pc
               a := 0#64, b := 0#64, mismatch := false, retry := false, arrival := .later (.buffer (BitVec.ofNat 64 (2 ^ 63 + 1)) []) }])) ∧
        (∀ pre e post, faults = pre ++ e :: post → e.taken = false → (∀ z ∈ pre, z.taken = true) →
          ∃ u w, exec i s = .next (retireTo u s.cur (t.pc + 4#64) [w]) ∧
            (u.die die).faults = pre ++ { e with taken := true } :: post ∧ u.mem = s.mem ∧
            w.dest = d ∧ w.count = lk.toNat ∧ ∃ stores, w.arrival = .later (.buffer (e.seq.setWidth 64) stores) ∧
              stores.map Request.data = entryReport e ∧
              stores.map Request.cell = (List.range 4).map fun j => bufferCell core 1 (y.toNat % 2 ^ 20) + 8 * j)))

/-- R419, R415: presume waits for its thread's accesses, frees the faults that it covers, counts itself, and answers how many; each release acts on a slot that
is still in PAGEWAIT under the name. -/
def Stated.FaultsReleased : Prop :=
  (∀ (s : State) (d a b : Reg),
    let x := readReg s s.cur a
    let y := readReg s s.cur b
    let i := Instr.presume d a b
    let named := faultDie s (y.getLsbD 24) (y.toNat / 2 ^ 22 % 4)
    let bad := 2 ^ 52 ≤ x.toNat ∨ 2 ^ 25 ≤ y.toNat ∨ y.getLsbD 19 = true ∨ 6 ≤ y.toNat / 2 ^ 16 % 8
    codedR i 0x6F#7 0x01#6 ∧ (ready i s = true → (s.thr s.cur).view = .hypervisor →
      (named = none ∨ bad → exec i s = trapped s kindADDRESS 0 x) ∧
      (∀ die, named = some die → ¬ bad →
        (accessesDone s s.cur = false → exec i s = .next s) ∧
        (accessesDone s s.cur = true → ∃ out stay : List FaultEntry,
          (∀ e ∈ out, inPresume x y e) ∧ (∀ e ∈ stay, ¬ inPresume x y e) ∧
          (∀ e, (s.die die).faults.count e = out.count e + stay.count e) ∧
          out.Sublist (s.die die).faults ∧ stay.Sublist (s.die die).faults ∧
          exec i s = wrote { s.setDie die { s.die die with prcnt := (s.die die).prcnt + 1#16, faults := stay } with
            work := s.work ++ out.map fun e => .presumeRelease e.name (y.getLsbD 20) die } d (BitVec.ofNat 64 out.length))))) ∧
  (∀ (s : State) (name : BitVec 22), name.toNat / 2 ^ 16 % 16 < 14 → name.toNat / 2 ^ 11 % 32 < 16 →
    name.toNat / 2 ^ 8 % 8 < 7 →
    let n := name.toNat
    let k := 8 * (n / 2 ^ 20 * 256 + n / 2 ^ 16 % 16 * 16 + n / 2 ^ 11 % 32) + n / 2 ^ 8 % 8
    let t := s.thr k
    let c := s.core (coreOf k)
    let waits := t.sstate = .pagewait ∧ t.gen = BitVec.ofNat 8 n
    (∀ defer, ¬ waits → exec (.presumeRelease name defer) s = .next s) ∧
    (waits → exec (.presumeRelease name false) s = .next (s.setThr k { t with sstate := .run, pc := t.epc })) ∧
    (waits → ∃ u, exec (.presumeRelease name true) s = .next u ∧ u.thr k = { t with sstate := .trapped } ∧
      u.core (coreOf k) = { c with tpend := c.tpend ||| BitVec.ofNat 7 (2 ^ (n / 2 ^ 8 % 8)) } ∧ u.mem = s.mem))

/-- R420: pinv drops what it covers from every TLB, restarts the walks of the context, of threads, of their open windows and of copy engines, and sends
the awaits whose word lies in a dropped page to translate again; d comes once the accesses that went through a dropped entry have
been performed. -/
def Stated.TranslationsDropped : Prop :=
  ∀ (s : State) (d a b : Reg),
    let x := readReg s s.cur a
    let y := readReg s s.cur b
    let i := Instr.pinv d a b
    let bad := 2 ^ 52 ≤ x.toNat ∨ 2 ^ 22 ≤ y.toNat ∨ y.getLsbD 19 = true ∨ 6 ≤ y.toNat / 2 ^ 16 % 8
    codedR i 0x6F#7 0x02#6 ∧ (ready i s = true → (s.thr s.cur).view = .hypervisor →
      (bad → exec i s = trapped s kindADDRESS 0 x) ∧
      (¬ bad → accessesDone s s.cur = false → exec i s = .next s) ∧
      (¬ bad → accessesDone s s.cur = true → (s.thr s.cur).stay = false →
        (∀ z ∈ s.threads, z.2.outst = []) → (∀ m l, .payloadRead m l ∉ s.work) → ∃ u, exec i s = wrote u d 0#64 ∧ u.mem = s.mem ∧
          (∀ c e, e ∈ (u.core c).tlb ↔ e ∈ (s.core c).tlb ∧ ¬ inDrop x y e.asid e.base.toNat (pageBytes e.level)) ∧
          (∀ k w, (u.thr k).walk = some w → ∃ v, (s.thr k).walk = some v ∧
            ((y.getLsbD 21 = true ∨ v.asid.toNat = y.toNat % 2 ^ 16) → w = { v with level := 5, entry := none }) ∧
            (¬ (y.getLsbD 21 = true ∨ v.asid.toNat = y.toNat % 2 ^ 16) → w = v)) ∧
          (∀ k w, (u.thr k).rewalk = some w → ∃ v, (s.thr k).rewalk = some v ∧
            ((y.getLsbD 21 = true ∨ v.asid.toNat = y.toNat % 2 ^ 16) → w = { v with level := 5, entry := none }) ∧
            (¬ (y.getLsbD 21 = true ∨ v.asid.toNat = y.toNat % 2 ^ 16) → w = v)) ∧
          (∀ c w, (u.core c).walk = some w → ∃ v, (s.core c).walk = some v ∧
            ((y.getLsbD 21 = true ∨ v.asid.toNat = y.toNat % 2 ^ 16) → w = { v with level := 5, entry := none }) ∧
            (¬ (y.getLsbD 21 = true ∨ v.asid.toNat = y.toNat % 2 ^ 16) → w = v)) ∧
          (∀ z, let moves := z.ea.toNat % 2 ^ 52 < 2 ^ 51 ∧ inDrop x y z.asid (z.ea.toNat % 2 ^ 52) 8
            (z ∈ u.awaiters ↔ z ∈ s.awaiters ∧ ¬ moves) ∧
              (z ∈ s.awaiters → moves → .longLatencyResultArrival z.key z.wid ∈ u.work)) ∧
          (∀ k, (u.thr k).p = (s.thr k).p ∧ (u.thr k).sstate = (s.thr k).sstate)))

/-- R404, R407, R409, R412, R425: the end of a read of a walk. A pointer takes the walk one level on; a leaf enters the TLB,
but for a handover page that is being given, whose walk begins again; an absent end faults, or begins again when the die's
presume count has changed. -/
def Stated.WalksEnd : Prop :=
  ∀ (s : State) (k : Nat) (w : Walk), (s.thr k).walk = some w →
    let t := s.thr k
    let core := coreOf k
    let now := (s.die (dieOf core)).prcnt
    let goesOn := fun (v : Walk) => exec (.walkEnd k) s = .next { s.setThr k { t with walk := some v } with
      work := s.work ++ [.walkEnd k] }
    let ended := s.setThr k { t with walk := none, hold := .none }
    (∀ l e, walkStep s w = .pointer l e → goesOn { w with level := l, entry := some e }) ∧
    (∀ e, walkStep s w = .leaf e → e.getLsbD 63 = true → core < 1024 → givingAt s w.asid (w.va.toNat % 2 ^ 52) = true →
      goesOn { w with level := 5, entry := none }) ∧
    (∀ e, walkStep s w = .leaf e → (e.getLsbD 63 = false ∨ 1024 ≤ core ∨ givingAt s w.asid (w.va.toNat % 2 ^ 52) = false) →
      (s.core core).tlb.length < 64 → ∃ v, exec (.walkEnd k) s = .next v ∧
        v.thr k = { t with walk := none, hold := .none } ∧ v.mem = s.mem ∧ v.work = s.work ∧
        (v.core core).tlb = (s.core core).tlb ++ [walkEntry s w e]) ∧
    (walkStep s w = .absent → core < 1024 → now ≠ w.prcnt → goesOn { w with prcnt := now, level := 5, entry := none }) ∧
    (walkStep s w = .absent → (1024 ≤ core ∨ now = w.prcnt) →
      exec (.walkEnd k) s = .next (pageFault ended k w.va 0 w.kind)) ∧
    (∀ u reason kind, reason < 3 → kind < 8 → core < 1024 → k % 8 < 7 → u = pageFault s k w.va reason kind →
      (256 ≤ (s.die (dieOf core)).faults.length → u = s) ∧
      ((s.die (dieOf core)).faults.length < 256 →
        u.thr k = { t with
          epc := t.pc, cause := causeOf false 4 (8 * reason + kind), tval := w.va, sstate := .pagewait } ∧
        ∃ e, (u.die (dieOf core)).faults = (s.die (dieOf core)).faults ++ [e] ∧ e.taken = false ∧
          e.seq = (s.die (dieOf core)).fqseq ∧ (u.die (dieOf core)).fqseq = (s.die (dieOf core)).fqseq + 1#32 ∧
          entryReport e = [fieldsWord [(e.seq.toNat, 32), (t.group.toNat, 16), (t.asid.toNat, 0)],
            BitVec.ofNat 64 (w.va.toNat % 2 ^ 52),
            fieldsWord [(t.tnum.toNat, 48), (8 * reason + kind, 32), ((nameWord k t.gen).toNat, 0)], s.time])) ∧
    (∀ j, (s.thr j).walk = none → exec (.walkEnd j) s = .next s)

/-- R429, R430, R431: pgive asks the page's home, once its thread's accesses have been performed; ptake is an acquire of the flag word
there. The address of a page fault of either is the operand. -/
def Stated.HandoverIssue : Prop :=
  ∀ (s : State) (d a b : Reg) (lk : BitVec 4),
    let x := readReg s s.cur a
    let y := readReg s s.cur b
    let give := Instr.pgive d a b
    let take := Instr.ptake d a lk
    let core := coreOf s.cur
    let t := s.thr s.cur
    let found := tlbFind (s.core core) t.asid (x.toNat % 2 ^ 52)
    let faults := fun (i : Instr) (kind : Nat) => tagFits x → x.toNat % 2 ^ 52 < 2 ^ 51 →
      (found = none → exec i s = .next (startWalk s s.cur x kind)) ∧
      ∀ e reason, found = some e → leafReason e.leaf core kind = some reason → exec i s = .next (pageFault s s.cur x reason kind)
    codedR give 0x6F#7 0x08#6 ∧ codedL take 0x6F#7 0x09#6 lk ∧
    (∀ i ∈ [give, take], ready i s = true → 1024 ≤ core → exec i s = trapped s kindADDRESS 0 x) ∧
    (ready give s = true → core < 1024 →
      (accessesDone s s.cur = false → exec give s = .next s) ∧
      (accessesDone s s.cur = true → (¬ tagFits x ∨ 2 ^ 51 ≤ x.toNat % 2 ^ 52 ∨ 2 ^ 48 ≤ y.toNat) →
        exec give s = trapped s kindADDRESS 0 x) ∧
      (accessesDone s s.cur = true → y.toNat < 2 ^ 48 → faults give kindSTORE) ∧
      (∀ e, accessesDone s s.cur = true → y.toNat < 2 ^ 48 → handoverPage s x kindSTORE e →
        let flag := leafPlace s e.level e.leaf e.base.toNat
        exec give s = asked s d (.giveRequest { key := s.cur, d := d, asid := t.asid, base := e.base, size := e.level
                                                flag := flag.cell, leaf := e.leafCell, home := flag.home
                                                token := !isPrompt core, value := y.setWidth 48 }))) ∧
    (ready take s = true → core < 1024 →
      (¬ tagFits x ∨ 2 ^ 51 ≤ x.toNat % 2 ^ 52 → exec take s = trapped s kindADDRESS 0 x) ∧
      faults take kindLOAD ∧ (∀ e, handoverPage s x kindLOAD e → (∀ o ∈ t.outst, o.relaxed = true) →
        let flag := leafPlace s e.level e.leaf e.base.toNat
        flag.home = core → ∃ u w r, exec take s = .next (retireTo u s.cur (t.pc + 4#64) [w]) ∧
          u.work = s.work ++ [.takeRequest r] ∧ u.mem = s.mem ∧ r.op = .take (!isPrompt core) ∧ r.cell = flag.cell ∧
          r.home = core ∧ r.key = s.cur ∧ r.wid = some w.id ∧ w.id = s.nonce ∧ w.dest = d ∧ w.count = lk.toNat ∧
          w.holds = true ∧ w.arrival = .pending))

/-- R423, R424, R426, R428: a give at its home: BUSY, REFUSED, NOPAGE and NOTOWNER, which change no flag; one that finds the table
full, or older ones held, is held behind them; else the leaf's OWNER changes sides and the page is GIVING; and the event, which
writes the flag word, answers DONE and has the oldest held request admitted before anything else comes. -/
def Stated.Gives : Prop :=
  ∀ (s : State) (r : GiveReq),
    let c := s.core r.home
    let e := readWord s.mem r.leaf
    let giving := ∃ g ∈ c.gives, g.asid = r.asid ∧ g.base = r.base
    let lives := s.dieRetired (dieOf r.home) = false ∧ c.health = .good
    let present := readable s r.leaf = true ∧ leafOk r.size e = true
    let ends := fun (n : Nat) => exec (.giveRequest r) s = .next (replied s r.home r.key r.d (BitVec.ofNat 64 n))
    (¬ lives → ends 3) ∧ (lives → giving → ends 2) ∧
    (lives → ¬ giving → 8 ≤ c.gives.length ∨ c.giveHeld ≠ [] →
      exec (.giveRequest r) s = .next (s.setCore r.home { c with giveHeld := c.giveHeld ++ [r] })) ∧
    (lives → ¬ giving → c.gives.length < 8 → c.giveHeld = [] → ¬ present → ends 4) ∧
    (lives → ¬ giving → c.gives.length < 8 → c.giveHeld = [] → present → e.getLsbD 62 ≠ r.token → ends 1) ∧
    (lives → ¬ giving → c.gives.length < 8 → present → e.getLsbD 62 = r.token → c.giveHeld = [] →
      ∃ u, exec (.giveRequest r) s = .next u ∧ (u.core r.home).gives = c.gives ++ [r] ∧
        (∃ l, u.work = s.work ++ l ++ [.giveEvent r] ∧ ∀ z ∈ l, ∃ k w, z = .longLatencyResultArrival k w) ∧
        u.mem = writeWord s.mem r.leaf (BitVec.ofNat 64 (e.toNat - (if e.getLsbD 62 then 2 ^ 62 else 0) +
          (if r.token then 0 else 2 ^ 62))) ∧
        ∀ n t, t ∈ (u.core n).tlb → ¬ (t.asid = r.asid ∧ t.base = r.base)) ∧
    (r ∉ c.gives → exec (.giveEvent r) s = .next s) ∧
    (r ∈ c.gives → givePending s r = true → exec (.giveEvent r) s = .next { s with work := s.work ++ [.giveEvent r] }) ∧
    (r ∈ c.gives → givePending s r = false → ∃ u, exec (.giveEvent r) s = .next (replied u r.home r.key r.d 0#64) ∧
      u.mem = writeWord s.mem r.flag (fieldsWord [((!r.token).toNat, 63), (r.value.toNat, 0)]) ∧
      u.due = s.due ++ (if c.giveHeld = [] then [] else [.giveAdmit r.home]) ∧ (u.core r.home).giveHeld = c.giveHeld ∧
      (∀ g, g ∈ (u.core r.home).gives ↔ g ∈ c.gives ∧ ¬ (g.asid = r.asid ∧ g.base = r.base))) ∧
    (∀ n, (s.core n).giveHeld = [] ∨ 8 ≤ (s.core n).gives.length → exec (.giveAdmit n) s = .next s) ∧
    (∀ n, n = r.home → c.giveHeld = [r] → c.gives.length < 8 → ¬ giving → present → e.getLsbD 62 = r.token →
      ∃ u, exec (.giveAdmit n) s = .next u ∧ (u.core n).gives = c.gives ++ [r] ∧ (u.core n).giveHeld = [])

/-- R421, R426, R431: a ptake at the home of a page that is not being given reads the flag word, or answers NOTOWNER; one whose
page is being given waits. -/
def Stated.TakesAnswer : Prop :=
  ∀ (s : State) (r : Request) (token : Bool), r.op = .take token → refusal s r = none →
    let f := readWord s.mem r.cell
    let giving := givingAt s r.asid (r.ea.toNat % 2 ^ 52) = true
    (giving → exec (.takeRequest r) s = .next { s with work := s.work ++ [.takeRequest r] }) ∧
    (¬ giving → f.getLsbD 63 = token → exec (.takeRequest r) s = answered s r (.value f)) ∧
    (¬ giving → f.getLsbD 63 ≠ token → exec (.takeRequest r) s = answered s r (.value (BitVec.ofNat 64 (2 ^ 62 + 1))))

/-- R459, R460, R462: the first mismatch of an issue writes nothing, and it is issued again at the slot's next opportunity; the second
ends a user thread, whose slot is scrubbed and parked, and quarantines a core on slot 7. The comparison of a result that arrives does
the same: the window waits for an opportunity, at which its instruction is issued again. -/
def Stated.CheckerActs : Prop :=
  ∀ (s : State) (k : Nat), coreOf k < 1024 →
    let t := s.thr k
    let c := s.core (coreOf k)
    (t.sstate ≠ .run ∨ t.spent = true → exec (.checkerMismatch k) s = .next s) ∧
    (t.sstate = .run → t.spent = false → t.mismatch = false → exec (.checkerMismatch k) s = .next
      ((s.setThr k { t with mismatch := true, spent := true }).setCore (coreOf k) { c with retries := c.retries + 1#32 })) ∧
    (∀ u, s.cur = k → settleHold s k = u → turnOf u k = .issue → (u.thr k).spent = true →
      turnStep s = .next (u.setThr k { u.thr k with spent := false })) ∧
    (t.sstate = .run → t.spent = false → t.mismatch = true → k % 8 = 7 →
      exec (.checkerMismatch k) s = .next { s with due := s.due ++ [.quarantine (coreOf k) 2#3] }) ∧
    (t.sstate = .run → t.spent = false → t.mismatch = true → k % 8 ≠ 7 →
      exec (.checkerMismatch k) s = .next { s with due := s.due ++ [.machineCheck k] }) ∧
    (k % 8 = 7 ∨ t.sstate = .empty ∨ t.sstate = .ended → exec (.machineCheck k) s = .next s) ∧
    (k % 8 ≠ 7 → t.sstate ≠ .empty → t.sstate ≠ .ended →
      ∃ u, exec (.machineCheck k) s = .next u ∧
        (let v := u.thr k
         v.sstate = .ended ∧ (∀ j : Fin 10, v.p[j] = 0#64) ∧ v.q = 0#64 ∧ (∀ j : Fin 4, v.ualt[j] = 0#64 ∧ v.xalt[j] = 0#64) ∧
          v.windows = [] ∧ v.frozen = [] ∧ v.held = [] ∧ v.latch = 0#5 ∧ (∀ j : Fin 17, v.copyRegs[j] = 0#64) ∧
          (∀ j : Fin 4, v.matRegs[j] = 0#64) ∧ (∀ j : Fin 11, v.linkRegs[j] = 0#64) ∧ v.epc = t.pc ∧
          v.cause = causeOf false 6 0 ∧ v.tval = 0#64 ∧ v.gen = t.gen ∧ v.asid = t.asid ∧ v.group = t.group ∧ v.tnum = t.tnum) ∧
        (u.core (coreOf k)).parked = c.parked ||| BitVec.ofNat 7 (2 ^ (k % 8)) ∧ (u.core (coreOf k)).kills = c.kills + 1#16 ∧
        .slotVacate k ∈ u.work) ∧
    (∀ w r, t.windows = [w] → t.frozen = [] → t.held = [] → w.arrival = .later r → checkedLate w = true → w.retry = false →
      (w.mismatch = false → runEvent (.resultMismatch k w.id) s = .next
        (({ s with work := s.work.filter fun e => e ≠ Event.longLatencyResultArrival k w.id }.setThr k
          { t with windows := [{ w with mismatch := true, retry := true }] }).setCore (coreOf k)
          { c with retries := c.retries + 1#32 })) ∧
      (w.mismatch = true → k % 8 ≠ 7 → t.sstate ≠ .empty → t.sstate ≠ .ended → ∃ u,
        runEvent (.resultMismatch k w.id) s = .next u ∧ (u.thr k).sstate = .ended ∧ (u.thr k).epc = w.pc)) ∧
    (∀ w, s.cur = k → t.windows = [w] → t.frozen = [] → t.held = [] → w.retry = true → settleHold s k = s → turnOf s k = .retry →
      turnStep s = .next { s.setThr k { t with windows := [{ w with retry := false }] } with
        work := s.work ++ [.longLatencyResultArrival k w.id] })

/-- R463, R464, R465: the quarantine of a core, and the shift of its row to the spare, or the loss of the core (where the minima of
its pool and of its die's permit pools fit: R369 and R445 rewrite none). -/
def Stated.CoreQuarantine : Prop :=
  ∀ (s : State) (core : Nat) (cause : BitVec 3), core < 1024 → rowOf core < 14 → colOf core < 16 →
    s.dieRetired (dieOf core) = false →
    let c := s.core core
    let die := dieOf core
    let d := s.die die
    let spare := tabGet 0#5 d.spares (rowOf core)
    let fits := ((List.range 16).map fun j => qMin (qcfgOf c j)).sum <
        64 * ((List.range 64).filter fun b => c.qret.getLsbD b = false).length ∧
      ∀ x ∈ d.ports, ((List.range 5).map fun j => x.2.lpmin.toNat / 2 ^ (12 * j) % 2 ^ 11).sum ≤ x.2.capacity
    (c.health ≠ .good → exec (.quarantine core cause) s = .next s) ∧
    (c.health = .good → d.qip = true →
      exec (.quarantine core cause) s = .next { s with work := s.work ++ [.quarantine core cause] }) ∧
    (c.health = .good → d.qip = false → ∃ u, exec (.quarantine core cause) s = .next u ∧
      (u.core core).health = .quarantined ∧ (u.core core).resv = [] ∧ (u.core core).vecQueue = [] ∧
      (u.core core).copies = [] ∧ (u.core core).matQueue = [] ∧ (u.core core).reps = [] ∧
      (u.die die).qip = true ∧ (u.die die).qcause = cause ∧ (u.die die).qrow.toNat = rowOf core ∧
      (spare.toNat ≠ 16 + colOf core → (u.die die).qcol.toNat = colOf core) ∧
      (spare.toNat = 16 + colOf core → (u.die die).qcol.toNat = 16) ∧
      (∀ j < 7, (u.thr (8 * core + j)).sstate = .empty ∨ (u.thr (8 * core + j)).sstate = .ended) ∧
      .quarantineMapShift core ∈ u.work) ∧
    (c.health ≠ .quarantined → exec (.quarantineMapShift core) s = .next s) ∧
    (c.health = .quarantined → (∃ j < 8, (s.thr (8 * core + j)).outst ≠ []) →
      exec (.quarantineMapShift core) s = .next { s with work := s.work ++ [.quarantineMapShift core] }) ∧
    (c.health = .quarantined → (∀ j < 8, (s.thr (8 * core + j)).outst = []) → spare.getLsbD 4 = true → fits →
      exec (.quarantineMapShift core) s =
        .next ((s.setCore core { c with health := .retired }).setDie die { d with qip := false })) ∧
    (c.health = .quarantined → (∀ j < 8, (s.thr (8 * core + j)).outst = []) → spare.getLsbD 4 = false → Memory.wf s.mem →
      ∃ u, exec (.quarantineMapShift core) s = .next u ∧ atReset u core ∧
        (u.die die).qip = false ∧ (u.die die).spares = tabSet d.spares (rowOf core) (BitVec.ofNat 5 (16 + colOf core)) ∧
        (∀ a, (∀ b < 3, ¬ (bufferCell core b 0 ≤ a ∧ a < bufferCell core b 0 + bufferSize core b)) →
          readByte u.mem a = readByte s.mem a))

/-- R467, R468, R469: a retried beat: the log, the lane's charge, and the swap of a lane charged for the third time within a
millisecond; a beat that is given up charges no lane, its line is refused, and a core whose port has no spare lane is quarantined. -/
def Stated.BeatsRetried : Prop :=
  ∀ (s : State) (core lane : Nat) (off : BitVec 24), lane < 536 →
    let c := s.core core
    let w := c.lbndlog.toNat
    let recent := (c.charges.filter fun x => (s.time - x.2).toNat < 1000000) ++ [(lane, s.time)]
    let logged := fun (up lane : Nat) => fieldsWord [((w / 2 ^ 48 + 1) % 2 ^ 16, 48), ((w / 2 ^ 40 + up) % 2 ^ 8, 40),
      (w / 2 ^ 36 % 2, 36), (lane, 26), (off.toNat, 0)]
    let log := logged 0 lane
    let third := 3 ≤ (recent.filter fun x => x.1 = lane).length
    let free := fun (j : Nat) => j < 8 ∧ c.lspare.getLsbD j = false
    let line := (dieOf core * 2 ^ 48 + rowOf core * 2 ^ 44 + colOf core * 2 ^ 40 + off.toNat) / 64
    let goes := fun (x : Core) => exec (.beatRetry core lane off false) s = .next (s.setCore core x)
    (exec (.beatRetry core lane off true) s = .next { s.setCore core { c with lbndlog := logged 1 (w / 2 ^ 26 % 2 ^ 10) } with
      erring := s.erring ++ [(line, true)]
      due := s.due ++ (if c.lbndlog.getLsbD 36 = true then [.quarantine core 4#3] else []) }) ∧
    (¬ third → goes { c with charges := recent, lbndlog := log }) ∧
    (∀ j, third → free j → (∀ i < j, ¬ free i) → goes { c with
      charges := recent.filter fun x => x.1 ≠ lane, lbndlog := log
      lspare := fieldsWord [(lane, 8), (c.lspare.toNat % 2 ^ 8 + 2 ^ j, 0)] }) ∧
    (third → (∀ j, ¬ free j) → goes { c with charges := recent, lbndlog := log ||| BitVec.ofNat 64 (2 ^ 36) })

/-! The machine as a whole. -/

/-- Every instruction and every step of the machine ends in a next state: nothing faults and nothing is refused. -/
def Obligations.EveryStepAnswers : Prop :=
  (∀ (i : Instr) (s : State), ∃ t, exec i s = .next t) ∧ ∀ s : State, ∃ t, step s = .next t

/-- The memory keeps its one canonical form (log 5, DESIGN CHOICE): no step leaves it. -/
def Obligations.MemoryKeptByStep : Prop :=
  ∀ s t : State, MemoryKept s → step s = .next t → MemoryKept t

/-- The memory after reset is in its canonical form, and lists nothing: every byte reads 0 (log 5, DESIGN CHOICE). -/
def Stated.MemoryAtReset : Prop :=
  MemoryKept State.reset ∧ ∀ a, readByte State.reset.mem a = 0#8

/-- R3: what a byte reads after one write, and after a write of n bytes: the least significant byte lies lowest. -/
def Stated.BytesWritten : Prop :=
  ∀ (m : List Host.Cell), Memory.wf m → ∀ (a n v : Nat), Memory.wf (writeBytes m a n v) ∧
    storesOnly m (writeBytes m a n v) a n v ∧ littleEndian (writeBytes m a n v) a n = v % 256 ^ n ∧
    readBytes m a n = littleEndian m a n

/-- No instruction with a word writes memory as it issues, but for the copy commands, which set their completion object, promise
and fulfil, a tsr and a sysw, of whose effects RegisterReads and RegisterWrites speak. A qput, a send and a cpstat have their thread's
own earlier stores to the bytes that they read performed first (R149). -/
def Stated.MemoryAtIssue : Prop :=
  ∀ (i : Instr) (s t : State), isWord i = true → ¬ (opOf (encode i) = 0x60#7 ∧ engOf (encode i) = 1#3) →
    (∀ d a lk, i ≠ .promise d a lk) → (∀ d a b, i ≠ .fulfil d a b) → (∀ n a, i ≠ .sysw n a) → (∀ n d, i ≠ .tsr n d) →
    ((∀ d a b, i ≠ .qput d a b) ∧ (∀ a b, i ≠ .send a b) ∧ (∀ d a, i ≠ .cpstat d a) ∨
      ∀ r, .remoteRequestArrival r ∈ s.work → r.key = s.cur → r.port = true) →
    exec i s = .next t → t.mem = s.mem

/-- R50, R138, R475: no instruction of a thread in the user view changes the die maps, the retired dies, the ASID table, the
functions, the interrupt routes or what the module booted. -/
def Stated.UserViewLeavesPackage : Prop :=
  ∀ (i : Instr) (s t : State), isWord i = true → (s.thr s.cur).view = .user → exec i s = .next t →
    t.diemap0 = s.diemap0 ∧ t.diemap1 = s.diemap1 ∧ t.dieret = s.dieret ∧ t.asidtab = s.asidtab ∧ t.vfs = s.vfs ∧
    t.irqroute = s.irqroute ∧ t.hdb = s.hdb ∧ t.flash = s.flash ∧ t.bootstat = s.bootstat ∧ t.entry = s.entry

/-- R36, R37: the frame of an instruction that completes with a value for d, with no window open: every other operand, the
memory, every other thread and every other core are as they were, and the pc is at the next word. A shared register keeps the
write of a higher slot in this ck (R35). -/
def Stated.ResultFrame : Prop :=
  ∀ (s : State) (d : Reg) (v : Word), (s.thr s.cur).windows = [] → regOk d = true →
    ∃ t, wrote s d v = .next t ∧ (∀ r, regOk r = true → r ≠ d → readReg t s.cur r = readReg s s.cur r) ∧
      readReg t s.cur d = (if d = 10#5 then 0#64 else if remains false s s.cur d then v else readReg s s.cur d) ∧ (t.thr s.cur).pc = (s.thr s.cur).pc + 4#64 ∧ restOf t = restOf s ∧
      (d.toNat < 16 → ∀ k, k ≠ s.cur → t.thr k = s.thr k) ∧ (∀ c, c ≠ coreOf s.cur → t.core c = s.core c) ∧
      t.core (coreOf s.cur) = { s.core (coreOf s.cur) with
        sbank := (t.core (coreOf s.cur)).sbank, slast := (t.core (coreOf s.cur)).slast } ∧
      { (t.thr s.cur).still with p := (s.thr s.cur).p, q := (s.thr s.cur).q, latch := (s.thr s.cur).latch } =
        (s.thr s.cur).still

/-- R36, R37, R495: the frame of a long-latency instruction that issues with no window open: no operand, no other thread, no
core and no byte of memory changes; a window for d is open. -/
def Stated.LongFrame : Prop :=
  ∀ (s : State) (i : Instr) (d : Reg) (lk : BitVec 4) (v : Word), (s.thr s.cur).windows = [] →
    ∃ t w, opened s i d lk v = .next t ∧ (∀ r, readReg t s.cur r = readReg s s.cur r) ∧
      (∀ k, k ≠ s.cur → t.thr k = s.thr k) ∧ (∀ c, t.core c = s.core c) ∧ t.mem = s.mem ∧ t.dies = s.dies ∧
      (t.thr s.cur).windows = [w] ∧ w.dest = d ∧ w.count = lk.toNat ∧ (t.thr s.cur).still = (s.thr s.cur).still ∧
      t.work = s.work ++ [.longLatencyResultArrival s.cur w.id]

/-! The statements of one subject together. -/

/-- A step runs the instruction that the word at the pc decodes to, or raises the illegal-instruction trap there (log 2, DEDUCED: the free choice of the step). -/
def Obligations.StepRuns : Prop :=
  Stated.StepRunsDecoded ∧ Stated.StepMeetsIllegal

/-- R107 and R108: products and quotients. -/
def Obligations.MultiplyDivide : Prop :=
  Stated.MultiplyResults ∧ Stated.DivideResults

/-- R109 and R110: counting and packing bits. -/
def Obligations.BitResults : Prop :=
  Stated.BitCounts ∧ Stated.BitPacking

/-- R121 to R124: branches and jumps. -/
def Obligations.ControlFlow : Prop :=
  Stated.BranchResults ∧ Stated.JumpResults

/-- R84, R86 and R87: rounding and the draw. -/
def Obligations.Rounding : Prop :=
  Stated.RepresentableRounds ∧ Stated.DirectedIntegers ∧ Stated.DrawLoop

/-- R116, R117 and R120: the scalar float instructions. -/
def Obligations.FloatArithmetic : Prop :=
  Stated.FloatSingle ∧ Stated.FloatDouble

/-- R37 to R40: the result windows of a thread. -/
def Obligations.Windows : Prop :=
  Stated.WindowsCount ∧ Stated.WindowCloses ∧ Stated.OldestCloses

/-- R127, R303 and R304: wait, yield and pin. -/
def Obligations.ThreadYields : Prop :=
  Stated.WaitYield ∧ Stated.PinMark

/-- R50: the causes of the illegal-instruction trap and their order. -/
def Obligations.Causes : Prop :=
  Stated.OperandTrap ∧ Stated.CauseTraps ∧ Stated.CauseOrder

/-- R179, R182, R183 and R125: an exact trap of a user slot, of a privileged slot, and at a fetch. -/
def Obligations.Traps : Prop :=
  Stated.SlotTrap ∧ Stated.HandlerTrap ∧ Stated.FetchFault

/-- R182 to R184: the notify entry, and posted traps. -/
def Obligations.PostedTraps : Prop :=
  Stated.NotifyEntry ∧ Stated.PostedTrap

/-- R181, R190 and R191: what an opportunity does, and how an interrupt is delivered. -/
def Obligations.Opportunities : Prop :=
  Stated.OpportunityOrder ∧ Stated.InterruptDelivery

/-- R196 to R198: the trap instruction and the returns from a handler. -/
def Obligations.HandlerEntryReturn : Prop :=
  Stated.SystemCall ∧ Stated.HandlerReturns

/-- The special registers: what a read gives and what a write makes. -/
def Obligations.RegisterAccess : Prop :=
  Stated.RegisterReads ∧ Stated.RegisterWrites

/-- What a write of a special register sets going beyond its value; R478 and R480: pausing and guest time. -/
def Obligations.RegisterEffects : Prop :=
  Stated.RegisterSteps ∧
  Stated.DieRetirement ∧
  Stated.PauseResume ∧
  Stated.GuestTimeReads ∧
  Stated.GuestTimeContinuous

/-- The nodes, the doorbells and the interrupts of the Barn. -/
def Obligations.Interrupts : Prop :=
  Stated.NodeWrites ∧ Stated.Doorbells ∧ Stated.BarnInterrupts

/-- Power, boot, attestation, function reset and the clocks. -/
def Obligations.PowerAndBoot : Prop :=
  Stated.PowerEvents ∧ Stated.Boot ∧ Stated.Attestation ∧ Stated.FunctionReset ∧ Stated.ClockSlew

/-- Acquire, release and fence, and what an acquire holds back. -/
def Obligations.Ordering : Prop :=
  Stated.AcquireReleaseFence ∧ Stated.AcquireHoldsBack

/-- What the home of a line does with a request, and the answer's arrival. -/
def Obligations.HomeAtomics : Prop :=
  Stated.HomePerforms ∧ Stated.HomeRefuses ∧ Stated.AnswerArrives

/-- Reservations and store-conditional. -/
def Obligations.Reservations : Prop :=
  Stated.ReservationQueue ∧ Stated.StoreConditional

/-- The barrier instructions and the barrier engine. -/
def Obligations.Barriers : Prop :=
  Stated.BarrierResults ∧ Stated.BarrierEngine

/-- The queue instructions and the queue engine. -/
def Obligations.Queues : Prop :=
  Stated.QueueResults ∧ Stated.QueueConfigures ∧ Stated.QueueMoves

/-- How a vector instruction runs, what each command gives, and repetition. -/
def Obligations.VectorRuns : Prop :=
  Stated.VectorStart ∧
  Stated.VectorBeats ∧
  Stated.VectorBits ∧
  Stated.VectorReduces ∧
  Stated.VectorCompares ∧
  Stated.SpecialFunctions ∧
  Stated.VectorCompletes ∧
  Stated.Repetition

/-- How a copy descriptor waits, runs and completes. -/
def Obligations.CopyRun : Prop :=
  Stated.CopyWaits ∧ Stated.CopyRuns ∧ Stated.CopyWhole ∧ Stated.CopyCompletes

/-- How a matrix command runs, gangs and completes. -/
def Obligations.MatrixRun : Prop :=
  Stated.MatrixRuns ∧ Stated.MatrixGang ∧ Stated.MatrixGroups ∧ Stated.MatrixCompletes

/-- How a Meadow command is applied, and what it leaves. -/
def Obligations.MeadowRun : Prop :=
  Stated.MeadowApplies ∧ Stated.PlotEvents

/-- R262, R263, R273 and R274: the settled state of a plot, and the bound within which a sample names it. -/
def Obligations.CertifiedSamples : Prop :=
  Stated.DominanceMargin ∧ Stated.SettledState ∧ Stated.SampleBound

/-- The link and reduction instructions at issue. -/
def Obligations.LinkIssue : Prop :=
  Stated.LinkResults ∧ Stated.ServerSetup

/-- Partial sums, roots, lane turns and permits. -/
def Obligations.LinkRuns : Prop :=
  Stated.PartialSums ∧ Stated.RootResult ∧ Stated.LaneTurns ∧ Stated.Permits

/-- The instructions of kernels, threads and groups; and the binds whose records they launch. -/
def Obligations.KernelIssue : Prop :=
  Stated.BindsAnswer ∧
  Stated.LaunchResults ∧
  Stated.KernelWords ∧
  Stated.SpawnResults ∧
  Stated.ExitEnds ∧
  Stated.GroupResults

/-- How a kernel is placed, its threads are created and end, and its record is released. -/
def Obligations.KernelRun : Prop :=
  Stated.RecordsReleased ∧
  Stated.Placement ∧
  Stated.ThreadsCreated ∧
  Stated.GroupTakes ∧
  Stated.GroupEnds ∧
  Stated.KillsArrive ∧
  Stated.ThreadsEnd ∧
  Stated.SlotsVacate

/-- Messages between groups, and dead letters. -/
def Obligations.Messages : Prop :=
  Stated.SendResults ∧ Stated.RecvWaits ∧ Stated.KwaitRecvEvents ∧ Stated.EntriesArrive ∧ Stated.DeadLetters

/-- The estate instructions. -/
def Obligations.EstateIssue : Prop :=
  Stated.EstateRegisters ∧
  Stated.EstateChanges ∧
  Stated.PromiseKept ∧
  Stated.PromiseAwaited ∧
  Stated.EstateQueries

/-- What happens to an estate when its group ends. -/
def Obligations.Conveyances : Prop :=
  Stated.HeirChain ∧ Stated.Conveyance ∧ Stated.LocksPass ∧ Stated.ArrivalRecord

/-- Slots, migration, context save and load, and page handover, at issue. -/
def Obligations.ContextIssue : Prop :=
  Stated.SlotTable ∧ Stated.MigrateResults ∧ Stated.SaveRequests ∧ Stated.LoadRequests ∧ Stated.HandoverIssue

/-- How a thread migrates, and how a context is saved and loaded. -/
def Obligations.ContextRuns : Prop :=
  Stated.Migration ∧ Stated.Levelling ∧ Stated.SavedWords ∧ Stated.SaveCompletes ∧ Stated.LoadCompletes

/-- Walks, page faults, dropped translations and page handover. -/
def Obligations.PageRuns : Prop :=
  Stated.FaultsTaken ∧
  Stated.FaultsReleased ∧
  Stated.TranslationsDropped ∧
  Stated.WalksEnd ∧
  Stated.Gives ∧
  Stated.TakesAnswer

/-- Checking, quarantine and retried beats. -/
def Obligations.Reliability : Prop :=
  Stated.CheckerActs ∧ Stated.CoreQuarantine ∧ Stated.BeatsRetried

/-- The canonical memory at reset, and what a write of bytes leaves. -/
def Obligations.MemoryBase : Prop :=
  Stated.MemoryAtReset ∧ Stated.BytesWritten

/-- What an instruction leaves unchanged when it issues. -/
def Obligations.Frames : Prop :=
  Stated.MemoryAtIssue ∧ Stated.UserViewLeavesPackage ∧ Stated.ResultFrame ∧ Stated.LongFrame
end

