-- ==== Sys2Proof/Laws/Encoding.lean ====
section
/-! SUPPORT. The fields of a word that a format of R30 has put together, for the proofs about the encoder. -/

namespace Sys2Proof.Laws

theorem extract_high {v w start len : Nat} {x : BitVec v} {y : BitVec w} (h : w ≤ start) :
    BitVec.extractLsb' start len (x ++ y) = BitVec.extractLsb' (start - w) len x :=
  BitVec.extractLsb'_append_eq_of_le h

theorem extract_low {v w start len : Nat} {x : BitVec v} {y : BitVec w} (h : start + len ≤ w) :
    BitVec.extractLsb' start len (x ++ y) = BitVec.extractLsb' start len y :=
  BitVec.extractLsb'_append_eq_of_add_le h

@[simp] theorem opOf_wordR (op : BitVec 7) (d : BitVec 5) (a : BitVec 5) (b : BitVec 5) (fn : BitVec 6) (lk : BitVec 4) : opOf (wordR op d a b fn lk) = op := by
  unfold opOf wordR
  repeat (first | rw [extract_high (by decide)] | rw [extract_low (by decide)])
  exact BitVec.extractLsb'_eq_self

@[simp] theorem dOf_wordR (op : BitVec 7) (d : BitVec 5) (a : BitVec 5) (b : BitVec 5) (fn : BitVec 6) (lk : BitVec 4) : dOf (wordR op d a b fn lk) = d := by
  unfold dOf wordR
  repeat (first | rw [extract_high (by decide)] | rw [extract_low (by decide)])
  exact BitVec.extractLsb'_eq_self

@[simp] theorem aOf_wordR (op : BitVec 7) (d : BitVec 5) (a : BitVec 5) (b : BitVec 5) (fn : BitVec 6) (lk : BitVec 4) : aOf (wordR op d a b fn lk) = a := by
  unfold aOf wordR
  repeat (first | rw [extract_high (by decide)] | rw [extract_low (by decide)])
  exact BitVec.extractLsb'_eq_self

@[simp] theorem bOf_wordR (op : BitVec 7) (d : BitVec 5) (a : BitVec 5) (b : BitVec 5) (fn : BitVec 6) (lk : BitVec 4) : bOf (wordR op d a b fn lk) = b := by
  unfold bOf wordR
  repeat (first | rw [extract_high (by decide)] | rw [extract_low (by decide)])
  exact BitVec.extractLsb'_eq_self

@[simp] theorem fnOf_wordR (op : BitVec 7) (d : BitVec 5) (a : BitVec 5) (b : BitVec 5) (fn : BitVec 6) (lk : BitVec 4) : fnOf (wordR op d a b fn lk) = fn := by
  unfold fnOf wordR
  repeat (first | rw [extract_high (by decide)] | rw [extract_low (by decide)])
  exact BitVec.extractLsb'_eq_self

@[simp] theorem lkOf_wordR (op : BitVec 7) (d : BitVec 5) (a : BitVec 5) (b : BitVec 5) (fn : BitVec 6) (lk : BitVec 4) : lkOf (wordR op d a b fn lk) = lk := by
  unfold lkOf wordR
  repeat (first | rw [extract_high (by decide)] | rw [extract_low (by decide)])
  exact BitVec.extractLsb'_eq_self

@[simp] theorem opOf_wordI (op : BitVec 7) (d : BitVec 5) (a : BitVec 5) (imm : BitVec 15) : opOf (wordI op d a imm) = op := by
  unfold opOf wordI
  repeat (first | rw [extract_high (by decide)] | rw [extract_low (by decide)])
  exact BitVec.extractLsb'_eq_self

@[simp] theorem dOf_wordI (op : BitVec 7) (d : BitVec 5) (a : BitVec 5) (imm : BitVec 15) : dOf (wordI op d a imm) = d := by
  unfold dOf wordI
  repeat (first | rw [extract_high (by decide)] | rw [extract_low (by decide)])
  exact BitVec.extractLsb'_eq_self

@[simp] theorem aOf_wordI (op : BitVec 7) (d : BitVec 5) (a : BitVec 5) (imm : BitVec 15) : aOf (wordI op d a imm) = a := by
  unfold aOf wordI
  repeat (first | rw [extract_high (by decide)] | rw [extract_low (by decide)])
  exact BitVec.extractLsb'_eq_self

@[simp] theorem immOf_wordI (op : BitVec 7) (d : BitVec 5) (a : BitVec 5) (imm : BitVec 15) : immOf (wordI op d a imm) = imm := by
  unfold immOf wordI
  repeat (first | rw [extract_high (by decide)] | rw [extract_low (by decide)])
  exact BitVec.extractLsb'_eq_self

@[simp] theorem opOf_wordU (op : BitVec 7) (d : BitVec 5) (imm : BitVec 20) : opOf (wordU op d imm) = op := by
  unfold opOf wordU
  repeat (first | rw [extract_high (by decide)] | rw [extract_low (by decide)])
  exact BitVec.extractLsb'_eq_self

@[simp] theorem dOf_wordU (op : BitVec 7) (d : BitVec 5) (imm : BitVec 20) : dOf (wordU op d imm) = d := by
  unfold dOf wordU
  repeat (first | rw [extract_high (by decide)] | rw [extract_low (by decide)])
  exact BitVec.extractLsb'_eq_self

@[simp] theorem imm20Of_wordU (op : BitVec 7) (d : BitVec 5) (imm : BitVec 20) : imm20Of (wordU op d imm) = imm := by
  unfold imm20Of wordU
  repeat (first | rw [extract_high (by decide)] | rw [extract_low (by decide)])
  exact BitVec.extractLsb'_eq_self

@[simp] theorem opOf_wordB (op : BitVec 7) (a : BitVec 5) (b : BitVec 5) (disp : BitVec 15) : opOf (wordB op a b disp) = op := by
  unfold opOf wordB
  repeat (first | rw [extract_high (by decide)] | rw [extract_low (by decide)])
  exact BitVec.extractLsb'_eq_self

@[simp] theorem dOf_wordB (op : BitVec 7) (a : BitVec 5) (b : BitVec 5) (disp : BitVec 15) : dOf (wordB op a b disp) = a := by
  unfold dOf wordB
  repeat (first | rw [extract_high (by decide)] | rw [extract_low (by decide)])
  exact BitVec.extractLsb'_eq_self

@[simp] theorem aOf_wordB (op : BitVec 7) (a : BitVec 5) (b : BitVec 5) (disp : BitVec 15) : aOf (wordB op a b disp) = b := by
  unfold aOf wordB
  repeat (first | rw [extract_high (by decide)] | rw [extract_low (by decide)])
  exact BitVec.extractLsb'_eq_self

@[simp] theorem immOf_wordB (op : BitVec 7) (a : BitVec 5) (b : BitVec 5) (disp : BitVec 15) : immOf (wordB op a b disp) = disp := by
  unfold immOf wordB
  repeat (first | rw [extract_high (by decide)] | rw [extract_low (by decide)])
  exact BitVec.extractLsb'_eq_self

@[simp] theorem opOf_wordJ (op : BitVec 7) (disp : BitVec 25) : opOf (wordJ op disp) = op := by
  unfold opOf wordJ
  repeat (first | rw [extract_high (by decide)] | rw [extract_low (by decide)])
  exact BitVec.extractLsb'_eq_self

@[simp] theorem disp25Of_wordJ (op : BitVec 7) (disp : BitVec 25) : disp25Of (wordJ op disp) = disp := by
  unfold disp25Of wordJ
  repeat (first | rw [extract_high (by decide)] | rw [extract_low (by decide)])
  exact BitVec.extractLsb'_eq_self

@[simp] theorem opOf_wordM (op : BitVec 7) (d : BitVec 5) (a : BitVec 5) (mode : BitVec 2) (rx : BitVec 1) (off : BitVec 8) (lk : BitVec 4) : opOf (wordM op d a mode rx off lk) = op := by
  unfold opOf wordM
  repeat (first | rw [extract_high (by decide)] | rw [extract_low (by decide)])
  exact BitVec.extractLsb'_eq_self

@[simp] theorem dOf_wordM (op : BitVec 7) (d : BitVec 5) (a : BitVec 5) (mode : BitVec 2) (rx : BitVec 1) (off : BitVec 8) (lk : BitVec 4) : dOf (wordM op d a mode rx off lk) = d := by
  unfold dOf wordM
  repeat (first | rw [extract_high (by decide)] | rw [extract_low (by decide)])
  exact BitVec.extractLsb'_eq_self

@[simp] theorem aOf_wordM (op : BitVec 7) (d : BitVec 5) (a : BitVec 5) (mode : BitVec 2) (rx : BitVec 1) (off : BitVec 8) (lk : BitVec 4) : aOf (wordM op d a mode rx off lk) = a := by
  unfold aOf wordM
  repeat (first | rw [extract_high (by decide)] | rw [extract_low (by decide)])
  exact BitVec.extractLsb'_eq_self

@[simp] theorem modeOf_wordM (op : BitVec 7) (d : BitVec 5) (a : BitVec 5) (mode : BitVec 2) (rx : BitVec 1) (off : BitVec 8) (lk : BitVec 4) : modeOf (wordM op d a mode rx off lk) = mode := by
  unfold modeOf wordM
  repeat (first | rw [extract_high (by decide)] | rw [extract_low (by decide)])
  exact BitVec.extractLsb'_eq_self

@[simp] theorem rxOf_wordM (op : BitVec 7) (d : BitVec 5) (a : BitVec 5) (mode : BitVec 2) (rx : BitVec 1) (off : BitVec 8) (lk : BitVec 4) : rxOf (wordM op d a mode rx off lk) = rx := by
  unfold rxOf wordM
  repeat (first | rw [extract_high (by decide)] | rw [extract_low (by decide)])
  exact BitVec.extractLsb'_eq_self

@[simp] theorem offOf_wordM (op : BitVec 7) (d : BitVec 5) (a : BitVec 5) (mode : BitVec 2) (rx : BitVec 1) (off : BitVec 8) (lk : BitVec 4) : offOf (wordM op d a mode rx off lk) = off := by
  unfold offOf wordM
  repeat (first | rw [extract_high (by decide)] | rw [extract_low (by decide)])
  exact BitVec.extractLsb'_eq_self

@[simp] theorem lkOf_wordM (op : BitVec 7) (d : BitVec 5) (a : BitVec 5) (mode : BitVec 2) (rx : BitVec 1) (off : BitVec 8) (lk : BitVec 4) : lkOf (wordM op d a mode rx off lk) = lk := by
  unfold lkOf wordM
  repeat (first | rw [extract_high (by decide)] | rw [extract_low (by decide)])
  exact BitVec.extractLsb'_eq_self

@[simp] theorem opOf_wordC (a : BitVec 5) (b : BitVec 5) (eng : BitVec 3) (cmd : BitVec 8) : opOf (wordC a b eng cmd) = 0x60#7 := by
  unfold opOf wordC
  repeat (first | rw [extract_high (by decide)] | rw [extract_low (by decide)])
  exact BitVec.extractLsb'_eq_self

@[simp] theorem dOf_wordC (a : BitVec 5) (b : BitVec 5) (eng : BitVec 3) (cmd : BitVec 8) : dOf (wordC a b eng cmd) = a := by
  unfold dOf wordC
  repeat (first | rw [extract_high (by decide)] | rw [extract_low (by decide)])
  exact BitVec.extractLsb'_eq_self

@[simp] theorem aOf_wordC (a : BitVec 5) (b : BitVec 5) (eng : BitVec 3) (cmd : BitVec 8) : aOf (wordC a b eng cmd) = b := by
  unfold aOf wordC
  repeat (first | rw [extract_high (by decide)] | rw [extract_low (by decide)])
  exact BitVec.extractLsb'_eq_self

@[simp] theorem engOf_wordC (a : BitVec 5) (b : BitVec 5) (eng : BitVec 3) (cmd : BitVec 8) : engOf (wordC a b eng cmd) = eng := by
  unfold engOf wordC
  repeat (first | rw [extract_high (by decide)] | rw [extract_low (by decide)])
  exact BitVec.extractLsb'_eq_self

@[simp] theorem cmdOf_wordC (a : BitVec 5) (b : BitVec 5) (eng : BitVec 3) (cmd : BitVec 8) : cmdOf (wordC a b eng cmd) = cmd := by
  unfold cmdOf wordC
  repeat (first | rw [extract_high (by decide)] | rw [extract_low (by decide)])
  exact BitVec.extractLsb'_eq_self

@[simp] theorem lkOf_wordC (a : BitVec 5) (b : BitVec 5) (eng : BitVec 3) (cmd : BitVec 8) : lkOf (wordC a b eng cmd) = 0#4 := by
  unfold lkOf wordC
  repeat (first | rw [extract_high (by decide)] | rw [extract_low (by decide)])
  exact BitVec.extractLsb'_eq_self

@[simp] theorem opOf_wordS (op : BitVec 7) (d : BitVec 5) (a : BitVec 5) (sreg : BitVec 12) (dir : BitVec 1) : opOf (wordS op d a sreg dir) = op := by
  unfold opOf wordS
  repeat (first | rw [extract_high (by decide)] | rw [extract_low (by decide)])
  exact BitVec.extractLsb'_eq_self

@[simp] theorem dOf_wordS (op : BitVec 7) (d : BitVec 5) (a : BitVec 5) (sreg : BitVec 12) (dir : BitVec 1) : dOf (wordS op d a sreg dir) = d := by
  unfold dOf wordS
  repeat (first | rw [extract_high (by decide)] | rw [extract_low (by decide)])
  exact BitVec.extractLsb'_eq_self

@[simp] theorem aOf_wordS (op : BitVec 7) (d : BitVec 5) (a : BitVec 5) (sreg : BitVec 12) (dir : BitVec 1) : aOf (wordS op d a sreg dir) = a := by
  unfold aOf wordS
  repeat (first | rw [extract_high (by decide)] | rw [extract_low (by decide)])
  exact BitVec.extractLsb'_eq_self

@[simp] theorem sregOf_wordS (op : BitVec 7) (d : BitVec 5) (a : BitVec 5) (sreg : BitVec 12) (dir : BitVec 1) : sregOf (wordS op d a sreg dir) = sreg := by
  unfold sregOf wordS
  repeat (first | rw [extract_high (by decide)] | rw [extract_low (by decide)])
  exact BitVec.extractLsb'_eq_self

@[simp] theorem dirOf_wordS (op : BitVec 7) (d : BitVec 5) (a : BitVec 5) (sreg : BitVec 12) (dir : BitVec 1) : dirOf (wordS op d a sreg dir) = dir := by
  unfold dirOf wordS
  repeat (first | rw [extract_high (by decide)] | rw [extract_low (by decide)])
  exact BitVec.extractLsb'_eq_self

@[simp] theorem restOf_wordS (op : BitVec 7) (d : BitVec 5) (a : BitVec 5) (sreg : BitVec 12) (dir : BitVec 1) : restOf (wordS op d a sreg dir) = 0#2 := by
  unfold restOf wordS
  repeat (first | rw [extract_high (by decide)] | rw [extract_low (by decide)])
  exact BitVec.extractLsb'_eq_self

@[simp] theorem highOf_wordR (op : BitVec 7) (d a b : Reg) (h r : BitVec 3) (lk : BitVec 4) : highOf (wordR op d a b (h ++ r) lk) = h := by
  unfold highOf wordR
  repeat (first | rw [extract_high (by decide)] | rw [extract_low (by decide)])
  exact BitVec.extractLsb'_eq_self

@[simp] theorem lowOf_wordR (op : BitVec 7) (d a b : Reg) (h r : BitVec 3) (lk : BitVec 4) : lowOf (wordR op d a b (h ++ r) lk) = r := by
  unfold lowOf wordR
  repeat (first | rw [extract_high (by decide)] | rw [extract_low (by decide)])
  exact BitVec.extractLsb'_eq_self

@[simp] theorem immTopOf_wordI (op : BitVec 7) (d a : Reg) (t : BitVec 9) (n : BitVec 6) : immTopOf (wordI op d a (t ++ n)) = t := by
  unfold immTopOf wordI
  repeat (first | rw [extract_high (by decide)] | rw [extract_low (by decide)])
  exact BitVec.extractLsb'_eq_self

@[simp] theorem shamtOf_wordI (op : BitVec 7) (d a : Reg) (t : BitVec 9) (n : BitVec 6) : shamtOf (wordI op d a (t ++ n)) = n := by
  unfold shamtOf wordI
  repeat (first | rw [extract_high (by decide)] | rw [extract_low (by decide)])
  exact BitVec.extractLsb'_eq_self

@[simp] theorem waitTopOf_wordI (op : BitVec 7) (d a : Reg) (t : BitVec 10) (n : BitVec 5) : waitTopOf (wordI op d a (t ++ n)) = t := by
  unfold waitTopOf wordI
  repeat (first | rw [extract_high (by decide)] | rw [extract_low (by decide)])
  exact BitVec.extractLsb'_eq_self

@[simp] theorem waitMaskOf_wordI (op : BitVec 7) (d a : Reg) (t : BitVec 10) (n : BitVec 5) : waitMaskOf (wordI op d a (t ++ n)) = n := by
  unfold waitMaskOf wordI
  repeat (first | rw [extract_high (by decide)] | rw [extract_low (by decide)])
  exact BitVec.extractLsb'_eq_self

@[simp] theorem lenOf_wordC (a b : Reg) (eng : BitVec 3) (n t : BitVec 4) : lenOf (wordC a b eng (n ++ t)) = n := by
  unfold lenOf wordC
  repeat (first | rw [extract_high (by decide)] | rw [extract_low (by decide)])
  exact BitVec.extractLsb'_eq_self

@[simp] theorem lenLowOf_wordC (a b : Reg) (eng : BitVec 3) (n t : BitVec 4) : lenLowOf (wordC a b eng (n ++ t)) = t := by
  unfold lenLowOf wordC
  repeat (first | rw [extract_high (by decide)] | rw [extract_low (by decide)])
  exact BitVec.extractLsb'_eq_self

@[simp] theorem engOf_wordS (op : BitVec 7) (d a : Reg) (e : BitVec 3) (n : BitVec 9) (dir : BitVec 1) : engOf (wordS op d a (e ++ n) dir) = e := by
  unfold engOf wordS
  repeat (first | rw [extract_high (by decide)] | rw [extract_low (by decide)])
  exact BitVec.extractLsb'_eq_self

@[simp] theorem ereg9Of_wordS (op : BitVec 7) (d a : Reg) (e : BitVec 3) (n : BitVec 9) (dir : BitVec 1) : ereg9Of (wordS op d a (e ++ n) dir) = n := by
  unfold ereg9Of wordS
  repeat (first | rw [extract_high (by decide)] | rw [extract_low (by decide)])
  exact BitVec.extractLsb'_eq_self

/-- The two halves of fn, where a format got it whole. -/
theorem highOf_wordR_fn (op : BitVec 7) (d a b : Reg) (fn : BitVec 6) (lk : BitVec 4) :
    highOf (wordR op d a b fn lk) = fn.extractLsb' 3 3 := by
  unfold highOf wordR
  rw [extract_high (by decide)]
  exact extract_low (v := 22) (x := op ++ d ++ a ++ b) (y := fn) (by decide)

theorem lowOf_wordR_fn (op : BitVec 7) (d a b : Reg) (fn : BitVec 6) (lk : BitVec 4) :
    lowOf (wordR op d a b fn lk) = fn.extractLsb' 0 3 := by
  unfold lowOf wordR
  rw [extract_high (by decide)]
  exact extract_low (v := 22) (x := op ++ d ++ a ++ b) (y := fn) (by decide)

theorem decode_01 {w : IWord} (h : opOf w = 0x01#7) :
    decode w = decodeInteger w := by
  unfold decode; rw [h]; rfl

theorem decode_02 {w : IWord} (h : opOf w = 0x02#7) :
    decode w = decodeBit w := by
  unfold decode; rw [h]; rfl

theorem decode_03 {w : IWord} (h : opOf w = 0x03#7) :
    decode w = decodePointer w := by
  unfold decode; rw [h]; rfl

theorem decode_08 {w : IWord} (h : opOf w = 0x08#7) :
    decode w = some (.addi (dOf w) (aOf w) (immOf w)) := by
  unfold decode; rw [h]; rfl

theorem decode_09 {w : IWord} (h : opOf w = 0x09#7) :
    decode w = some (.andi (dOf w) (aOf w) (immOf w)) := by
  unfold decode; rw [h]; rfl

theorem decode_0a {w : IWord} (h : opOf w = 0x0A#7) :
    decode w = some (.ori (dOf w) (aOf w) (immOf w)) := by
  unfold decode; rw [h]; rfl

theorem decode_0b {w : IWord} (h : opOf w = 0x0B#7) :
    decode w = some (.xori (dOf w) (aOf w) (immOf w)) := by
  unfold decode; rw [h]; rfl

theorem decode_0c {w : IWord} (h : opOf w = 0x0C#7) :
    decode w = if immTopOf w = 0#9 then some (.slli (dOf w) (aOf w) (shamtOf w)) else none := by
  unfold decode; rw [h]; rfl

theorem decode_0d {w : IWord} (h : opOf w = 0x0D#7) :
    decode w = if immTopOf w = 0#9 then some (.srli (dOf w) (aOf w) (shamtOf w)) else none := by
  unfold decode; rw [h]; rfl

theorem decode_0e {w : IWord} (h : opOf w = 0x0E#7) :
    decode w = if immTopOf w = 0#9 then some (.srai (dOf w) (aOf w) (shamtOf w)) else none := by
  unfold decode; rw [h]; rfl

theorem decode_0f {w : IWord} (h : opOf w = 0x0F#7) :
    decode w = some (.paddi (dOf w) (aOf w) (immOf w)) := by
  unfold decode; rw [h]; rfl

theorem decode_10 {w : IWord} (h : opOf w = 0x10#7) :
    decode w = some (.lui (dOf w) (imm20Of w)) := by
  unfold decode; rw [h]; rfl

theorem decode_20 {w : IWord} (h : opOf w = 0x20#7) :
    decode w = decodeFloatS w := by
  unfold decode; rw [h]; rfl

theorem decode_21 {w : IWord} (h : opOf w = 0x21#7) :
    decode w = decodeFloatD w := by
  unfold decode; rw [h]; rfl

theorem decode_22 {w : IWord} (h : opOf w = 0x22#7) :
    decode w = decodeFusedS w := by
  unfold decode; rw [h]; rfl

theorem decode_23 {w : IWord} (h : opOf w = 0x23#7) :
    decode w = decodeFusedD w := by
  unfold decode; rw [h]; rfl

theorem decode_24 {w : IWord} (h : opOf w = 0x24#7) :
    decode w = decodeCompare w := by
  unfold decode; rw [h]; rfl

theorem decode_25 {w : IWord} (h : opOf w = 0x25#7) :
    decode w = decodeConvert w := by
  unfold decode; rw [h]; rfl

theorem decode_30 {w : IWord} (h : opOf w = 0x30#7) :
    decode w = some (.beq (dOf w) (aOf w) (immOf w)) := by
  unfold decode; rw [h]; rfl

theorem decode_31 {w : IWord} (h : opOf w = 0x31#7) :
    decode w = some (.bne (dOf w) (aOf w) (immOf w)) := by
  unfold decode; rw [h]; rfl

theorem decode_32 {w : IWord} (h : opOf w = 0x32#7) :
    decode w = some (.blt (dOf w) (aOf w) (immOf w)) := by
  unfold decode; rw [h]; rfl

theorem decode_33 {w : IWord} (h : opOf w = 0x33#7) :
    decode w = some (.bge (dOf w) (aOf w) (immOf w)) := by
  unfold decode; rw [h]; rfl

theorem decode_34 {w : IWord} (h : opOf w = 0x34#7) :
    decode w = some (.bltu (dOf w) (aOf w) (immOf w)) := by
  unfold decode; rw [h]; rfl

theorem decode_35 {w : IWord} (h : opOf w = 0x35#7) :
    decode w = some (.bgeu (dOf w) (aOf w) (immOf w)) := by
  unfold decode; rw [h]; rfl

theorem decode_36 {w : IWord} (h : opOf w = 0x36#7) :
    decode w = some (.bbs (dOf w) (aOf w) (immOf w)) := by
  unfold decode; rw [h]; rfl

theorem decode_37 {w : IWord} (h : opOf w = 0x37#7) :
    decode w = some (.bbc (dOf w) (aOf w) (immOf w)) := by
  unfold decode; rw [h]; rfl

theorem decode_38 {w : IWord} (h : opOf w = 0x38#7) :
    decode w = some (.jal (disp25Of w)) := by
  unfold decode; rw [h]; rfl

theorem decode_39 {w : IWord} (h : opOf w = 0x39#7) :
    decode w = some (.jalr (dOf w) (aOf w) (immOf w)) := by
  unfold decode; rw [h]; rfl

theorem decode_3a {w : IWord} (h : opOf w = 0x3A#7) :
    decode w = if waitTopOf w = 0#10 then some (.wait (dOf w) (aOf w) (waitMaskOf w)) else none := by
  unfold decode; rw [h]; rfl

theorem decode_40 {w : IWord} (h : opOf w = 0x40#7) :
    decode w = some (.ldB (dOf w) (aOf w) (modeOf w) (rxOf w) (offOf w) (lkOf w)) := by
  unfold decode; rw [h]; rfl

theorem decode_41 {w : IWord} (h : opOf w = 0x41#7) :
    decode w = some (.ldH (dOf w) (aOf w) (modeOf w) (rxOf w) (offOf w) (lkOf w)) := by
  unfold decode; rw [h]; rfl

theorem decode_42 {w : IWord} (h : opOf w = 0x42#7) :
    decode w = some (.ldW (dOf w) (aOf w) (modeOf w) (rxOf w) (offOf w) (lkOf w)) := by
  unfold decode; rw [h]; rfl

theorem decode_43 {w : IWord} (h : opOf w = 0x43#7) :
    decode w = some (.ldD (dOf w) (aOf w) (modeOf w) (rxOf w) (offOf w) (lkOf w)) := by
  unfold decode; rw [h]; rfl

theorem decode_44 {w : IWord} (h : opOf w = 0x44#7) :
    decode w = some (.ldBu (dOf w) (aOf w) (modeOf w) (rxOf w) (offOf w) (lkOf w)) := by
  unfold decode; rw [h]; rfl

theorem decode_45 {w : IWord} (h : opOf w = 0x45#7) :
    decode w = some (.ldHu (dOf w) (aOf w) (modeOf w) (rxOf w) (offOf w) (lkOf w)) := by
  unfold decode; rw [h]; rfl

theorem decode_46 {w : IWord} (h : opOf w = 0x46#7) :
    decode w = some (.ldWu (dOf w) (aOf w) (modeOf w) (rxOf w) (offOf w) (lkOf w)) := by
  unfold decode; rw [h]; rfl

theorem decode_48 {w : IWord} (h : opOf w = 0x48#7) :
    decode w = if lkOf w = 0x0#4 then some (.stB (dOf w) (aOf w) (modeOf w) (rxOf w) (offOf w)) else none := by
  unfold decode; rw [h]; rfl

theorem decode_49 {w : IWord} (h : opOf w = 0x49#7) :
    decode w = if lkOf w = 0x0#4 then some (.stH (dOf w) (aOf w) (modeOf w) (rxOf w) (offOf w)) else none := by
  unfold decode; rw [h]; rfl

theorem decode_4a {w : IWord} (h : opOf w = 0x4A#7) :
    decode w = if lkOf w = 0x0#4 then some (.stW (dOf w) (aOf w) (modeOf w) (rxOf w) (offOf w)) else none := by
  unfold decode; rw [h]; rfl

theorem decode_4b {w : IWord} (h : opOf w = 0x4B#7) :
    decode w = if lkOf w = 0x0#4 then some (.stD (dOf w) (aOf w) (modeOf w) (rxOf w) (offOf w)) else none := by
  unfold decode; rw [h]; rfl

theorem decode_4c {w : IWord} (h : opOf w = 0x4C#7) :
    decode w = if rxOf w = 0x0#1 then some (.ldAcq (dOf w) (aOf w) (modeOf w) (offOf w) (lkOf w)) else none := by
  unfold decode; rw [h]; rfl

theorem decode_4d {w : IWord} (h : opOf w = 0x4D#7) :
    decode w = if rxOf w = 0x0#1 ∧ lkOf w = 0x0#4 then some (.stRel (dOf w) (aOf w) (modeOf w) (offOf w)) else none := by
  unfold decode; rw [h]; rfl

theorem decode_4e {w : IWord} (h : opOf w = 0x4E#7) :
    decode w = decodeFence w := by
  unfold decode; rw [h]; rfl

theorem decode_50 {w : IWord} (h : opOf w = 0x50#7) :
    decode w = decodeAmoD w := by
  unfold decode; rw [h]; rfl

theorem decode_51 {w : IWord} (h : opOf w = 0x51#7) :
    decode w = decodeAmoW w := by
  unfold decode; rw [h]; rfl

theorem decode_52 {w : IWord} (h : opOf w = 0x52#7) :
    decode w = if rxOf w = 0x0#1 then some (.lrw (dOf w) (aOf w) (modeOf w) (offOf w) (lkOf w)) else none := by
  unfold decode; rw [h]; rfl

theorem decode_53 {w : IWord} (h : opOf w = 0x53#7) :
    decode w = if fnOf w = 0x0#6 then some (.sc (dOf w) (aOf w) (bOf w) (lkOf w)) else none := by
  unfold decode; rw [h]; rfl

theorem decode_54 {w : IWord} (h : opOf w = 0x54#7) :
    decode w = decodeRup w := by
  unfold decode; rw [h]; rfl

theorem decode_58 {w : IWord} (h : opOf w = 0x58#7) :
    decode w = decodeBarrier w := by
  unfold decode; rw [h]; rfl

theorem decode_59 {w : IWord} (h : opOf w = 0x59#7) :
    decode w = decodeQueue w := by
  unfold decode; rw [h]; rfl

theorem decode_5a {w : IWord} (h : opOf w = 0x5A#7) :
    decode w = decodeEstate w := by
  unfold decode; rw [h]; rfl

theorem decode_60 {w : IWord} (h : opOf w = 0x60#7) :
    decode w = decodeCommand w := by
  unfold decode; rw [h]; rfl

theorem decode_61 {w : IWord} (h : opOf w = 0x61#7) :
    decode w = decodeResult w := by
  unfold decode; rw [h]; rfl

theorem decode_68 {w : IWord} (h : opOf w = 0x68#7) :
    decode w = decodeSysreg w := by
  unfold decode; rw [h]; rfl

theorem decode_69 {w : IWord} (h : opOf w = 0x69#7) :
    decode w = if aOf w = 0x0#5 ∧ dirOf w = 0x0#1 ∧ restOf w = 0x0#2 then some (.tsr (dOf w) (sregOf w)) else none := by
  unfold decode; rw [h]; rfl

theorem decode_6a {w : IWord} (h : opOf w = 0x6A#7) :
    decode w = if dOf w = 0x0#5 ∧ dirOf w = 0x1#1 ∧ restOf w = 0x0#2 then some (.ewr (aOf w) (engOf w) (ereg9Of w)) else none := by
  unfold decode; rw [h]; rfl

theorem decode_6b {w : IWord} (h : opOf w = 0x6B#7) :
    decode w = if dOf w = 0x0#5 ∧ aOf w = 0x0#5 then some (.trap (immOf w)) else none := by
  unfold decode; rw [h]; rfl

theorem decode_6c {w : IWord} (h : opOf w = 0x6C#7) :
    decode w = decodeReturn w := by
  unfold decode; rw [h]; rfl

theorem decode_6d {w : IWord} (h : opOf w = 0x6D#7) :
    decode w = decodeContext w := by
  unfold decode; rw [h]; rfl

theorem decode_6e {w : IWord} (h : opOf w = 0x6E#7) :
    decode w = decodeKernel w := by
  unfold decode; rw [h]; rfl

theorem decode_6f {w : IWord} (h : opOf w = 0x6F#7) :
    decode w = decodePage w := by
  unfold decode; rw [h]; rfl

end Sys2Proof.Laws
end

