-- ==== Sys2Proof/Laws/Issue.lean ====
section
/-! SUPPORT. What the issue of an instruction can do: Machine.issue, by cases of R50, R494 and R38. -/

namespace Sys2Proof.Laws

open Sys2Proof.Machine

/-- Where nothing stands in its way, an instruction has its own effect. -/
theorem issue_ready {i : Instr} {s : State} (f : State → Out) (h : ready i s = true) : issue i s f = f s := by
  simp only [ready, Bool.and_eq_true, Option.isNone_iff_eq_none, Bool.not_eq_true', Bool.or_eq_true,
    decide_eq_true_eq] at h
  obtain ⟨⟨hc, hm⟩, hl⟩ := h
  simp only [issue, hc, hm]
  rcases hl with hl | hl
  · simp [hl]
  · simp [show ¬ 8 ≤ (s.thr s.cur).allWindows.length by omega]

/-- A cause of R50 raises the exact illegal-instruction trap, and the instruction has no other effect. -/
theorem issue_illegal {i : Instr} {s : State} (f : State → Out) {c : Nat} (h : issueCause i s s.cur = some c) :
    issue i s f = .next (illegalTrap s s.cur c (encode i)) := by
  simp only [issue, h]

/-- An open acquire holds a memory instruction back (R494). -/
theorem issue_held {i : Instr} {s : State} (f : State → Out) (h : issueCause i s s.cur = none)
    (hm : memoryInstr i = true) (hh : heldBack (s.thr s.cur) = true) : issue i s f = .next s := by
  simp [issue, h, hm, hh, forfeit]

/-- Everything that issue can do: the trap, a forfeit, the effect, or what the close of the oldest window makes of it
(R38). -/
theorem issue_cases (i : Instr) (s : State) (f : State → Out) :
    (∃ c, issueCause i s s.cur = some c ∧ issue i s f = .next (illegalTrap s s.cur c (encode i))) ∨
    issue i s f = .next s ∨ issue i s f = f s ∨ issue i s f = issueLast s s.cur f := by
  cases hc : issueCause i s s.cur with
  | some c => exact .inl ⟨c, rfl, issue_illegal f hc⟩
  | none =>
    simp only [issue, hc, forfeit]
    by_cases hm : (memoryInstr i && heldBack (s.thr s.cur)) = true
    · exact .inr (.inl (if_pos hm))
    · rw [if_neg hm]
      split
      · exact .inr (.inr (.inr rfl))
      · exact .inr (.inr (.inl rfl))

/-- Everything that an issue with 8 windows open can do (R38): nothing, while the oldest cannot close; the close with the
refusal it brings (R160); the effect behind the close; or, where the instruction does not issue, the effect without it. -/
theorem issueLast_cases (s : State) (k : Nat) (f : State → Out) :
    (closeOldest s k = none ∧ issueLast s k f = .next s) ∨
    ∃ s', closeOldest s k = some s' ∧
      (issueLast s k f = .next s' ∨ issueLast s k f = f s' ∨ issueLast s k f = .next s ∨
        issueLast s k f = f (withRegisters s s' k) ∨
        ∃ v, f (withRegisters s s' k) = .next v ∧ issueLast s k f = .next (registersBack s v k)) := by
  cases h : closeOldest s k with
  | none => exact .inl ⟨rfl, by simp [issueLast, h, forfeit]⟩
  | some s' =>
    refine .inr ⟨s', rfl, ?_⟩
    by_cases hp : (s'.thr k).posted = []
    · simp only [issueLast, h, hp, forfeit, ne_eq, not_true_eq_false, if_false]
      cases hf : f s' with
      | next u =>
        simp only
        split
        · exact .inr (.inl rfl)
        · cases hg : f (withRegisters s s' k) with
          | next v =>
            simp only
            split
            · exact .inr (.inr (.inl rfl))
            · exact .inr (.inr (.inr (.inr ⟨v, rfl, rfl⟩)))
          | fault e => exact .inr (.inr (.inr (.inl rfl)))
          | refused e => exact .inr (.inr (.inr (.inl rfl)))
      | fault e => exact .inr (.inl rfl)
      | refused e => exact .inr (.inl rfl)
    · exact .inl (by simp [issueLast, h, hp, forfeit])

end Sys2Proof.Laws
end

