-- ==== Sys2Proof/Laws/Memory.lean ====
section
/-! SUPPORT. The laws of memory: a byte read after a write, and that every write keeps the canonical form. -/

namespace Sys2Proof.Machine

/-- The form from a higher bound on is the form from a lower one. -/
theorem memWf_mono {lo hi : Nat} (m : List Host.Cell) (h : lo ≤ hi) (hm : memWf hi m = true) : memWf lo m = true := by
  cases m with
  | nil => rfl
  | cons c m =>
    obtain ⟨a, b⟩ := c
    simp only [memWf, Bool.and_eq_true, decide_eq_true_eq] at hm ⊢
    exact ⟨⟨by omega, hm.1.2⟩, hm.2⟩

/-- Below the first cell everything reads blank. -/
theorem readByte_below {lo a : Nat} (m : List Host.Cell) (hm : memWf lo m = true) (h : a < lo) :
    readByte m a = blankByte := by
  cases m with
  | nil => rfl
  | cons c m =>
    obtain ⟨k, b⟩ := c
    simp only [memWf, Bool.and_eq_true, decide_eq_true_eq] at hm
    have hk : a < k := by omega
    simp [readByte, hk, show k ≠ a by omega]

/-- A write keeps the canonical form. -/
theorem writeByte_wf {lo a : Nat} (m : List Host.Cell) (v : Byte) (hm : memWf lo m = true) (h : lo ≤ a) :
    memWf lo (writeByte m a v) = true := by
  induction m generalizing lo with
  | nil => by_cases hv : v = blankByte <;> simp [writeByte, memWf, hv, h]
  | cons c m ih =>
    obtain ⟨k, b⟩ := c
    have hm' := hm
    simp only [memWf, Bool.and_eq_true, decide_eq_true_eq] at hm
    obtain ⟨⟨hk, hb⟩, hrest⟩ := hm
    rw [writeByte]
    by_cases hka : k = a
    · subst hka
      by_cases hv : v = blankByte
      · simp only [hv, if_true]
        exact memWf_mono m (by omega) hrest
      · simp [hv, memWf, h, hrest]
    · by_cases hlt : a < k
      · by_cases hv : v = blankByte
        · simpa [hka, hlt, hv] using hm'
        · simp only [hka, hlt, hv, if_true, if_false, memWf, Bool.and_eq_true, decide_eq_true_eq, bne_iff_ne]
          exact ⟨⟨h, hv⟩, ⟨by omega, by simpa using hb⟩, hrest⟩
      · simp only [hka, hlt, if_false, memWf, Bool.and_eq_true, decide_eq_true_eq]
        exact ⟨⟨hk, hb⟩, ih hrest (by omega)⟩

/-- The byte written is read. -/
theorem readByte_writeByte_same {lo : Nat} (m : List Host.Cell) (a : Nat) (v : Byte) (hm : memWf lo m = true) :
    readByte (writeByte m a v) a = v := by
  induction m generalizing lo with
  | nil => by_cases hv : v = blankByte <;> simp [writeByte, readByte, hv]
  | cons c m ih =>
    obtain ⟨k, b⟩ := c
    simp only [memWf, Bool.and_eq_true, decide_eq_true_eq] at hm
    rw [writeByte]
    by_cases hka : k = a
    · subst hka
      by_cases hv : v = blankByte
      · simp only [hv, if_true]
        exact readByte_below m hm.2 (by omega)
      · simp [hv, readByte]
    · by_cases hlt : a < k
      · by_cases hv : v = blankByte <;> simp [hka, hlt, hv, readByte]
      · simp only [hka, hlt, if_false, readByte]
        exact ih hm.2

/-- Every other byte reads as before. -/
theorem readByte_writeByte_other {lo : Nat} (m : List Host.Cell) (a j : Nat) (v : Byte) (hm : memWf lo m = true)
    (h : j ≠ a) : readByte (writeByte m a v) j = readByte m j := by
  induction m generalizing lo with
  | nil => by_cases hv : v = blankByte <;> simp [writeByte, readByte, hv, Ne.symm h]
  | cons c m ih =>
    obtain ⟨k, b⟩ := c
    simp only [memWf, Bool.and_eq_true, decide_eq_true_eq] at hm
    rw [writeByte]
    by_cases hka : k = a
    · subst hka
      by_cases hv : v = blankByte
      · simp only [hv, if_true, readByte, Ne.symm h, if_false]
        by_cases hjk : j < k
        · simp only [hjk, if_true]
          exact readByte_below m hm.2 (by omega)
        · simp [hjk]
      · simp [hv, readByte, Ne.symm h]
    · by_cases hlt : a < k
      · by_cases hv : v = blankByte
        · simp [hka, hlt, hv]
        · simp only [hka, hlt, hv, if_true, if_false, readByte, Ne.symm h]
          by_cases hja : j < a
          · simp [hja, show j < k by omega, show k ≠ j by omega]
          · simp [hja]
      · simp only [hka, hlt, if_false, readByte]
        by_cases hkj : k = j
        · simp [hkj]
        · by_cases hjk : j < k
          · simp [hkj, hjk]
          · simp only [hkj, hjk, if_false]
            exact ih hm.2

theorem writeBytes_wf (n : Nat) : ∀ (m : List Host.Cell) (a v : Nat), Memory.wf m → Memory.wf (writeBytes m a n v) := by
  induction n with
  | zero => intro m a v h; exact h
  | succ n ih => intro m a v h; exact ih _ _ _ (writeByte_wf m _ h (Nat.zero_le a))

theorem writeWord_wf (m : List Host.Cell) (a : Nat) (v : Word) (h : Memory.wf m) : Memory.wf (writeWord m a v) :=
  writeBytes_wf 8 m a v.toNat h

theorem writeWords_wf (vs : List Word) : ∀ (m : List Host.Cell) (a : Nat), Memory.wf m → Memory.wf (writeWords m a vs) := by
  induction vs with
  | nil => intro m a h; exact h
  | cons v vs ih => intro m a h; exact ih _ _ (writeWord_wf m a v h)

theorem writeList_wf (bs : List Byte) : ∀ (m : List Host.Cell) (a : Nat), Memory.wf m → Memory.wf (writeList m a bs) := by
  induction bs with
  | nil => intro m a h; exact h
  | cons b bs ih => intro m a h; exact ih _ _ (writeByte_wf m b h (Nat.zero_le a))

/-- Outside the bytes written everything reads as before. -/
theorem readByte_writeBytes_other (n : Nat) : ∀ (m : List Host.Cell) (a v j : Nat), Memory.wf m →
    (j < a ∨ a + n ≤ j) → readByte (writeBytes m a n v) j = readByte m j := by
  induction n with
  | zero => intro m a v j _ _; rfl
  | succ n ih =>
    intro m a v j hm h
    rw [writeBytes, ih _ _ _ _ (writeByte_wf m _ hm (Nat.zero_le a)) (by omega)]
    exact readByte_writeByte_other m a j _ hm (by omega)

/-- The bytes written read back as the low bytes of the number. -/
theorem readBytes_writeBytes (n : Nat) : ∀ (m : List Host.Cell) (a v : Nat), Memory.wf m →
    readBytes (writeBytes m a n v) a n = v % 256 ^ n := by
  induction n with
  | zero => intro m a v _; simp [readBytes, Nat.mod_one]
  | succ n ih =>
    intro m a v hm
    have hw := writeByte_wf m (BitVec.ofNat 8 v) hm (Nat.zero_le a)
    rw [readBytes, writeBytes, ih _ _ _ hw, readByte_writeBytes_other n _ _ _ _ hw (by omega),
      readByte_writeByte_same m a _ hm, BitVec.toNat_ofNat, show 256 ^ (n + 1) = 256 * 256 ^ n by rw [Nat.pow_succ, Nat.mul_comm], Nat.mod_mul]

/-- A doubleword written is read back. -/
theorem readWord_writeWord (m : List Host.Cell) (a : Nat) (v : Word) (hm : Memory.wf m) :
    readWord (writeWord m a v) a = v := by
  have h := v.isLt
  rw [readWord, writeWord, readBytes_writeBytes 8 m a v.toNat hm, Nat.mod_eq_of_lt (by simpa using h)]
  simp

/-- The module's memory after reset is in canonical form. -/
theorem reset_memory_wf : Memory.wf State.reset.mem := rfl

end Sys2Proof.Machine
end

