-- ==== Sys2Proof/Laws/State.lean ====
section
/-! SUPPORT. What the updates of the state leave in each of its fields, and reading a table after writing it. -/

namespace Sys2Proof.Machine

/-! Tables. -/

@[simp] theorem tabGet_tabSet_same {α : Type} (dflt : α) (t : Tab α) (k : Nat) (v : α) :
    tabGet dflt (tabSet t k v) k = v := by
  induction t with
  | nil => simp [tabSet, tabGet]
  | cons x t ih =>
    obtain ⟨j, w⟩ := x
    by_cases h : j = k
    · simp [tabSet, tabGet, h]
    · by_cases hk : k < j <;> simp [tabSet, tabGet, h, hk, ih]

theorem tabGet_tabSet_other {α : Type} (dflt : α) (t : Tab α) (k j : Nat) (v : α) (h : j ≠ k) :
    tabGet dflt (tabSet t k v) j = tabGet dflt t j := by
  induction t with
  | nil => simp [tabSet, tabGet, Ne.symm h]
  | cons x t ih =>
    obtain ⟨i, w⟩ := x
    by_cases hi : i = k
    · subst hi
      simp [tabSet, tabGet, Ne.symm h]
    · by_cases hk : k < i
      · simp [tabSet, hi, hk, tabGet, Ne.symm h]
      · rw [tabSet, if_neg hi, if_neg hk, tabGet, tabGet, ih]

/-- One reading for both. -/
theorem tabGet_tabSet {α : Type} (dflt : α) (t : Tab α) (k j : Nat) (v : α) :
    tabGet dflt (tabSet t k v) j = if j = k then v else tabGet dflt t j := by
  by_cases h : j = k
  · simp [h]
  · simp [h, tabGet_tabSet_other]

/-- The second of two writes to one place stays. -/
@[simp] theorem tabSet_tabSet {α : Type} (t : Tab α) (k : Nat) (v w : α) :
    tabSet (tabSet t k v) k w = tabSet t k w := by
  induction t with
  | nil => simp [tabSet]
  | cons x t ih =>
    obtain ⟨j, u⟩ := x
    by_cases h : j = k
    · simp [tabSet, h]
    · by_cases hk : k < j <;> simp [tabSet, h, hk, ih]

/-! setThr. -/

@[simp] theorem setThr_threads (s : State) (k : Nat) (t : Thread) : (s.setThr k t).threads = tabSet s.threads k t := rfl
@[simp] theorem setThr_cores (s : State) (k : Nat) (t : Thread) : (s.setThr k t).cores = s.cores := rfl
@[simp] theorem setThr_dies (s : State) (k : Nat) (t : Thread) : (s.setThr k t).dies = s.dies := rfl
@[simp] theorem setThr_mem (s : State) (k : Nat) (t : Thread) : (s.setThr k t).mem = s.mem := rfl
@[simp] theorem setThr_cur (s : State) (k : Nat) (t : Thread) : (s.setThr k t).cur = s.cur := rfl
@[simp] theorem setThr_ck (s : State) (k : Nat) (t : Thread) : (s.setThr k t).ck = s.ck := rfl
@[simp] theorem setThr_time (s : State) (k : Nat) (t : Thread) : (s.setThr k t).time = s.time := rfl
@[simp] theorem setThr_phase (s : State) (k : Nat) (t : Thread) : (s.setThr k t).phase = s.phase := rfl
@[simp] theorem setThr_ppm (s : State) (k : Nat) (t : Thread) : (s.setThr k t).ppm = s.ppm := rfl
@[simp] theorem setThr_nonce (s : State) (k : Nat) (t : Thread) : (s.setThr k t).nonce = s.nonce := rfl
@[simp] theorem setThr_work (s : State) (k : Nat) (t : Thread) : (s.setThr k t).work = s.work := rfl
@[simp] theorem setThr_due (s : State) (k : Nat) (t : Thread) : (s.setThr k t).due = s.due := rfl
@[simp] theorem setThr_diemap0 (s : State) (k : Nat) (t : Thread) : (s.setThr k t).diemap0 = s.diemap0 := rfl
@[simp] theorem setThr_diemap1 (s : State) (k : Nat) (t : Thread) : (s.setThr k t).diemap1 = s.diemap1 := rfl
@[simp] theorem setThr_dieret (s : State) (k : Nat) (t : Thread) : (s.setThr k t).dieret = s.dieret := rfl
@[simp] theorem setThr_asidtab (s : State) (k : Nat) (t : Thread) : (s.setThr k t).asidtab = s.asidtab := rfl
@[simp] theorem setThr_barriers (s : State) (k : Nat) (t : Thread) : (s.setThr k t).barriers = s.barriers := rfl
@[simp] theorem setThr_vfs (s : State) (k : Nat) (t : Thread) : (s.setThr k t).vfs = s.vfs := rfl
@[simp] theorem setThr_vfsel (s : State) (k : Nat) (t : Thread) : (s.setThr k t).vfsel = s.vfsel := rfl
@[simp] theorem setThr_pnsel (s : State) (k : Nat) (t : Thread) : (s.setThr k t).pnsel = s.pnsel := rfl
@[simp] theorem setThr_poison (s : State) (k : Nat) (t : Thread) : (s.setThr k t).poison = s.poison := rfl
@[simp] theorem setThr_erring (s : State) (k : Nat) (t : Thread) : (s.setThr k t).erring = s.erring := rfl
@[simp] theorem setThr_romMap (s : State) (k : Nat) (t : Thread) : (s.setThr k t).romMap = s.romMap := rfl
@[simp] theorem setThr_entry (s : State) (k : Nat) (t : Thread) : (s.setThr k t).entry = s.entry := rfl
@[simp] theorem setThr_awaiters (s : State) (k : Nat) (t : Thread) : (s.setThr k t).awaiters = s.awaiters := rfl
@[simp] theorem setThr_bound (s : State) (k : Nat) (t : Thread) : (s.setThr k t).bound = s.bound := rfl
@[simp] theorem setThr_keyTables (s : State) (k : Nat) (t : Thread) : (s.setThr k t).keyTables = s.keyTables := rfl
@[simp] theorem setThr_bindReport (s : State) (k : Nat) (t : Thread) : (s.setThr k t).bindReport = s.bindReport := rfl
@[simp] theorem setThr_flash (s : State) (k : Nat) (t : Thread) : (s.setThr k t).flash = s.flash := rfl
@[simp] theorem setThr_bootstat (s : State) (k : Nat) (t : Thread) : (s.setThr k t).bootstat = s.bootstat := rfl
@[simp] theorem setThr_imageHash (s : State) (k : Nat) (t : Thread) : (s.setThr k t).imageHash = s.imageHash := rfl
@[simp] theorem setThr_irqroute (s : State) (k : Nat) (t : Thread) : (s.setThr k t).irqroute = s.irqroute := rfl
@[simp] theorem setThr_hdb (s : State) (k : Nat) (t : Thread) : (s.setThr k t).hdb = s.hdb := rfl
@[simp] theorem setThr_flr (s : State) (k : Nat) (t : Thread) : (s.setThr k t).flr = s.flr := rfl
@[simp] theorem setThr_power (s : State) (k : Nat) (t : Thread) : (s.setThr k t).power = s.power := rfl
@[simp] theorem setThr_powerSeen (s : State) (k : Nat) (t : Thread) : (s.setThr k t).powerSeen = s.powerSeen := rfl
@[simp] theorem setThr_lostModules (s : State) (k : Nat) (t : Thread) : (s.setThr k t).lostModules = s.lostModules := rfl
@[simp] theorem setThr_loadedOnce (s : State) (k : Nat) (t : Thread) : (s.setThr k t).loadedOnce = s.loadedOnce := rfl
@[simp] theorem setThr_heldKills (s : State) (k : Nat) (t : Thread) : (s.setThr k t).heldKills = s.heldKills := rfl
@[simp] theorem setThr_savedArgs (s : State) (k : Nat) (t : Thread) : (s.setThr k t).savedArgs = s.savedArgs := rfl
@[simp] theorem setThr_spdm (s : State) (k : Nat) (t : Thread) : (s.setThr k t).spdm = s.spdm := rfl
@[simp] theorem setThr_sticky (s : State) (k : Nat) (t : Thread) : (s.setThr k t).sticky = s.sticky := rfl
@[simp] theorem setThr_ranks (s : State) (k : Nat) (t : Thread) : (s.setThr k t).ranks = s.ranks := rfl
@[simp] theorem setThr_transit (s : State) (k : Nat) (t : Thread) : (s.setThr k t).transit = s.transit := rfl

/-! setCore. -/

@[simp] theorem setCore_threads (s : State) (c : Nat) (x : Core) : (s.setCore c x).threads = s.threads := rfl
@[simp] theorem setCore_cores (s : State) (c : Nat) (x : Core) : (s.setCore c x).cores = tabSet s.cores c x := rfl
@[simp] theorem setCore_dies (s : State) (c : Nat) (x : Core) : (s.setCore c x).dies = s.dies := rfl
@[simp] theorem setCore_mem (s : State) (c : Nat) (x : Core) : (s.setCore c x).mem = s.mem := rfl
@[simp] theorem setCore_cur (s : State) (c : Nat) (x : Core) : (s.setCore c x).cur = s.cur := rfl
@[simp] theorem setCore_ck (s : State) (c : Nat) (x : Core) : (s.setCore c x).ck = s.ck := rfl
@[simp] theorem setCore_time (s : State) (c : Nat) (x : Core) : (s.setCore c x).time = s.time := rfl
@[simp] theorem setCore_phase (s : State) (c : Nat) (x : Core) : (s.setCore c x).phase = s.phase := rfl
@[simp] theorem setCore_ppm (s : State) (c : Nat) (x : Core) : (s.setCore c x).ppm = s.ppm := rfl
@[simp] theorem setCore_nonce (s : State) (c : Nat) (x : Core) : (s.setCore c x).nonce = s.nonce := rfl
@[simp] theorem setCore_work (s : State) (c : Nat) (x : Core) : (s.setCore c x).work = s.work := rfl
@[simp] theorem setCore_due (s : State) (c : Nat) (x : Core) : (s.setCore c x).due = s.due := rfl
@[simp] theorem setCore_diemap0 (s : State) (c : Nat) (x : Core) : (s.setCore c x).diemap0 = s.diemap0 := rfl
@[simp] theorem setCore_diemap1 (s : State) (c : Nat) (x : Core) : (s.setCore c x).diemap1 = s.diemap1 := rfl
@[simp] theorem setCore_dieret (s : State) (c : Nat) (x : Core) : (s.setCore c x).dieret = s.dieret := rfl
@[simp] theorem setCore_asidtab (s : State) (c : Nat) (x : Core) : (s.setCore c x).asidtab = s.asidtab := rfl
@[simp] theorem setCore_barriers (s : State) (c : Nat) (x : Core) : (s.setCore c x).barriers = s.barriers := rfl
@[simp] theorem setCore_vfs (s : State) (c : Nat) (x : Core) : (s.setCore c x).vfs = s.vfs := rfl
@[simp] theorem setCore_vfsel (s : State) (c : Nat) (x : Core) : (s.setCore c x).vfsel = s.vfsel := rfl
@[simp] theorem setCore_pnsel (s : State) (c : Nat) (x : Core) : (s.setCore c x).pnsel = s.pnsel := rfl
@[simp] theorem setCore_poison (s : State) (c : Nat) (x : Core) : (s.setCore c x).poison = s.poison := rfl
@[simp] theorem setCore_erring (s : State) (c : Nat) (x : Core) : (s.setCore c x).erring = s.erring := rfl
@[simp] theorem setCore_romMap (s : State) (c : Nat) (x : Core) : (s.setCore c x).romMap = s.romMap := rfl
@[simp] theorem setCore_entry (s : State) (c : Nat) (x : Core) : (s.setCore c x).entry = s.entry := rfl
@[simp] theorem setCore_awaiters (s : State) (c : Nat) (x : Core) : (s.setCore c x).awaiters = s.awaiters := rfl
@[simp] theorem setCore_bound (s : State) (c : Nat) (x : Core) : (s.setCore c x).bound = s.bound := rfl
@[simp] theorem setCore_keyTables (s : State) (c : Nat) (x : Core) : (s.setCore c x).keyTables = s.keyTables := rfl
@[simp] theorem setCore_bindReport (s : State) (c : Nat) (x : Core) : (s.setCore c x).bindReport = s.bindReport := rfl
@[simp] theorem setCore_flash (s : State) (c : Nat) (x : Core) : (s.setCore c x).flash = s.flash := rfl
@[simp] theorem setCore_bootstat (s : State) (c : Nat) (x : Core) : (s.setCore c x).bootstat = s.bootstat := rfl
@[simp] theorem setCore_imageHash (s : State) (c : Nat) (x : Core) : (s.setCore c x).imageHash = s.imageHash := rfl
@[simp] theorem setCore_irqroute (s : State) (c : Nat) (x : Core) : (s.setCore c x).irqroute = s.irqroute := rfl
@[simp] theorem setCore_hdb (s : State) (c : Nat) (x : Core) : (s.setCore c x).hdb = s.hdb := rfl
@[simp] theorem setCore_flr (s : State) (c : Nat) (x : Core) : (s.setCore c x).flr = s.flr := rfl
@[simp] theorem setCore_power (s : State) (c : Nat) (x : Core) : (s.setCore c x).power = s.power := rfl
@[simp] theorem setCore_powerSeen (s : State) (c : Nat) (x : Core) : (s.setCore c x).powerSeen = s.powerSeen := rfl
@[simp] theorem setCore_lostModules (s : State) (c : Nat) (x : Core) : (s.setCore c x).lostModules = s.lostModules := rfl
@[simp] theorem setCore_loadedOnce (s : State) (c : Nat) (x : Core) : (s.setCore c x).loadedOnce = s.loadedOnce := rfl
@[simp] theorem setCore_heldKills (s : State) (c : Nat) (x : Core) : (s.setCore c x).heldKills = s.heldKills := rfl
@[simp] theorem setCore_savedArgs (s : State) (c : Nat) (x : Core) : (s.setCore c x).savedArgs = s.savedArgs := rfl
@[simp] theorem setCore_spdm (s : State) (c : Nat) (x : Core) : (s.setCore c x).spdm = s.spdm := rfl
@[simp] theorem setCore_sticky (s : State) (c : Nat) (x : Core) : (s.setCore c x).sticky = s.sticky := rfl
@[simp] theorem setCore_ranks (s : State) (c : Nat) (x : Core) : (s.setCore c x).ranks = s.ranks := rfl
@[simp] theorem setCore_transit (s : State) (c : Nat) (x : Core) : (s.setCore c x).transit = s.transit := rfl

/-! setDie. -/

@[simp] theorem setDie_threads (s : State) (d : Nat) (x : Die) : (s.setDie d x).threads = s.threads := rfl
@[simp] theorem setDie_cores (s : State) (d : Nat) (x : Die) : (s.setDie d x).cores = s.cores := rfl
@[simp] theorem setDie_dies (s : State) (d : Nat) (x : Die) : (s.setDie d x).dies = tabSet s.dies d x := rfl
@[simp] theorem setDie_mem (s : State) (d : Nat) (x : Die) : (s.setDie d x).mem = s.mem := rfl
@[simp] theorem setDie_cur (s : State) (d : Nat) (x : Die) : (s.setDie d x).cur = s.cur := rfl
@[simp] theorem setDie_ck (s : State) (d : Nat) (x : Die) : (s.setDie d x).ck = s.ck := rfl
@[simp] theorem setDie_time (s : State) (d : Nat) (x : Die) : (s.setDie d x).time = s.time := rfl
@[simp] theorem setDie_phase (s : State) (d : Nat) (x : Die) : (s.setDie d x).phase = s.phase := rfl
@[simp] theorem setDie_ppm (s : State) (d : Nat) (x : Die) : (s.setDie d x).ppm = s.ppm := rfl
@[simp] theorem setDie_nonce (s : State) (d : Nat) (x : Die) : (s.setDie d x).nonce = s.nonce := rfl
@[simp] theorem setDie_work (s : State) (d : Nat) (x : Die) : (s.setDie d x).work = s.work := rfl
@[simp] theorem setDie_due (s : State) (d : Nat) (x : Die) : (s.setDie d x).due = s.due := rfl
@[simp] theorem setDie_diemap0 (s : State) (d : Nat) (x : Die) : (s.setDie d x).diemap0 = s.diemap0 := rfl
@[simp] theorem setDie_diemap1 (s : State) (d : Nat) (x : Die) : (s.setDie d x).diemap1 = s.diemap1 := rfl
@[simp] theorem setDie_dieret (s : State) (d : Nat) (x : Die) : (s.setDie d x).dieret = s.dieret := rfl
@[simp] theorem setDie_asidtab (s : State) (d : Nat) (x : Die) : (s.setDie d x).asidtab = s.asidtab := rfl
@[simp] theorem setDie_barriers (s : State) (d : Nat) (x : Die) : (s.setDie d x).barriers = s.barriers := rfl
@[simp] theorem setDie_vfs (s : State) (d : Nat) (x : Die) : (s.setDie d x).vfs = s.vfs := rfl
@[simp] theorem setDie_vfsel (s : State) (d : Nat) (x : Die) : (s.setDie d x).vfsel = s.vfsel := rfl
@[simp] theorem setDie_pnsel (s : State) (d : Nat) (x : Die) : (s.setDie d x).pnsel = s.pnsel := rfl
@[simp] theorem setDie_poison (s : State) (d : Nat) (x : Die) : (s.setDie d x).poison = s.poison := rfl
@[simp] theorem setDie_erring (s : State) (d : Nat) (x : Die) : (s.setDie d x).erring = s.erring := rfl
@[simp] theorem setDie_romMap (s : State) (d : Nat) (x : Die) : (s.setDie d x).romMap = s.romMap := rfl
@[simp] theorem setDie_entry (s : State) (d : Nat) (x : Die) : (s.setDie d x).entry = s.entry := rfl
@[simp] theorem setDie_awaiters (s : State) (d : Nat) (x : Die) : (s.setDie d x).awaiters = s.awaiters := rfl
@[simp] theorem setDie_bound (s : State) (d : Nat) (x : Die) : (s.setDie d x).bound = s.bound := rfl
@[simp] theorem setDie_keyTables (s : State) (d : Nat) (x : Die) : (s.setDie d x).keyTables = s.keyTables := rfl
@[simp] theorem setDie_bindReport (s : State) (d : Nat) (x : Die) : (s.setDie d x).bindReport = s.bindReport := rfl
@[simp] theorem setDie_flash (s : State) (d : Nat) (x : Die) : (s.setDie d x).flash = s.flash := rfl
@[simp] theorem setDie_bootstat (s : State) (d : Nat) (x : Die) : (s.setDie d x).bootstat = s.bootstat := rfl
@[simp] theorem setDie_imageHash (s : State) (d : Nat) (x : Die) : (s.setDie d x).imageHash = s.imageHash := rfl
@[simp] theorem setDie_irqroute (s : State) (d : Nat) (x : Die) : (s.setDie d x).irqroute = s.irqroute := rfl
@[simp] theorem setDie_hdb (s : State) (d : Nat) (x : Die) : (s.setDie d x).hdb = s.hdb := rfl
@[simp] theorem setDie_flr (s : State) (d : Nat) (x : Die) : (s.setDie d x).flr = s.flr := rfl
@[simp] theorem setDie_power (s : State) (d : Nat) (x : Die) : (s.setDie d x).power = s.power := rfl
@[simp] theorem setDie_powerSeen (s : State) (d : Nat) (x : Die) : (s.setDie d x).powerSeen = s.powerSeen := rfl
@[simp] theorem setDie_lostModules (s : State) (d : Nat) (x : Die) : (s.setDie d x).lostModules = s.lostModules := rfl
@[simp] theorem setDie_loadedOnce (s : State) (d : Nat) (x : Die) : (s.setDie d x).loadedOnce = s.loadedOnce := rfl
@[simp] theorem setDie_heldKills (s : State) (d : Nat) (x : Die) : (s.setDie d x).heldKills = s.heldKills := rfl
@[simp] theorem setDie_savedArgs (s : State) (d : Nat) (x : Die) : (s.setDie d x).savedArgs = s.savedArgs := rfl
@[simp] theorem setDie_spdm (s : State) (d : Nat) (x : Die) : (s.setDie d x).spdm = s.spdm := rfl
@[simp] theorem setDie_sticky (s : State) (d : Nat) (x : Die) : (s.setDie d x).sticky = s.sticky := rfl
@[simp] theorem setDie_ranks (s : State) (d : Nat) (x : Die) : (s.setDie d x).ranks = s.ranks := rfl
@[simp] theorem setDie_transit (s : State) (d : Nat) (x : Die) : (s.setDie d x).transit = s.transit := rfl

/-! tick. -/

@[simp] theorem tick_threads (s : State) : (s.tick).threads = s.threads := rfl
@[simp] theorem tick_cores (s : State) : (s.tick).cores = s.cores := rfl
@[simp] theorem tick_dies (s : State) : (s.tick).dies = s.dies := rfl
@[simp] theorem tick_mem (s : State) : (s.tick).mem = s.mem := rfl
@[simp] theorem tick_cur (s : State) : (s.tick).cur = s.cur := rfl
@[simp] theorem tick_ck (s : State) : (s.tick).ck = s.ck := rfl
@[simp] theorem tick_time (s : State) : (s.tick).time = s.time := rfl
@[simp] theorem tick_phase (s : State) : (s.tick).phase = s.phase := rfl
@[simp] theorem tick_ppm (s : State) : (s.tick).ppm = s.ppm := rfl
@[simp] theorem tick_nonce (s : State) : (s.tick).nonce = s.nonce + 1 := rfl
@[simp] theorem tick_work (s : State) : (s.tick).work = s.work := rfl
@[simp] theorem tick_due (s : State) : (s.tick).due = s.due := rfl
@[simp] theorem tick_diemap0 (s : State) : (s.tick).diemap0 = s.diemap0 := rfl
@[simp] theorem tick_diemap1 (s : State) : (s.tick).diemap1 = s.diemap1 := rfl
@[simp] theorem tick_dieret (s : State) : (s.tick).dieret = s.dieret := rfl
@[simp] theorem tick_asidtab (s : State) : (s.tick).asidtab = s.asidtab := rfl
@[simp] theorem tick_barriers (s : State) : (s.tick).barriers = s.barriers := rfl
@[simp] theorem tick_vfs (s : State) : (s.tick).vfs = s.vfs := rfl
@[simp] theorem tick_vfsel (s : State) : (s.tick).vfsel = s.vfsel := rfl
@[simp] theorem tick_pnsel (s : State) : (s.tick).pnsel = s.pnsel := rfl
@[simp] theorem tick_poison (s : State) : (s.tick).poison = s.poison := rfl
@[simp] theorem tick_erring (s : State) : (s.tick).erring = s.erring := rfl
@[simp] theorem tick_romMap (s : State) : (s.tick).romMap = s.romMap := rfl
@[simp] theorem tick_entry (s : State) : (s.tick).entry = s.entry := rfl
@[simp] theorem tick_awaiters (s : State) : (s.tick).awaiters = s.awaiters := rfl
@[simp] theorem tick_bound (s : State) : (s.tick).bound = s.bound := rfl
@[simp] theorem tick_keyTables (s : State) : (s.tick).keyTables = s.keyTables := rfl
@[simp] theorem tick_bindReport (s : State) : (s.tick).bindReport = s.bindReport := rfl
@[simp] theorem tick_flash (s : State) : (s.tick).flash = s.flash := rfl
@[simp] theorem tick_bootstat (s : State) : (s.tick).bootstat = s.bootstat := rfl
@[simp] theorem tick_imageHash (s : State) : (s.tick).imageHash = s.imageHash := rfl
@[simp] theorem tick_irqroute (s : State) : (s.tick).irqroute = s.irqroute := rfl
@[simp] theorem tick_hdb (s : State) : (s.tick).hdb = s.hdb := rfl
@[simp] theorem tick_flr (s : State) : (s.tick).flr = s.flr := rfl
@[simp] theorem tick_power (s : State) : (s.tick).power = s.power := rfl
@[simp] theorem tick_powerSeen (s : State) : (s.tick).powerSeen = s.powerSeen := rfl
@[simp] theorem tick_lostModules (s : State) : (s.tick).lostModules = s.lostModules := rfl
@[simp] theorem tick_loadedOnce (s : State) : (s.tick).loadedOnce = s.loadedOnce := rfl
@[simp] theorem tick_heldKills (s : State) : (s.tick).heldKills = s.heldKills := rfl
@[simp] theorem tick_savedArgs (s : State) : (s.tick).savedArgs = s.savedArgs := rfl
@[simp] theorem tick_spdm (s : State) : (s.tick).spdm = s.spdm := rfl
@[simp] theorem tick_sticky (s : State) : (s.tick).sticky = s.sticky := rfl
@[simp] theorem tick_ranks (s : State) : (s.tick).ranks = s.ranks := rfl
@[simp] theorem tick_transit (s : State) : (s.tick).transit = s.transit := rfl

/-! later. -/

@[simp] theorem later_threads (s : State) (e : Event) : (s.later e).threads = s.threads := rfl
@[simp] theorem later_cores (s : State) (e : Event) : (s.later e).cores = s.cores := rfl
@[simp] theorem later_dies (s : State) (e : Event) : (s.later e).dies = s.dies := rfl
@[simp] theorem later_mem (s : State) (e : Event) : (s.later e).mem = s.mem := rfl
@[simp] theorem later_cur (s : State) (e : Event) : (s.later e).cur = s.cur := rfl
@[simp] theorem later_ck (s : State) (e : Event) : (s.later e).ck = s.ck := rfl
@[simp] theorem later_time (s : State) (e : Event) : (s.later e).time = s.time := rfl
@[simp] theorem later_phase (s : State) (e : Event) : (s.later e).phase = s.phase := rfl
@[simp] theorem later_ppm (s : State) (e : Event) : (s.later e).ppm = s.ppm := rfl
@[simp] theorem later_nonce (s : State) (e : Event) : (s.later e).nonce = s.nonce := rfl
@[simp] theorem later_work (s : State) (e : Event) : (s.later e).work = s.work ++ [e] := rfl
@[simp] theorem later_due (s : State) (e : Event) : (s.later e).due = s.due := rfl
@[simp] theorem later_diemap0 (s : State) (e : Event) : (s.later e).diemap0 = s.diemap0 := rfl
@[simp] theorem later_diemap1 (s : State) (e : Event) : (s.later e).diemap1 = s.diemap1 := rfl
@[simp] theorem later_dieret (s : State) (e : Event) : (s.later e).dieret = s.dieret := rfl
@[simp] theorem later_asidtab (s : State) (e : Event) : (s.later e).asidtab = s.asidtab := rfl
@[simp] theorem later_barriers (s : State) (e : Event) : (s.later e).barriers = s.barriers := rfl
@[simp] theorem later_vfs (s : State) (e : Event) : (s.later e).vfs = s.vfs := rfl
@[simp] theorem later_vfsel (s : State) (e : Event) : (s.later e).vfsel = s.vfsel := rfl
@[simp] theorem later_pnsel (s : State) (e : Event) : (s.later e).pnsel = s.pnsel := rfl
@[simp] theorem later_poison (s : State) (e : Event) : (s.later e).poison = s.poison := rfl
@[simp] theorem later_erring (s : State) (e : Event) : (s.later e).erring = s.erring := rfl
@[simp] theorem later_romMap (s : State) (e : Event) : (s.later e).romMap = s.romMap := rfl
@[simp] theorem later_entry (s : State) (e : Event) : (s.later e).entry = s.entry := rfl
@[simp] theorem later_awaiters (s : State) (e : Event) : (s.later e).awaiters = s.awaiters := rfl
@[simp] theorem later_bound (s : State) (e : Event) : (s.later e).bound = s.bound := rfl
@[simp] theorem later_keyTables (s : State) (e : Event) : (s.later e).keyTables = s.keyTables := rfl
@[simp] theorem later_bindReport (s : State) (e : Event) : (s.later e).bindReport = s.bindReport := rfl
@[simp] theorem later_flash (s : State) (e : Event) : (s.later e).flash = s.flash := rfl
@[simp] theorem later_bootstat (s : State) (e : Event) : (s.later e).bootstat = s.bootstat := rfl
@[simp] theorem later_imageHash (s : State) (e : Event) : (s.later e).imageHash = s.imageHash := rfl
@[simp] theorem later_irqroute (s : State) (e : Event) : (s.later e).irqroute = s.irqroute := rfl
@[simp] theorem later_hdb (s : State) (e : Event) : (s.later e).hdb = s.hdb := rfl
@[simp] theorem later_flr (s : State) (e : Event) : (s.later e).flr = s.flr := rfl
@[simp] theorem later_power (s : State) (e : Event) : (s.later e).power = s.power := rfl
@[simp] theorem later_powerSeen (s : State) (e : Event) : (s.later e).powerSeen = s.powerSeen := rfl
@[simp] theorem later_lostModules (s : State) (e : Event) : (s.later e).lostModules = s.lostModules := rfl
@[simp] theorem later_loadedOnce (s : State) (e : Event) : (s.later e).loadedOnce = s.loadedOnce := rfl
@[simp] theorem later_heldKills (s : State) (e : Event) : (s.later e).heldKills = s.heldKills := rfl
@[simp] theorem later_savedArgs (s : State) (e : Event) : (s.later e).savedArgs = s.savedArgs := rfl
@[simp] theorem later_spdm (s : State) (e : Event) : (s.later e).spdm = s.spdm := rfl
@[simp] theorem later_sticky (s : State) (e : Event) : (s.later e).sticky = s.sticky := rfl
@[simp] theorem later_ranks (s : State) (e : Event) : (s.later e).ranks = s.ranks := rfl
@[simp] theorem later_transit (s : State) (e : Event) : (s.later e).transit = s.transit := rfl

/-! sooner. -/

@[simp] theorem sooner_threads (s : State) (e : Event) : (s.sooner e).threads = s.threads := rfl
@[simp] theorem sooner_cores (s : State) (e : Event) : (s.sooner e).cores = s.cores := rfl
@[simp] theorem sooner_dies (s : State) (e : Event) : (s.sooner e).dies = s.dies := rfl
@[simp] theorem sooner_mem (s : State) (e : Event) : (s.sooner e).mem = s.mem := rfl
@[simp] theorem sooner_cur (s : State) (e : Event) : (s.sooner e).cur = s.cur := rfl
@[simp] theorem sooner_ck (s : State) (e : Event) : (s.sooner e).ck = s.ck := rfl
@[simp] theorem sooner_time (s : State) (e : Event) : (s.sooner e).time = s.time := rfl
@[simp] theorem sooner_phase (s : State) (e : Event) : (s.sooner e).phase = s.phase := rfl
@[simp] theorem sooner_ppm (s : State) (e : Event) : (s.sooner e).ppm = s.ppm := rfl
@[simp] theorem sooner_nonce (s : State) (e : Event) : (s.sooner e).nonce = s.nonce := rfl
@[simp] theorem sooner_work (s : State) (e : Event) : (s.sooner e).work = e :: s.work := rfl
@[simp] theorem sooner_due (s : State) (e : Event) : (s.sooner e).due = s.due := rfl
@[simp] theorem sooner_diemap0 (s : State) (e : Event) : (s.sooner e).diemap0 = s.diemap0 := rfl
@[simp] theorem sooner_diemap1 (s : State) (e : Event) : (s.sooner e).diemap1 = s.diemap1 := rfl
@[simp] theorem sooner_dieret (s : State) (e : Event) : (s.sooner e).dieret = s.dieret := rfl
@[simp] theorem sooner_asidtab (s : State) (e : Event) : (s.sooner e).asidtab = s.asidtab := rfl
@[simp] theorem sooner_barriers (s : State) (e : Event) : (s.sooner e).barriers = s.barriers := rfl
@[simp] theorem sooner_vfs (s : State) (e : Event) : (s.sooner e).vfs = s.vfs := rfl
@[simp] theorem sooner_vfsel (s : State) (e : Event) : (s.sooner e).vfsel = s.vfsel := rfl
@[simp] theorem sooner_pnsel (s : State) (e : Event) : (s.sooner e).pnsel = s.pnsel := rfl
@[simp] theorem sooner_poison (s : State) (e : Event) : (s.sooner e).poison = s.poison := rfl
@[simp] theorem sooner_erring (s : State) (e : Event) : (s.sooner e).erring = s.erring := rfl
@[simp] theorem sooner_romMap (s : State) (e : Event) : (s.sooner e).romMap = s.romMap := rfl
@[simp] theorem sooner_entry (s : State) (e : Event) : (s.sooner e).entry = s.entry := rfl
@[simp] theorem sooner_awaiters (s : State) (e : Event) : (s.sooner e).awaiters = s.awaiters := rfl
@[simp] theorem sooner_bound (s : State) (e : Event) : (s.sooner e).bound = s.bound := rfl
@[simp] theorem sooner_keyTables (s : State) (e : Event) : (s.sooner e).keyTables = s.keyTables := rfl
@[simp] theorem sooner_bindReport (s : State) (e : Event) : (s.sooner e).bindReport = s.bindReport := rfl
@[simp] theorem sooner_flash (s : State) (e : Event) : (s.sooner e).flash = s.flash := rfl
@[simp] theorem sooner_bootstat (s : State) (e : Event) : (s.sooner e).bootstat = s.bootstat := rfl
@[simp] theorem sooner_imageHash (s : State) (e : Event) : (s.sooner e).imageHash = s.imageHash := rfl
@[simp] theorem sooner_irqroute (s : State) (e : Event) : (s.sooner e).irqroute = s.irqroute := rfl
@[simp] theorem sooner_hdb (s : State) (e : Event) : (s.sooner e).hdb = s.hdb := rfl
@[simp] theorem sooner_flr (s : State) (e : Event) : (s.sooner e).flr = s.flr := rfl
@[simp] theorem sooner_power (s : State) (e : Event) : (s.sooner e).power = s.power := rfl
@[simp] theorem sooner_powerSeen (s : State) (e : Event) : (s.sooner e).powerSeen = s.powerSeen := rfl
@[simp] theorem sooner_lostModules (s : State) (e : Event) : (s.sooner e).lostModules = s.lostModules := rfl
@[simp] theorem sooner_loadedOnce (s : State) (e : Event) : (s.sooner e).loadedOnce = s.loadedOnce := rfl
@[simp] theorem sooner_heldKills (s : State) (e : Event) : (s.sooner e).heldKills = s.heldKills := rfl
@[simp] theorem sooner_savedArgs (s : State) (e : Event) : (s.sooner e).savedArgs = s.savedArgs := rfl
@[simp] theorem sooner_spdm (s : State) (e : Event) : (s.sooner e).spdm = s.spdm := rfl
@[simp] theorem sooner_sticky (s : State) (e : Event) : (s.sooner e).sticky = s.sticky := rfl
@[simp] theorem sooner_ranks (s : State) (e : Event) : (s.sooner e).ranks = s.ranks := rfl
@[simp] theorem sooner_transit (s : State) (e : Event) : (s.sooner e).transit = s.transit := rfl

/-! now. -/

@[simp] theorem now_threads (s : State) (e : Event) : (s.now e).threads = s.threads := rfl
@[simp] theorem now_cores (s : State) (e : Event) : (s.now e).cores = s.cores := rfl
@[simp] theorem now_dies (s : State) (e : Event) : (s.now e).dies = s.dies := rfl
@[simp] theorem now_mem (s : State) (e : Event) : (s.now e).mem = s.mem := rfl
@[simp] theorem now_cur (s : State) (e : Event) : (s.now e).cur = s.cur := rfl
@[simp] theorem now_ck (s : State) (e : Event) : (s.now e).ck = s.ck := rfl
@[simp] theorem now_time (s : State) (e : Event) : (s.now e).time = s.time := rfl
@[simp] theorem now_phase (s : State) (e : Event) : (s.now e).phase = s.phase := rfl
@[simp] theorem now_ppm (s : State) (e : Event) : (s.now e).ppm = s.ppm := rfl
@[simp] theorem now_nonce (s : State) (e : Event) : (s.now e).nonce = s.nonce := rfl
@[simp] theorem now_work (s : State) (e : Event) : (s.now e).work = s.work := rfl
@[simp] theorem now_due (s : State) (e : Event) : (s.now e).due = s.due ++ [e] := rfl
@[simp] theorem now_diemap0 (s : State) (e : Event) : (s.now e).diemap0 = s.diemap0 := rfl
@[simp] theorem now_diemap1 (s : State) (e : Event) : (s.now e).diemap1 = s.diemap1 := rfl
@[simp] theorem now_dieret (s : State) (e : Event) : (s.now e).dieret = s.dieret := rfl
@[simp] theorem now_asidtab (s : State) (e : Event) : (s.now e).asidtab = s.asidtab := rfl
@[simp] theorem now_barriers (s : State) (e : Event) : (s.now e).barriers = s.barriers := rfl
@[simp] theorem now_vfs (s : State) (e : Event) : (s.now e).vfs = s.vfs := rfl
@[simp] theorem now_vfsel (s : State) (e : Event) : (s.now e).vfsel = s.vfsel := rfl
@[simp] theorem now_pnsel (s : State) (e : Event) : (s.now e).pnsel = s.pnsel := rfl
@[simp] theorem now_poison (s : State) (e : Event) : (s.now e).poison = s.poison := rfl
@[simp] theorem now_erring (s : State) (e : Event) : (s.now e).erring = s.erring := rfl
@[simp] theorem now_romMap (s : State) (e : Event) : (s.now e).romMap = s.romMap := rfl
@[simp] theorem now_entry (s : State) (e : Event) : (s.now e).entry = s.entry := rfl
@[simp] theorem now_awaiters (s : State) (e : Event) : (s.now e).awaiters = s.awaiters := rfl
@[simp] theorem now_bound (s : State) (e : Event) : (s.now e).bound = s.bound := rfl
@[simp] theorem now_keyTables (s : State) (e : Event) : (s.now e).keyTables = s.keyTables := rfl
@[simp] theorem now_bindReport (s : State) (e : Event) : (s.now e).bindReport = s.bindReport := rfl
@[simp] theorem now_flash (s : State) (e : Event) : (s.now e).flash = s.flash := rfl
@[simp] theorem now_bootstat (s : State) (e : Event) : (s.now e).bootstat = s.bootstat := rfl
@[simp] theorem now_imageHash (s : State) (e : Event) : (s.now e).imageHash = s.imageHash := rfl
@[simp] theorem now_irqroute (s : State) (e : Event) : (s.now e).irqroute = s.irqroute := rfl
@[simp] theorem now_hdb (s : State) (e : Event) : (s.now e).hdb = s.hdb := rfl
@[simp] theorem now_flr (s : State) (e : Event) : (s.now e).flr = s.flr := rfl
@[simp] theorem now_power (s : State) (e : Event) : (s.now e).power = s.power := rfl
@[simp] theorem now_powerSeen (s : State) (e : Event) : (s.now e).powerSeen = s.powerSeen := rfl
@[simp] theorem now_lostModules (s : State) (e : Event) : (s.now e).lostModules = s.lostModules := rfl
@[simp] theorem now_loadedOnce (s : State) (e : Event) : (s.now e).loadedOnce = s.loadedOnce := rfl
@[simp] theorem now_heldKills (s : State) (e : Event) : (s.now e).heldKills = s.heldKills := rfl
@[simp] theorem now_savedArgs (s : State) (e : Event) : (s.now e).savedArgs = s.savedArgs := rfl
@[simp] theorem now_spdm (s : State) (e : Event) : (s.now e).spdm = s.spdm := rfl
@[simp] theorem now_sticky (s : State) (e : Event) : (s.now e).sticky = s.sticky := rfl
@[simp] theorem now_ranks (s : State) (e : Event) : (s.now e).ranks = s.ranks := rfl
@[simp] theorem now_transit (s : State) (e : Event) : (s.now e).transit = s.transit := rfl

/-! raised. -/

@[simp] theorem raised_threads (s : State) (b : Sticky) : (s.raised b).threads = s.threads := rfl
@[simp] theorem raised_cores (s : State) (b : Sticky) : (s.raised b).cores = s.cores := rfl
@[simp] theorem raised_dies (s : State) (b : Sticky) : (s.raised b).dies = s.dies := rfl
@[simp] theorem raised_mem (s : State) (b : Sticky) : (s.raised b).mem = s.mem := rfl
@[simp] theorem raised_cur (s : State) (b : Sticky) : (s.raised b).cur = s.cur := rfl
@[simp] theorem raised_ck (s : State) (b : Sticky) : (s.raised b).ck = s.ck := rfl
@[simp] theorem raised_time (s : State) (b : Sticky) : (s.raised b).time = s.time := rfl
@[simp] theorem raised_phase (s : State) (b : Sticky) : (s.raised b).phase = s.phase := rfl
@[simp] theorem raised_ppm (s : State) (b : Sticky) : (s.raised b).ppm = s.ppm := rfl
@[simp] theorem raised_nonce (s : State) (b : Sticky) : (s.raised b).nonce = s.nonce := rfl
@[simp] theorem raised_work (s : State) (b : Sticky) : (s.raised b).work = s.work := rfl
@[simp] theorem raised_due (s : State) (b : Sticky) : (s.raised b).due = s.due := rfl
@[simp] theorem raised_diemap0 (s : State) (b : Sticky) : (s.raised b).diemap0 = s.diemap0 := rfl
@[simp] theorem raised_diemap1 (s : State) (b : Sticky) : (s.raised b).diemap1 = s.diemap1 := rfl
@[simp] theorem raised_dieret (s : State) (b : Sticky) : (s.raised b).dieret = s.dieret := rfl
@[simp] theorem raised_asidtab (s : State) (b : Sticky) : (s.raised b).asidtab = s.asidtab := rfl
@[simp] theorem raised_barriers (s : State) (b : Sticky) : (s.raised b).barriers = s.barriers := rfl
@[simp] theorem raised_vfs (s : State) (b : Sticky) : (s.raised b).vfs = s.vfs := rfl
@[simp] theorem raised_vfsel (s : State) (b : Sticky) : (s.raised b).vfsel = s.vfsel := rfl
@[simp] theorem raised_pnsel (s : State) (b : Sticky) : (s.raised b).pnsel = s.pnsel := rfl
@[simp] theorem raised_poison (s : State) (b : Sticky) : (s.raised b).poison = s.poison := rfl
@[simp] theorem raised_erring (s : State) (b : Sticky) : (s.raised b).erring = s.erring := rfl
@[simp] theorem raised_romMap (s : State) (b : Sticky) : (s.raised b).romMap = s.romMap := rfl
@[simp] theorem raised_entry (s : State) (b : Sticky) : (s.raised b).entry = s.entry := rfl
@[simp] theorem raised_awaiters (s : State) (b : Sticky) : (s.raised b).awaiters = s.awaiters := rfl
@[simp] theorem raised_bound (s : State) (b : Sticky) : (s.raised b).bound = s.bound := rfl
@[simp] theorem raised_keyTables (s : State) (b : Sticky) : (s.raised b).keyTables = s.keyTables := rfl
@[simp] theorem raised_bindReport (s : State) (b : Sticky) : (s.raised b).bindReport = s.bindReport := rfl
@[simp] theorem raised_flash (s : State) (b : Sticky) : (s.raised b).flash = s.flash := rfl
@[simp] theorem raised_bootstat (s : State) (b : Sticky) : (s.raised b).bootstat = s.bootstat := rfl
@[simp] theorem raised_imageHash (s : State) (b : Sticky) : (s.raised b).imageHash = s.imageHash := rfl
@[simp] theorem raised_irqroute (s : State) (b : Sticky) : (s.raised b).irqroute = s.irqroute := rfl
@[simp] theorem raised_hdb (s : State) (b : Sticky) : (s.raised b).hdb = s.hdb := rfl
@[simp] theorem raised_flr (s : State) (b : Sticky) : (s.raised b).flr = s.flr := rfl
@[simp] theorem raised_power (s : State) (b : Sticky) : (s.raised b).power = s.power := rfl
@[simp] theorem raised_powerSeen (s : State) (b : Sticky) : (s.raised b).powerSeen = s.powerSeen := rfl
@[simp] theorem raised_lostModules (s : State) (b : Sticky) : (s.raised b).lostModules = s.lostModules := rfl
@[simp] theorem raised_loadedOnce (s : State) (b : Sticky) : (s.raised b).loadedOnce = s.loadedOnce := rfl
@[simp] theorem raised_heldKills (s : State) (b : Sticky) : (s.raised b).heldKills = s.heldKills := rfl
@[simp] theorem raised_savedArgs (s : State) (b : Sticky) : (s.raised b).savedArgs = s.savedArgs := rfl
@[simp] theorem raised_spdm (s : State) (b : Sticky) : (s.raised b).spdm = s.spdm := rfl
@[simp] theorem raised_sticky (s : State) (b : Sticky) : (s.raised b).sticky = b :: s.sticky := rfl
@[simp] theorem raised_ranks (s : State) (b : Sticky) : (s.raised b).ranks = s.ranks := rfl
@[simp] theorem raised_transit (s : State) (b : Sticky) : (s.raised b).transit = s.transit := rfl

/-! whole. -/

@[simp] theorem whole_threads (s : State) (cell n : Nat) : (s.whole cell n).threads = s.threads := rfl
@[simp] theorem whole_cores (s : State) (cell n : Nat) : (s.whole cell n).cores = s.cores := rfl
@[simp] theorem whole_dies (s : State) (cell n : Nat) : (s.whole cell n).dies = s.dies := rfl
@[simp] theorem whole_mem (s : State) (cell n : Nat) : (s.whole cell n).mem = s.mem := rfl
@[simp] theorem whole_cur (s : State) (cell n : Nat) : (s.whole cell n).cur = s.cur := rfl
@[simp] theorem whole_ck (s : State) (cell n : Nat) : (s.whole cell n).ck = s.ck := rfl
@[simp] theorem whole_time (s : State) (cell n : Nat) : (s.whole cell n).time = s.time := rfl
@[simp] theorem whole_phase (s : State) (cell n : Nat) : (s.whole cell n).phase = s.phase := rfl
@[simp] theorem whole_ppm (s : State) (cell n : Nat) : (s.whole cell n).ppm = s.ppm := rfl
@[simp] theorem whole_nonce (s : State) (cell n : Nat) : (s.whole cell n).nonce = s.nonce := rfl
@[simp] theorem whole_work (s : State) (cell n : Nat) : (s.whole cell n).work = s.work := rfl
@[simp] theorem whole_due (s : State) (cell n : Nat) : (s.whole cell n).due = s.due := rfl
@[simp] theorem whole_diemap0 (s : State) (cell n : Nat) : (s.whole cell n).diemap0 = s.diemap0 := rfl
@[simp] theorem whole_diemap1 (s : State) (cell n : Nat) : (s.whole cell n).diemap1 = s.diemap1 := rfl
@[simp] theorem whole_dieret (s : State) (cell n : Nat) : (s.whole cell n).dieret = s.dieret := rfl
@[simp] theorem whole_asidtab (s : State) (cell n : Nat) : (s.whole cell n).asidtab = s.asidtab := rfl
@[simp] theorem whole_barriers (s : State) (cell n : Nat) : (s.whole cell n).barriers = s.barriers := rfl
@[simp] theorem whole_vfs (s : State) (cell n : Nat) : (s.whole cell n).vfs = s.vfs := rfl
@[simp] theorem whole_vfsel (s : State) (cell n : Nat) : (s.whole cell n).vfsel = s.vfsel := rfl
@[simp] theorem whole_pnsel (s : State) (cell n : Nat) : (s.whole cell n).pnsel = s.pnsel := rfl
@[simp] theorem whole_poison (s : State) (cell n : Nat) : (s.whole cell n).poison = s.poison.filter fun l => !(decide (cell ≤ 64 * l) && decide (64 * l + 64 ≤ cell + n)) := rfl
@[simp] theorem whole_erring (s : State) (cell n : Nat) : (s.whole cell n).erring = s.erring := rfl
@[simp] theorem whole_romMap (s : State) (cell n : Nat) : (s.whole cell n).romMap = s.romMap := rfl
@[simp] theorem whole_entry (s : State) (cell n : Nat) : (s.whole cell n).entry = s.entry := rfl
@[simp] theorem whole_awaiters (s : State) (cell n : Nat) : (s.whole cell n).awaiters = s.awaiters := rfl
@[simp] theorem whole_bound (s : State) (cell n : Nat) : (s.whole cell n).bound = s.bound := rfl
@[simp] theorem whole_keyTables (s : State) (cell n : Nat) : (s.whole cell n).keyTables = s.keyTables := rfl
@[simp] theorem whole_bindReport (s : State) (cell n : Nat) : (s.whole cell n).bindReport = s.bindReport := rfl
@[simp] theorem whole_flash (s : State) (cell n : Nat) : (s.whole cell n).flash = s.flash := rfl
@[simp] theorem whole_bootstat (s : State) (cell n : Nat) : (s.whole cell n).bootstat = s.bootstat := rfl
@[simp] theorem whole_imageHash (s : State) (cell n : Nat) : (s.whole cell n).imageHash = s.imageHash := rfl
@[simp] theorem whole_irqroute (s : State) (cell n : Nat) : (s.whole cell n).irqroute = s.irqroute := rfl
@[simp] theorem whole_hdb (s : State) (cell n : Nat) : (s.whole cell n).hdb = s.hdb := rfl
@[simp] theorem whole_flr (s : State) (cell n : Nat) : (s.whole cell n).flr = s.flr := rfl
@[simp] theorem whole_power (s : State) (cell n : Nat) : (s.whole cell n).power = s.power := rfl
@[simp] theorem whole_powerSeen (s : State) (cell n : Nat) : (s.whole cell n).powerSeen = s.powerSeen := rfl
@[simp] theorem whole_lostModules (s : State) (cell n : Nat) : (s.whole cell n).lostModules = s.lostModules := rfl
@[simp] theorem whole_loadedOnce (s : State) (cell n : Nat) : (s.whole cell n).loadedOnce = s.loadedOnce := rfl
@[simp] theorem whole_heldKills (s : State) (cell n : Nat) : (s.whole cell n).heldKills = s.heldKills := rfl
@[simp] theorem whole_savedArgs (s : State) (cell n : Nat) : (s.whole cell n).savedArgs = s.savedArgs := rfl
@[simp] theorem whole_spdm (s : State) (cell n : Nat) : (s.whole cell n).spdm = s.spdm := rfl
@[simp] theorem whole_sticky (s : State) (cell n : Nat) : (s.whole cell n).sticky = s.sticky := rfl
@[simp] theorem whole_ranks (s : State) (cell n : Nat) : (s.whole cell n).ranks = s.ranks := rfl
@[simp] theorem whole_transit (s : State) (cell n : Nat) : (s.whole cell n).transit = s.transit := rfl

/-! Threads, cores and dies after the updates. -/

@[simp] theorem thr_setThr_same (s : State) (k : Nat) (t : Thread) : (s.setThr k t).thr k = t := by
  simp [State.thr]

theorem thr_setThr_other (s : State) (k : Nat) (t : Thread) (j : Nat) (h : j ≠ k) : (s.setThr k t).thr j = s.thr j := by
  simp [State.thr, tabGet_tabSet_other, h]

@[simp] theorem core_setThr (s : State) (k : Nat) (t : Thread) (j : Nat) : (s.setThr k t).core j = s.core j := rfl

@[simp] theorem die_setThr (s : State) (k : Nat) (t : Thread) (j : Nat) : (s.setThr k t).die j = s.die j := rfl

@[simp] theorem thr_setCore (s : State) (c : Nat) (x : Core) (j : Nat) : (s.setCore c x).thr j = s.thr j := rfl

@[simp] theorem core_setCore_same (s : State) (c : Nat) (x : Core) : (s.setCore c x).core c = x := by
  simp [State.core]

theorem core_setCore_other (s : State) (c : Nat) (x : Core) (j : Nat) (h : j ≠ c) : (s.setCore c x).core j = s.core j := by
  simp [State.core, tabGet_tabSet_other, h]

@[simp] theorem die_setCore (s : State) (c : Nat) (x : Core) (j : Nat) : (s.setCore c x).die j = s.die j := rfl

@[simp] theorem thr_setDie (s : State) (d : Nat) (x : Die) (j : Nat) : (s.setDie d x).thr j = s.thr j := rfl

@[simp] theorem core_setDie (s : State) (d : Nat) (x : Die) (j : Nat) : (s.setDie d x).core j = s.core j := rfl

@[simp] theorem die_setDie_same (s : State) (d : Nat) (x : Die) : (s.setDie d x).die d = x := by
  simp [State.die]

theorem die_setDie_other (s : State) (d : Nat) (x : Die) (j : Nat) (h : j ≠ d) : (s.setDie d x).die j = s.die j := by
  simp [State.die, tabGet_tabSet_other, h]

@[simp] theorem thr_tick (s : State) (j : Nat) : (s.tick).thr j = s.thr j := rfl

@[simp] theorem core_tick (s : State) (j : Nat) : (s.tick).core j = s.core j := rfl

@[simp] theorem die_tick (s : State) (j : Nat) : (s.tick).die j = s.die j := rfl

@[simp] theorem thr_later (s : State) (e : Event) (j : Nat) : (s.later e).thr j = s.thr j := rfl

@[simp] theorem core_later (s : State) (e : Event) (j : Nat) : (s.later e).core j = s.core j := rfl

@[simp] theorem die_later (s : State) (e : Event) (j : Nat) : (s.later e).die j = s.die j := rfl

@[simp] theorem thr_sooner (s : State) (e : Event) (j : Nat) : (s.sooner e).thr j = s.thr j := rfl

@[simp] theorem core_sooner (s : State) (e : Event) (j : Nat) : (s.sooner e).core j = s.core j := rfl

@[simp] theorem die_sooner (s : State) (e : Event) (j : Nat) : (s.sooner e).die j = s.die j := rfl

@[simp] theorem thr_now (s : State) (e : Event) (j : Nat) : (s.now e).thr j = s.thr j := rfl

@[simp] theorem core_now (s : State) (e : Event) (j : Nat) : (s.now e).core j = s.core j := rfl

@[simp] theorem die_now (s : State) (e : Event) (j : Nat) : (s.now e).die j = s.die j := rfl

@[simp] theorem thr_raised (s : State) (b : Sticky) (j : Nat) : (s.raised b).thr j = s.thr j := rfl

@[simp] theorem core_raised (s : State) (b : Sticky) (j : Nat) : (s.raised b).core j = s.core j := rfl

@[simp] theorem die_raised (s : State) (b : Sticky) (j : Nat) : (s.raised b).die j = s.die j := rfl

@[simp] theorem thr_whole (s : State) (cell n : Nat) (j : Nat) : (s.whole cell n).thr j = s.thr j := rfl

@[simp] theorem core_whole (s : State) (cell n : Nat) (j : Nat) : (s.whole cell n).core j = s.core j := rfl

@[simp] theorem die_whole (s : State) (cell n : Nat) (j : Nat) : (s.whole cell n).die j = s.die j := rfl

@[simp] theorem setThr_setThr (s : State) (k : Nat) (t u : Thread) : (s.setThr k t).setThr k u = s.setThr k u := by
  simp [State.setThr]

@[simp] theorem setCore_setCore (s : State) (c : Nat) (x y : Core) : (s.setCore c x).setCore c y = s.setCore c y := by
  simp [State.setCore]

@[simp] theorem setDie_setDie (s : State) (d : Nat) (x y : Die) : (s.setDie d x).setDie d y = s.setDie d y := by
  simp [State.setDie]

end Sys2Proof.Machine
end

