-- ==== Sys2Proof/Laws/Ops.lean ====
section
/-! SUPPORT. What the shared operations can do: the registers, the windows, the completion of an instruction, and the
exceptions. One lemma says everything an operation may touch; the others say what it leaves where. -/

namespace Sys2Proof.Machine

/-! Registers (R33). -/

/-- latchOthers changes threads only, and of a thread other than k of the same core only its latch. -/
theorem latchOthers_touches (k : Nat) (l : List Nat) : ∀ s : State, ∃ th, latchOthers s k l = { s with threads := th } := by
  induction l with
  | nil => intro s; exact ⟨s.threads, rfl⟩
  | cons j l ih =>
    intro s
    simp only [latchOthers]
    split
    · exact ih s
    · obtain ⟨th, h⟩ := ih (s.setThr (8 * coreOf k + j) ((s.thr (8 * coreOf k + j)).latched latchSREG))
      exact ⟨th, h⟩

theorem latchOthers_own (k : Nat) (l : List Nat) : ∀ s : State, (latchOthers s k l).thr k = s.thr k := by
  induction l with
  | nil => intro s; rfl
  | cons j l ih =>
    intro s
    simp only [latchOthers]
    split
    · exact ih s
    · rename_i h
      rw [ih, thr_setThr_other]
      exact fun e => h (.inl e.symm)

/-- A thread after latchOthers: as before, or with SREG in its latch. -/
theorem latchOthers_thr (k : Nat) (l : List Nat) : ∀ (s : State) (j : Nat),
    (latchOthers s k l).thr j = s.thr j ∨
      (latchOthers s k l).thr j = { s.thr j with latch := ((latchOthers s k l).thr j).latch } := by
  induction l with
  | nil => intro s j; exact .inl rfl
  | cons i l ih =>
    intro s j
    simp only [latchOthers]
    split
    · exact ih s j
    · by_cases hj : j = 8 * coreOf k + i
      · subst hj
        rcases ih (s.setThr (8 * coreOf k + i) ((s.thr (8 * coreOf k + i)).latched latchSREG)) (8 * coreOf k + i)
          with h | h <;> refine .inr ?_
        · rw [h, thr_setThr_same]
          rfl
        · rw [thr_setThr_same] at h
          rw [h]
          rfl
      · rcases ih (s.setThr (8 * coreOf k + i) ((s.thr (8 * coreOf k + i)).latched latchSREG)) j with h | h
        · exact .inl (by rw [h, thr_setThr_other _ _ _ _ hj])
        · refine .inr ?_
          rw [thr_setThr_other _ _ _ _ hj] at h
          exact h

/-- Everything that a write to a shared register may touch in the core: the bank, and where each register's last write
stands. -/
theorem written_touches (c : Core) (ck j rank : Nat) (v : Word) :
    ∃ b l, c.written ck j rank v = { c with sbank := b, slast := l } := by
  simp only [Core.written]
  split
  · exact ⟨c.sbank, c.slast, rfl⟩
  · exact ⟨_, _, rfl⟩

/-- A write that nothing outranks is in the bank (R35). -/
theorem written_same (c : Core) (ck j rank : Nat) (v : Word) (h : c.outranks ck j rank = false) (hj : j < 16) :
    (c.written ck j rank v).sbank.getD j 0#64 = v := by
  simp [Core.written, h, Vector.getD, hj]

/-- An outranked write leaves the core as it is (R35). -/
theorem written_outranked (c : Core) (ck j rank : Nat) (v : Word) (h : c.outranks ck j rank = true) :
    c.written ck j rank v = c := by
  simp [Core.written, h]

/-- The other registers of the bank stay. -/
theorem written_other (c : Core) (ck j i rank : Nat) (v : Word) (h : i ≠ j) :
    (c.written ck j rank v).sbank.getD i 0#64 = c.sbank.getD i 0#64 := by
  simp only [Core.written]
  split
  · rfl
  · by_cases hi : i < 16 <;> simp [Vector.getD, hi, Ne.symm h]

/-- Everything that writing a register may touch: threads and cores. -/
theorem putReg_touches (close : Bool) (s : State) (k : Nat) (r : Reg) (v : Word) :
    ∃ th co, putReg close s k r v = { s with threads := th, cores := co } := by
  simp only [putReg]
  split
  · exact ⟨_, s.cores, rfl⟩
  split
  · exact ⟨_, s.cores, rfl⟩
  split
  · obtain ⟨th, h⟩ := latchOthers_touches k [0, 1, 2, 3, 4, 5, 6, 7] (s.setCore (coreOf k)
      ((s.core (coreOf k)).written s.ck (r.toNat - 16) (writeRank k close) v))
    exact ⟨th, _, h⟩
  · exact ⟨s.threads, s.cores, rfl⟩

theorem writeReg_touches (s : State) (k : Nat) (r : Reg) (v : Word) :
    ∃ th co, writeReg s k r v = { s with threads := th, cores := co } := putReg_touches false s k r v

theorem closeReg_touches (s : State) (k : Nat) (r : Reg) (v : Word) :
    ∃ th co, closeReg s k r v = { s with threads := th, cores := co } := putReg_touches true s k r v

/-- Register zr discards what is written to it, and so would a reserved code (R33). -/
theorem putReg_none (close : Bool) (s : State) (k : Nat) (r : Reg) (v : Word)
    (h : r = 10#5 ∨ (12 ≤ r.toNat ∧ r.toNat < 16)) : putReg close s k r v = s := by
  have h1 : ¬ r.toNat < 10 ∧ ¬ r.toNat = 11 ∧ ¬ 16 ≤ r.toNat := by
    rcases h with h | h
    · simp [h]
    · omega
  rw [putReg, if_neg h1.1, if_neg h1.2.1, if_neg h1.2.2]

/-- A register of the thread: its record alone changes. -/
theorem putReg_p (close : Bool) (s : State) (k : Nat) (r : Reg) (v : Word) (h : r.toNat < 10) :
    putReg close s k r v = s.setThr k { s.thr k with p := (s.thr k).p.setIfInBounds r.toNat v } := by
  simp [putReg, h]

theorem putReg_q (close : Bool) (s : State) (k : Nat) (v : Word) :
    putReg close s k 11#5 v = s.setThr k { s.thr k with q := v } := by
  simp [putReg]

/-- A shared register: the core's bank, and the latches of the core's other threads. -/
theorem putReg_s (close : Bool) (s : State) (k : Nat) (r : Reg) (v : Word) (h : 16 ≤ r.toNat) :
    putReg close s k r v = latchOthers (s.setCore (coreOf k)
      ((s.core (coreOf k)).written s.ck (r.toNat - 16) (writeRank k close) v)) k [0, 1, 2, 3, 4, 5, 6, 7] := by
  simp [putReg, h, show ¬ r.toNat < 10 by omega, show r.toNat ≠ 11 by omega]

/-- The core behind a write to a shared register. -/
theorem putReg_s_core (close : Bool) (s : State) (k : Nat) (r : Reg) (v : Word) (h : 16 ≤ r.toNat) :
    (putReg close s k r v).core (coreOf k) =
      (s.core (coreOf k)).written s.ck (r.toNat - 16) (writeRank k close) v := by
  rw [putReg_s close s k r v h]
  obtain ⟨th, e⟩ := latchOthers_touches k [0, 1, 2, 3, 4, 5, 6, 7] (s.setCore (coreOf k)
    ((s.core (coreOf k)).written s.ck (r.toNat - 16) (writeRank k close) v))
  rw [e]
  exact core_setCore_same s (coreOf k) _

/-- The writing thread keeps its record when a shared register is written. -/
theorem putReg_s_thr (close : Bool) (s : State) (k : Nat) (r : Reg) (v : Word) (h : 16 ≤ r.toNat) :
    (putReg close s k r v).thr k = s.thr k := by
  rw [putReg_s close s k r v h, latchOthers_own, thr_setCore]

/-- zr reads 0. -/
@[simp] theorem readReg_zr (s : State) (k : Nat) : readReg s k 10#5 = 0#64 := by simp [readReg]

/-- A register code reads its thread and its core, and nothing else. -/
theorem readReg_congr {s t : State} (k : Nat) (r : Reg) (hp : (t.thr k).p = (s.thr k).p) (hq : (t.thr k).q = (s.thr k).q)
    (hs : (t.core (coreOf k)).sbank = (s.core (coreOf k)).sbank) : readReg t k r = readReg s k r := by
  simp only [readReg, hp, hq, hs]

/-- A shared register reads the core's bank. -/
theorem readReg_s (s : State) (k : Nat) (r : Reg) (h : 16 ≤ r.toNat) :
    readReg s k r = (s.core (coreOf k)).sbank.getD (r.toNat - 16) 0#64 := by
  simp [readReg, h, show ¬ r.toNat < 10 by omega, show r.toNat ≠ 11 by omega]

/-- The value written is read where the write remains (R35). -/
theorem readReg_putReg_same (close : Bool) (s : State) (k : Nat) (r : Reg) (v : Word)
    (h : r.toNat < 10 ∨ r.toNat = 11 ∨ 16 ≤ r.toNat) (hr : remains close s k r = true) :
    readReg (putReg close s k r v) k r = v := by
  rcases h with h | h | h
  · rw [putReg_p close s k r v h]
    simp [readReg, h]
  · obtain rfl : r = 11#5 := BitVec.eq_of_toNat_eq h
    rw [putReg_q]
    simp [readReg]
  · have hl := r.isLt
    rw [readReg_s _ _ _ h, putReg_s_core close s k r v h]
    exact written_same _ _ _ _ _ (by simpa [remains, show ¬ r.toNat < 16 by omega] using hr) (by omega)

/-- Every other code reads as before. -/
theorem readReg_putReg_other (close : Bool) (s : State) (k : Nat) (r d : Reg) (v : Word) (h : r ≠ d) :
    readReg (putReg close s k d v) k r = readReg s k r := by
  have hne : r.toNat ≠ d.toNat := fun e => h (BitVec.eq_of_toNat_eq e)
  by_cases hp : d.toNat < 10
  · rw [putReg_p close s k d v hp]
    by_cases hr : r.toNat < 10
    · simp [readReg, hr, Ne.symm hne]
    · simp [readReg, hr]
  by_cases hq : d.toNat = 11
  · obtain rfl : d = 11#5 := BitVec.eq_of_toNat_eq hq
    rw [putReg_q]
    simp [readReg, show r.toNat ≠ 11 from hne]
  by_cases hs : 16 ≤ d.toNat
  · by_cases hr : 16 ≤ r.toNat
    · rw [readReg_s _ _ _ hr, readReg_s _ _ _ hr, putReg_s_core close s k d v hs]
      exact written_other _ _ _ _ _ _ (by omega)
    · simp [readReg, putReg_s_thr close s k d v hs, hr]
  · rw [putReg_none close s k d v (by
      by_cases hz : d.toNat = 10
      · exact .inl (BitVec.eq_of_toNat_eq hz)
      · exact .inr (by omega))]

/-! Windows (R37, R38). -/

/-- Everything that freeing a read record may touch: the dies. -/
theorem freeEnded_touches (s : State) (h : Nat) (a : Option (BitVec 16)) :
    ∃ di, freeEnded s h a = { s with dies := di } := by
  simp only [freeEnded]
  split
  · exact ⟨s.dies, rfl⟩
  · split
    · exact ⟨s.dies, rfl⟩
    · exact ⟨_, rfl⟩

/-- Everything that the stores of a window may touch as they are made: threads, and the steps under way. -/
theorem leaveStores_touches (s : State) (k : Nat) (l : List Request) :
    ∃ th wk, leaveStores s k l = { s with threads := th, work := wk } := by
  simp only [leaveStores]
  split
  · exact ⟨s.threads, s.work, rfl⟩
  · exact ⟨_, _, rfl⟩

/-- Everything that a window's close may touch: threads, cores, dies, and the steps under way. -/
theorem closeResult_touches (s : State) (k : Nat) (d : Reg) (r : Result) :
    ∃ th co di wk, closeResult s k d r = { s with threads := th, cores := co, dies := di, work := wk } := by
  have one : ∀ (s' : State) (v : Word), (∃ th co di wk, s' = { s with threads := th, cores := co, dies := di, work := wk }) →
      ∃ th co di wk, closeReg s' k d v = { s with threads := th, cores := co, dies := di, work := wk } := by
    rintro _ v ⟨th, co, di, wk, rfl⟩
    obtain ⟨th', co', h⟩ := closeReg_touches { s with threads := th, cores := co, dies := di, work := wk } k d v
    exact ⟨th', co', di, wk, h⟩
  have same : ∃ th co di wk, s = { s with threads := th, cores := co, dies := di, work := wk } :=
    ⟨s.threads, s.cores, s.dies, s.work, rfl⟩
  cases r with
  | one v => exact one s v same
  | two v w =>
    obtain ⟨th, co, h⟩ := closeReg_touches s k d v
    obtain ⟨th', co', h'⟩ := closeReg_touches (closeReg s k d v) k (d + 1#5) w
    exact ⟨th', co', s.dies, s.work, by rw [closeResult, h', h]⟩
  | buffer v l =>
    obtain ⟨th, wk, e⟩ := leaveStores_touches s k l
    exact one _ v ⟨th, s.cores, s.dies, wk, e⟩
  | object c => exact one s _ same
  | kernel h a =>
    obtain ⟨di, e⟩ := freeEnded_touches s h a
    exact one _ _ ⟨s.threads, s.cores, di, s.work, e⟩
  | mstatus c =>
    cases c with
    | false => exact one s _ same
    | true => exact one _ _ ⟨_, s.cores, s.dies, s.work, rfl⟩
  | nothing => exact same
  | refused j => exact ⟨_, s.cores, s.dies, s.work, rfl⟩

theorem closeList_touches (k : Nat) (l : List Window) : ∀ s : State, ∃ th co di wk,
    (closeList s k l).1 = { s with threads := th, cores := co, dies := di, work := wk } := by
  induction l with
  | nil => intro s; exact ⟨s.threads, s.cores, s.dies, s.work, rfl⟩
  | cons w l ih =>
    intro s
    simp only [closeList]
    split
    · split
      · obtain ⟨th, co, di, wk, h⟩ := closeResult_touches s k w.dest ‹Result›
        obtain ⟨th', co', di', wk', h'⟩ := ih (closeResult s k w.dest ‹Result›)
        exact ⟨th', co', di', wk', by rw [h', h]⟩
      · exact ⟨s.threads, s.cores, s.dies, s.work, rfl⟩
    · exact ih s

/-- Everything that the closing of windows may touch: threads, cores, dies, and the steps under way. -/
theorem closeWindows_touches (s : State) (k : Nat) : ∃ th co di wk,
    closeWindows s k = { s with threads := th, cores := co, dies := di, work := wk } := by
  obtain ⟨th, co, di, wk, h⟩ := closeList_touches k (s.thr k).windows s
  have key : ∀ (x : State) (t : Thread), x = { s with threads := th, cores := co, dies := di, work := wk } →
      ∃ th', x.setThr k t = { s with threads := th', cores := co, dies := di, work := wk } := by
    rintro _ t rfl
    exact ⟨_, rfl⟩
  obtain ⟨th', h'⟩ := key _ { (closeList s k (s.thr k).windows).1.thr k with
    windows := (closeList s k (s.thr k).windows).2 } h
  exact ⟨th', co, di, wk, h'⟩

/-- With no window open nothing closes. -/
theorem closeWindows_none (s : State) (k : Nat) (h : (s.thr k).windows = []) :
    closeWindows s k = s.setThr k (s.thr k) := by
  have : ({ s.thr k with windows := [] } : Thread) = s.thr k := by rw [← h]
  simp only [closeWindows, h, closeList, this]

/-- Everything that the completion of an instruction may touch. -/
theorem retireTo_touches (s : State) (k : Nat) (pc : Word) (l : List Window) : ∃ th co di wk,
    retireTo s k pc l = { s with threads := th, cores := co, dies := di, work := wk } := by
  obtain ⟨th, co, di, wk, h⟩ := closeWindows_touches (s.setThr k
    { s.thr k with
      pc := pc, windows := countWindows (s.thr k).windows ++ l, stay := false, mismatch := false, sleep := none }) k
  exact ⟨th, co, di, wk, h⟩

theorem retire_touches (s : State) (k : Nat) : ∃ th co di wk,
    retire s k = { s with threads := th, cores := co, dies := di, work := wk } := retireTo_touches s k _ []

/-- An instruction completes with no window open: its thread alone changes, by the pc and the marks of one instruction. -/
theorem retireTo_plain (s : State) (k : Nat) (pc : Word) (h : (s.thr k).windows = []) :
    retireTo s k pc [] = s.setThr k { s.thr k with
      pc := pc, windows := [], stay := false, mismatch := false, sleep := none } := by
  simp only [retireTo, h, countWindows, List.map_nil, List.append_nil]
  rw [closeWindows_none _ _ (by simp)]
  simp

/-- Everything that a result's arrival may touch. -/
theorem arrive_touches (s : State) (k wid : Nat) (r : Result) : ∃ th co di wk,
    arrive s k wid r = { s with threads := th, cores := co, dies := di, work := wk } := by
  obtain ⟨th, co, di, wk, h⟩ := closeWindows_touches (s.setThr k { s.thr k with
    windows := arriveIn wid r (s.thr k).windows, frozen := arriveIn wid r (s.thr k).frozen
    held := arriveIn wid r (s.thr k).held }) k
  exact ⟨th, co, di, wk, h⟩

/-- Everything that one window's close may touch, wherever the window stands. -/
theorem closeOne_touches (s : State) (k : Nat) (w : Window) (r : Result) : ∃ th co di wk,
    closeOne s k w r = { s with threads := th, cores := co, dies := di, work := wk } := by
  have key : ∀ t u : Thread, ∃ th co di wk, (closeResult (s.setThr k t) k w.dest r).setThr k u =
      { s with threads := th, cores := co, dies := di, work := wk } := by
    intro t u
    obtain ⟨th, co, di, wk, h⟩ := closeResult_touches (s.setThr k t) k w.dest r
    rw [h]
    exact ⟨_, co, di, wk, rfl⟩
  exact key _ _

theorem closeOldest_touches (s t : State) (k : Nat) (h : closeOldest s k = some t) : ∃ th co di wk,
    t = { s with threads := th, cores := co, dies := di, work := wk } := by
  simp only [closeOldest] at h
  split at h
  · cases h
  · split at h
    · cases h
      exact closeOne_touches s k _ _
    · cases h

/-! Exceptions (R179 to R197). -/

/-- Everything that an exact trap may touch: the thread, its core, and what a double trap adds (R183). -/
theorem trapAt_touches (s : State) (k : Nat) (epc : Word) (kind detail : Nat) (tval : Word) : ∃ th co di du,
    trapAt s k epc kind detail tval = { s with threads := th, cores := co, dies := di, due := du } := by
  simp only [trapAt]
  split
  · split
    · simp only [doubleTrap]
      split
      · exact ⟨_, _, _, s.due, rfl⟩
      · exact ⟨_, s.cores, s.dies, _, rfl⟩
    · exact ⟨_, s.cores, s.dies, s.due, rfl⟩
  · exact ⟨_, _, s.dies, s.due, rfl⟩

theorem exactTrap_touches (s : State) (k : Nat) (kind detail : Nat) (tval : Word) : ∃ th co di du,
    exactTrap s k kind detail tval = { s with threads := th, cores := co, dies := di, due := du } :=
  trapAt_touches s k _ kind detail tval

/-- The trap of a user slot (R182): the record, TRAPPED, and the bit of the slot in TPEND. -/
theorem exactTrap_slot (s : State) (k : Nat) (kind detail : Nat) (tval : Word) (h : takesOwnTraps k = false) :
    exactTrap s k kind detail tval =
      (s.setThr k { s.thr k with
        epc := (s.thr k).pc, cause := causeWord false kind detail, tval := tval, sstate := .trapped
        mismatch := false, spent := false }).setCore (coreOf k)
        { s.core (coreOf k) with tpend := (s.core (coreOf k)).tpend ||| (1#7 <<< slotOf k) } := by
  simp [exactTrap, trapAt, trapSlot, h]

/-- The trap of slot 7 or of a system core outside its handler (R183). -/
theorem exactTrap_handler (s : State) (k : Nat) (kind detail : Nat) (tval : Word) (h : takesOwnTraps k = true)
    (hin : (s.thr k).xin = false) :
    exactTrap s k kind detail tval = enterHandler s k (s.thr k).pc (causeWord false kind detail) tval := by
  simp [exactTrap, trapAt, h, hin]

/-- What a return finds, a handler entry left (R183, R197): on a compute core, with no window opened between, the entry
and the return give the thread its registers, its pc, its view and its windows back. -/
theorem leaveHandler_enterHandler (s : State) (k : Nat) (pc cause val : Word) (hd : isSystem (coreOf k) = false)
    (hx : (s.thr k).xin = false) (hh : (s.thr k).held = []) :
    leaveHandler (enterHandler s k pc cause val) k =
      s.setThr k { s.thr k with
        xpc := pc, xcause := cause, xval := val, pc := pc, stay := false, mismatch := false, spent := false
        xview := (s.thr k).view } := by
  have hp : withLowFour (withLowFour (s.thr k).p (s.thr k).xalt) (lowFour (s.thr k).p) = (s.thr k).p := by
    apply Vector.ext
    intro i hi
    have : i = 0 ∨ i = 1 ∨ i = 2 ∨ i = 3 ∨ i = 4 ∨ i = 5 ∨ i = 6 ∨ i = 7 ∨ i = 8 ∨ i = 9 := by omega
    rcases this with h | h | h | h | h | h | h | h | h | h <;> subst h <;> rfl
  have hl : lowFour (withLowFour (s.thr k).p (s.thr k).xalt) = (s.thr k).xalt := by
    apply Vector.ext
    intro i hi
    have : i = 0 ∨ i = 1 ∨ i = 2 ∨ i = 3 := by omega
    rcases this with h | h | h | h <;> subst h <;> rfl
  simp [leaveHandler, enterHandler, hp, hl, hd, hx, hh]

end Sys2Proof.Machine
end

