-- ==== Sys2Proof/Laws/PerInstr.lean ====
section
/-! SUPPORT. The families of statements that are made constructor by constructor: RoundTrip, the decoder reads back the
word that the encoder gives. -/

set_option Elab.async false

namespace Sys2Proof.Laws

/-- The decoder reads the word of an instruction back as that instruction. -/
def RoundTrip.Statement (i : Instr) : Prop := isWord i = true → decode (encode i) = some i

theorem RoundTrip.add (d a b : Reg) : RoundTrip.Statement (.add d a b) := by
  intro _; simp only [encode]; rw [decode_01 (opOf_wordR ..)]; simp [decodeInteger]

theorem RoundTrip.sub (d a b : Reg) : RoundTrip.Statement (.sub d a b) := by
  intro _; simp only [encode]; rw [decode_01 (opOf_wordR ..)]; simp [decodeInteger]

theorem RoundTrip.and (d a b : Reg) : RoundTrip.Statement (.and d a b) := by
  intro _; simp only [encode]; rw [decode_01 (opOf_wordR ..)]; simp [decodeInteger]

theorem RoundTrip.or (d a b : Reg) : RoundTrip.Statement (.or d a b) := by
  intro _; simp only [encode]; rw [decode_01 (opOf_wordR ..)]; simp [decodeInteger]

theorem RoundTrip.xor (d a b : Reg) : RoundTrip.Statement (.xor d a b) := by
  intro _; simp only [encode]; rw [decode_01 (opOf_wordR ..)]; simp [decodeInteger]

theorem RoundTrip.sll (d a b : Reg) : RoundTrip.Statement (.sll d a b) := by
  intro _; simp only [encode]; rw [decode_01 (opOf_wordR ..)]; simp [decodeInteger]

theorem RoundTrip.srl (d a b : Reg) : RoundTrip.Statement (.srl d a b) := by
  intro _; simp only [encode]; rw [decode_01 (opOf_wordR ..)]; simp [decodeInteger]

theorem RoundTrip.sra (d a b : Reg) : RoundTrip.Statement (.sra d a b) := by
  intro _; simp only [encode]; rw [decode_01 (opOf_wordR ..)]; simp [decodeInteger]

theorem RoundTrip.min (d a b : Reg) : RoundTrip.Statement (.min d a b) := by
  intro _; simp only [encode]; rw [decode_01 (opOf_wordR ..)]; simp [decodeInteger]

theorem RoundTrip.max (d a b : Reg) : RoundTrip.Statement (.max d a b) := by
  intro _; simp only [encode]; rw [decode_01 (opOf_wordR ..)]; simp [decodeInteger]

theorem RoundTrip.minu (d a b : Reg) : RoundTrip.Statement (.minu d a b) := by
  intro _; simp only [encode]; rw [decode_01 (opOf_wordR ..)]; simp [decodeInteger]

theorem RoundTrip.maxu (d a b : Reg) : RoundTrip.Statement (.maxu d a b) := by
  intro _; simp only [encode]; rw [decode_01 (opOf_wordR ..)]; simp [decodeInteger]

theorem RoundTrip.sel (d a b : Reg) : RoundTrip.Statement (.sel d a b) := by
  intro _; simp only [encode]; rw [decode_01 (opOf_wordR ..)]; simp [decodeInteger]

theorem RoundTrip.mul (d a b : Reg) (lk : BitVec 4) : RoundTrip.Statement (.mul d a b lk) := by
  intro _; simp only [encode]; rw [decode_01 (opOf_wordR ..)]; simp [decodeInteger]

theorem RoundTrip.mulh (d a b : Reg) (lk : BitVec 4) : RoundTrip.Statement (.mulh d a b lk) := by
  intro _; simp only [encode]; rw [decode_01 (opOf_wordR ..)]; simp [decodeInteger]

theorem RoundTrip.mulhu (d a b : Reg) (lk : BitVec 4) : RoundTrip.Statement (.mulhu d a b lk) := by
  intro _; simp only [encode]; rw [decode_01 (opOf_wordR ..)]; simp [decodeInteger]

theorem RoundTrip.div (d a b : Reg) (lk : BitVec 4) : RoundTrip.Statement (.div d a b lk) := by
  intro _; simp only [encode]; rw [decode_01 (opOf_wordR ..)]; simp [decodeInteger]

theorem RoundTrip.divu (d a b : Reg) (lk : BitVec 4) : RoundTrip.Statement (.divu d a b lk) := by
  intro _; simp only [encode]; rw [decode_01 (opOf_wordR ..)]; simp [decodeInteger]

theorem RoundTrip.rem (d a b : Reg) (lk : BitVec 4) : RoundTrip.Statement (.rem d a b lk) := by
  intro _; simp only [encode]; rw [decode_01 (opOf_wordR ..)]; simp [decodeInteger]

theorem RoundTrip.remu (d a b : Reg) (lk : BitVec 4) : RoundTrip.Statement (.remu d a b lk) := by
  intro _; simp only [encode]; rw [decode_01 (opOf_wordR ..)]; simp [decodeInteger]

theorem RoundTrip.clz (d a : Reg) : RoundTrip.Statement (.clz d a) := by
  intro _; simp only [encode]; rw [decode_02 (opOf_wordR ..)]; simp [decodeBit]

theorem RoundTrip.ctz (d a : Reg) : RoundTrip.Statement (.ctz d a) := by
  intro _; simp only [encode]; rw [decode_02 (opOf_wordR ..)]; simp [decodeBit]

theorem RoundTrip.pop (d a : Reg) : RoundTrip.Statement (.pop d a) := by
  intro _; simp only [encode]; rw [decode_02 (opOf_wordR ..)]; simp [decodeBit]

theorem RoundTrip.bext (d a b : Reg) : RoundTrip.Statement (.bext d a b) := by
  intro _; simp only [encode]; rw [decode_02 (opOf_wordR ..)]; simp [decodeBit]

theorem RoundTrip.bdep (d a b : Reg) : RoundTrip.Statement (.bdep d a b) := by
  intro _; simp only [encode]; rw [decode_02 (opOf_wordR ..)]; simp [decodeBit]

theorem RoundTrip.padd (d a b : Reg) : RoundTrip.Statement (.padd d a b) := by
  intro _; simp only [encode]; rw [decode_03 (opOf_wordR ..)]; simp [decodePointer]

theorem RoundTrip.pidx (d a b : Reg) : RoundTrip.Statement (.pidx d a b) := by
  intro _; simp only [encode]; rw [decode_03 (opOf_wordR ..)]; simp [decodePointer]

theorem RoundTrip.ptag (d a : Reg) : RoundTrip.Statement (.ptag d a) := by
  intro _; simp only [encode]; rw [decode_03 (opOf_wordR ..)]; simp [decodePointer]

theorem RoundTrip.ptagset (d a b : Reg) : RoundTrip.Statement (.ptagset d a b) := by
  intro _; simp only [encode]; rw [decode_03 (opOf_wordR ..)]; simp [decodePointer]

theorem RoundTrip.addi (d a : Reg) (imm : BitVec 15) : RoundTrip.Statement (.addi d a imm) := by
  intro _; simp only [encode]; rw [decode_08 (opOf_wordI ..)]; simp

theorem RoundTrip.andi (d a : Reg) (imm : BitVec 15) : RoundTrip.Statement (.andi d a imm) := by
  intro _; simp only [encode]; rw [decode_09 (opOf_wordI ..)]; simp

theorem RoundTrip.ori (d a : Reg) (imm : BitVec 15) : RoundTrip.Statement (.ori d a imm) := by
  intro _; simp only [encode]; rw [decode_0a (opOf_wordI ..)]; simp

theorem RoundTrip.xori (d a : Reg) (imm : BitVec 15) : RoundTrip.Statement (.xori d a imm) := by
  intro _; simp only [encode]; rw [decode_0b (opOf_wordI ..)]; simp

theorem RoundTrip.slli (d a : Reg) (imm : BitVec 6) : RoundTrip.Statement (.slli d a imm) := by
  intro _; simp only [encode]; rw [decode_0c (opOf_wordI ..)]; simp

theorem RoundTrip.srli (d a : Reg) (imm : BitVec 6) : RoundTrip.Statement (.srli d a imm) := by
  intro _; simp only [encode]; rw [decode_0d (opOf_wordI ..)]; simp

theorem RoundTrip.srai (d a : Reg) (imm : BitVec 6) : RoundTrip.Statement (.srai d a imm) := by
  intro _; simp only [encode]; rw [decode_0e (opOf_wordI ..)]; simp

theorem RoundTrip.paddi (d a : Reg) (imm : BitVec 15) : RoundTrip.Statement (.paddi d a imm) := by
  intro _; simp only [encode]; rw [decode_0f (opOf_wordI ..)]; simp

theorem RoundTrip.lui (d : Reg) (imm : BitVec 20) : RoundTrip.Statement (.lui d imm) := by
  intro _; simp only [encode]; rw [decode_10 (opOf_wordU ..)]; simp

theorem RoundTrip.faddS (d a b : Reg) (rm : BitVec 3) (lk : BitVec 4) : RoundTrip.Statement (.faddS d a b rm lk) := by
  intro _; simp only [encode]; rw [decode_20 (opOf_wordR ..)]; simp [decodeFloatS]

theorem RoundTrip.fsubS (d a b : Reg) (rm : BitVec 3) (lk : BitVec 4) : RoundTrip.Statement (.fsubS d a b rm lk) := by
  intro _; simp only [encode]; rw [decode_20 (opOf_wordR ..)]; simp [decodeFloatS]

theorem RoundTrip.fmulS (d a b : Reg) (rm : BitVec 3) (lk : BitVec 4) : RoundTrip.Statement (.fmulS d a b rm lk) := by
  intro _; simp only [encode]; rw [decode_20 (opOf_wordR ..)]; simp [decodeFloatS]

theorem RoundTrip.fdivS (d a b : Reg) (rm : BitVec 3) (lk : BitVec 4) : RoundTrip.Statement (.fdivS d a b rm lk) := by
  intro _; simp only [encode]; rw [decode_20 (opOf_wordR ..)]; simp [decodeFloatS]

theorem RoundTrip.fsqrtS (d a : Reg) (rm : BitVec 3) (lk : BitVec 4) : RoundTrip.Statement (.fsqrtS d a rm lk) := by
  intro _; simp only [encode]; rw [decode_20 (opOf_wordR ..)]; simp [decodeFloatS]

theorem RoundTrip.fminS (d a b : Reg) (lk : BitVec 4) : RoundTrip.Statement (.fminS d a b lk) := by
  intro _; simp only [encode]; rw [decode_20 (opOf_wordR ..)]; simp [decodeFloatS, highOf_wordR_fn, lowOf_wordR_fn]

theorem RoundTrip.fmaxS (d a b : Reg) (lk : BitVec 4) : RoundTrip.Statement (.fmaxS d a b lk) := by
  intro _; simp only [encode]; rw [decode_20 (opOf_wordR ..)]; simp [decodeFloatS, highOf_wordR_fn, lowOf_wordR_fn]

theorem RoundTrip.faddD (d a b : Reg) (rm : BitVec 3) (lk : BitVec 4) : RoundTrip.Statement (.faddD d a b rm lk) := by
  intro _; simp only [encode]; rw [decode_21 (opOf_wordR ..)]; simp [decodeFloatD]

theorem RoundTrip.fsubD (d a b : Reg) (rm : BitVec 3) (lk : BitVec 4) : RoundTrip.Statement (.fsubD d a b rm lk) := by
  intro _; simp only [encode]; rw [decode_21 (opOf_wordR ..)]; simp [decodeFloatD]

theorem RoundTrip.fmulD (d a b : Reg) (rm : BitVec 3) (lk : BitVec 4) : RoundTrip.Statement (.fmulD d a b rm lk) := by
  intro _; simp only [encode]; rw [decode_21 (opOf_wordR ..)]; simp [decodeFloatD]

theorem RoundTrip.fdivD (d a b : Reg) (rm : BitVec 3) (lk : BitVec 4) : RoundTrip.Statement (.fdivD d a b rm lk) := by
  intro _; simp only [encode]; rw [decode_21 (opOf_wordR ..)]; simp [decodeFloatD]

theorem RoundTrip.fsqrtD (d a : Reg) (rm : BitVec 3) (lk : BitVec 4) : RoundTrip.Statement (.fsqrtD d a rm lk) := by
  intro _; simp only [encode]; rw [decode_21 (opOf_wordR ..)]; simp [decodeFloatD]

theorem RoundTrip.fminD (d a b : Reg) (lk : BitVec 4) : RoundTrip.Statement (.fminD d a b lk) := by
  intro _; simp only [encode]; rw [decode_21 (opOf_wordR ..)]; simp [decodeFloatD, highOf_wordR_fn, lowOf_wordR_fn]

theorem RoundTrip.fmaxD (d a b : Reg) (lk : BitVec 4) : RoundTrip.Statement (.fmaxD d a b lk) := by
  intro _; simp only [encode]; rw [decode_21 (opOf_wordR ..)]; simp [decodeFloatD, highOf_wordR_fn, lowOf_wordR_fn]

theorem RoundTrip.fmaS (d a b : Reg) (rm : BitVec 3) (lk : BitVec 4) : RoundTrip.Statement (.fmaS d a b rm lk) := by
  intro _; simp only [encode]; rw [decode_22 (opOf_wordR ..)]; simp [decodeFusedS]

theorem RoundTrip.fmsS (d a b : Reg) (rm : BitVec 3) (lk : BitVec 4) : RoundTrip.Statement (.fmsS d a b rm lk) := by
  intro _; simp only [encode]; rw [decode_22 (opOf_wordR ..)]; simp [decodeFusedS]

theorem RoundTrip.fnmaS (d a b : Reg) (rm : BitVec 3) (lk : BitVec 4) : RoundTrip.Statement (.fnmaS d a b rm lk) := by
  intro _; simp only [encode]; rw [decode_22 (opOf_wordR ..)]; simp [decodeFusedS]

theorem RoundTrip.fnmsS (d a b : Reg) (rm : BitVec 3) (lk : BitVec 4) : RoundTrip.Statement (.fnmsS d a b rm lk) := by
  intro _; simp only [encode]; rw [decode_22 (opOf_wordR ..)]; simp [decodeFusedS]

theorem RoundTrip.fmaD (d a b : Reg) (rm : BitVec 3) (lk : BitVec 4) : RoundTrip.Statement (.fmaD d a b rm lk) := by
  intro _; simp only [encode]; rw [decode_23 (opOf_wordR ..)]; simp [decodeFusedD]

theorem RoundTrip.fmsD (d a b : Reg) (rm : BitVec 3) (lk : BitVec 4) : RoundTrip.Statement (.fmsD d a b rm lk) := by
  intro _; simp only [encode]; rw [decode_23 (opOf_wordR ..)]; simp [decodeFusedD]

theorem RoundTrip.fnmaD (d a b : Reg) (rm : BitVec 3) (lk : BitVec 4) : RoundTrip.Statement (.fnmaD d a b rm lk) := by
  intro _; simp only [encode]; rw [decode_23 (opOf_wordR ..)]; simp [decodeFusedD]

theorem RoundTrip.fnmsD (d a b : Reg) (rm : BitVec 3) (lk : BitVec 4) : RoundTrip.Statement (.fnmsD d a b rm lk) := by
  intro _; simp only [encode]; rw [decode_23 (opOf_wordR ..)]; simp [decodeFusedD]

theorem RoundTrip.fcmpS (d a b : Reg) (cc : BitVec 3) (lk : BitVec 4) : RoundTrip.Statement (.fcmpS d a b cc lk) := by
  intro _; simp only [encode]; rw [decode_24 (opOf_wordR ..)]; simp [decodeCompare]

theorem RoundTrip.fcmpD (d a b : Reg) (cc : BitVec 3) (lk : BitVec 4) : RoundTrip.Statement (.fcmpD d a b cc lk) := by
  intro _; simp only [encode]; rw [decode_24 (opOf_wordR ..)]; simp [decodeCompare]

theorem RoundTrip.fcvtSD (d a : Reg) (rm : BitVec 3) (lk : BitVec 4) : RoundTrip.Statement (.fcvtSD d a rm lk) := by
  intro _; simp only [encode]; rw [decode_25 (opOf_wordR ..)]; simp [decodeConvert]

theorem RoundTrip.fcvtDS (d a : Reg) (rm : BitVec 3) (lk : BitVec 4) : RoundTrip.Statement (.fcvtDS d a rm lk) := by
  intro _; simp only [encode]; rw [decode_25 (opOf_wordR ..)]; simp [decodeConvert]

theorem RoundTrip.fcvtSL (d a : Reg) (rm : BitVec 3) (lk : BitVec 4) : RoundTrip.Statement (.fcvtSL d a rm lk) := by
  intro _; simp only [encode]; rw [decode_25 (opOf_wordR ..)]; simp [decodeConvert]

theorem RoundTrip.fcvtDL (d a : Reg) (rm : BitVec 3) (lk : BitVec 4) : RoundTrip.Statement (.fcvtDL d a rm lk) := by
  intro _; simp only [encode]; rw [decode_25 (opOf_wordR ..)]; simp [decodeConvert]

theorem RoundTrip.fcvtLS (d a : Reg) (rm : BitVec 3) (lk : BitVec 4) : RoundTrip.Statement (.fcvtLS d a rm lk) := by
  intro _; simp only [encode]; rw [decode_25 (opOf_wordR ..)]; simp [decodeConvert]

theorem RoundTrip.fcvtLD (d a : Reg) (rm : BitVec 3) (lk : BitVec 4) : RoundTrip.Statement (.fcvtLD d a rm lk) := by
  intro _; simp only [encode]; rw [decode_25 (opOf_wordR ..)]; simp [decodeConvert]

theorem RoundTrip.fcvtDLu (d a : Reg) (rm : BitVec 3) (lk : BitVec 4) : RoundTrip.Statement (.fcvtDLu d a rm lk) := by
  intro _; simp only [encode]; rw [decode_25 (opOf_wordR ..)]; simp [decodeConvert]

theorem RoundTrip.fcvtLuD (d a : Reg) (rm : BitVec 3) (lk : BitVec 4) : RoundTrip.Statement (.fcvtLuD d a rm lk) := by
  intro _; simp only [encode]; rw [decode_25 (opOf_wordR ..)]; simp [decodeConvert]

theorem RoundTrip.beq (a b : Reg) (disp : BitVec 15) : RoundTrip.Statement (.beq a b disp) := by
  intro _; simp only [encode]; rw [decode_30 (opOf_wordB ..)]; simp

theorem RoundTrip.bne (a b : Reg) (disp : BitVec 15) : RoundTrip.Statement (.bne a b disp) := by
  intro _; simp only [encode]; rw [decode_31 (opOf_wordB ..)]; simp

theorem RoundTrip.blt (a b : Reg) (disp : BitVec 15) : RoundTrip.Statement (.blt a b disp) := by
  intro _; simp only [encode]; rw [decode_32 (opOf_wordB ..)]; simp

theorem RoundTrip.bge (a b : Reg) (disp : BitVec 15) : RoundTrip.Statement (.bge a b disp) := by
  intro _; simp only [encode]; rw [decode_33 (opOf_wordB ..)]; simp

theorem RoundTrip.bltu (a b : Reg) (disp : BitVec 15) : RoundTrip.Statement (.bltu a b disp) := by
  intro _; simp only [encode]; rw [decode_34 (opOf_wordB ..)]; simp

theorem RoundTrip.bgeu (a b : Reg) (disp : BitVec 15) : RoundTrip.Statement (.bgeu a b disp) := by
  intro _; simp only [encode]; rw [decode_35 (opOf_wordB ..)]; simp

theorem RoundTrip.bbs (a b : Reg) (disp : BitVec 15) : RoundTrip.Statement (.bbs a b disp) := by
  intro _; simp only [encode]; rw [decode_36 (opOf_wordB ..)]; simp

theorem RoundTrip.bbc (a b : Reg) (disp : BitVec 15) : RoundTrip.Statement (.bbc a b disp) := by
  intro _; simp only [encode]; rw [decode_37 (opOf_wordB ..)]; simp

theorem RoundTrip.jal (disp : BitVec 25) : RoundTrip.Statement (.jal disp) := by
  intro _; simp only [encode]; rw [decode_38 (opOf_wordJ ..)]; simp

theorem RoundTrip.jalr (d a : Reg) (imm : BitVec 15) : RoundTrip.Statement (.jalr d a imm) := by
  intro _; simp only [encode]; rw [decode_39 (opOf_wordI ..)]; simp

theorem RoundTrip.wait (d a : Reg) (imm : BitVec 5) : RoundTrip.Statement (.wait d a imm) := by
  intro _; simp only [encode]; rw [decode_3a (opOf_wordI ..)]; simp

theorem RoundTrip.ldB (d a : Reg) (mode : BitVec 2) (rx : BitVec 1) (off : BitVec 8) (lk : BitVec 4) : RoundTrip.Statement (.ldB d a mode rx off lk) := by
  intro _; simp only [encode]; rw [decode_40 (opOf_wordM ..)]; simp

theorem RoundTrip.ldH (d a : Reg) (mode : BitVec 2) (rx : BitVec 1) (off : BitVec 8) (lk : BitVec 4) : RoundTrip.Statement (.ldH d a mode rx off lk) := by
  intro _; simp only [encode]; rw [decode_41 (opOf_wordM ..)]; simp

theorem RoundTrip.ldW (d a : Reg) (mode : BitVec 2) (rx : BitVec 1) (off : BitVec 8) (lk : BitVec 4) : RoundTrip.Statement (.ldW d a mode rx off lk) := by
  intro _; simp only [encode]; rw [decode_42 (opOf_wordM ..)]; simp

theorem RoundTrip.ldD (d a : Reg) (mode : BitVec 2) (rx : BitVec 1) (off : BitVec 8) (lk : BitVec 4) : RoundTrip.Statement (.ldD d a mode rx off lk) := by
  intro _; simp only [encode]; rw [decode_43 (opOf_wordM ..)]; simp

theorem RoundTrip.ldBu (d a : Reg) (mode : BitVec 2) (rx : BitVec 1) (off : BitVec 8) (lk : BitVec 4) : RoundTrip.Statement (.ldBu d a mode rx off lk) := by
  intro _; simp only [encode]; rw [decode_44 (opOf_wordM ..)]; simp

theorem RoundTrip.ldHu (d a : Reg) (mode : BitVec 2) (rx : BitVec 1) (off : BitVec 8) (lk : BitVec 4) : RoundTrip.Statement (.ldHu d a mode rx off lk) := by
  intro _; simp only [encode]; rw [decode_45 (opOf_wordM ..)]; simp

theorem RoundTrip.ldWu (d a : Reg) (mode : BitVec 2) (rx : BitVec 1) (off : BitVec 8) (lk : BitVec 4) : RoundTrip.Statement (.ldWu d a mode rx off lk) := by
  intro _; simp only [encode]; rw [decode_46 (opOf_wordM ..)]; simp

theorem RoundTrip.stB (d a : Reg) (mode : BitVec 2) (rx : BitVec 1) (off : BitVec 8) : RoundTrip.Statement (.stB d a mode rx off) := by
  intro _; simp only [encode]; rw [decode_48 (opOf_wordM ..)]; simp

theorem RoundTrip.stH (d a : Reg) (mode : BitVec 2) (rx : BitVec 1) (off : BitVec 8) : RoundTrip.Statement (.stH d a mode rx off) := by
  intro _; simp only [encode]; rw [decode_49 (opOf_wordM ..)]; simp

theorem RoundTrip.stW (d a : Reg) (mode : BitVec 2) (rx : BitVec 1) (off : BitVec 8) : RoundTrip.Statement (.stW d a mode rx off) := by
  intro _; simp only [encode]; rw [decode_4a (opOf_wordM ..)]; simp

theorem RoundTrip.stD (d a : Reg) (mode : BitVec 2) (rx : BitVec 1) (off : BitVec 8) : RoundTrip.Statement (.stD d a mode rx off) := by
  intro _; simp only [encode]; rw [decode_4b (opOf_wordM ..)]; simp

theorem RoundTrip.ldAcq (d a : Reg) (mode : BitVec 2) (off : BitVec 8) (lk : BitVec 4) : RoundTrip.Statement (.ldAcq d a mode off lk) := by
  intro _; simp only [encode]; rw [decode_4c (opOf_wordM ..)]; simp

theorem RoundTrip.stRel (d a : Reg) (mode : BitVec 2) (off : BitVec 8) : RoundTrip.Statement (.stRel d a mode off) := by
  intro _; simp only [encode]; rw [decode_4d (opOf_wordM ..)]; simp

theorem RoundTrip.fenceScope (sc : BitVec 3) : RoundTrip.Statement (.fenceScope sc) := by
  intro _; simp only [encode]; rw [decode_4e (opOf_wordR ..)]; simp [decodeFence]

theorem RoundTrip.fenceLoop : RoundTrip.Statement .fenceLoop := by
  intro _; simp only [encode]; rw [decode_4e (opOf_wordR ..)]; simp [decodeFence, highOf_wordR_fn, lowOf_wordR_fn]

theorem RoundTrip.amoAddD (d a b : Reg) (sc : BitVec 3) (lk : BitVec 4) : RoundTrip.Statement (.amoAddD d a b sc lk) := by
  intro _; simp only [encode]; rw [decode_50 (opOf_wordR ..)]; simp [decodeAmoD]

theorem RoundTrip.amoMinD (d a b : Reg) (sc : BitVec 3) (lk : BitVec 4) : RoundTrip.Statement (.amoMinD d a b sc lk) := by
  intro _; simp only [encode]; rw [decode_50 (opOf_wordR ..)]; simp [decodeAmoD]

theorem RoundTrip.amoMaxD (d a b : Reg) (sc : BitVec 3) (lk : BitVec 4) : RoundTrip.Statement (.amoMaxD d a b sc lk) := by
  intro _; simp only [encode]; rw [decode_50 (opOf_wordR ..)]; simp [decodeAmoD]

theorem RoundTrip.amoXchgD (d a b : Reg) (sc : BitVec 3) (lk : BitVec 4) : RoundTrip.Statement (.amoXchgD d a b sc lk) := by
  intro _; simp only [encode]; rw [decode_50 (opOf_wordR ..)]; simp [decodeAmoD]

theorem RoundTrip.amoCasD (d a b : Reg) (sc : BitVec 3) (lk : BitVec 4) : RoundTrip.Statement (.amoCasD d a b sc lk) := by
  intro _; simp only [encode]; rw [decode_50 (opOf_wordR ..)]; simp [decodeAmoD]

theorem RoundTrip.amoMinuD (d a b : Reg) (sc : BitVec 3) (lk : BitVec 4) : RoundTrip.Statement (.amoMinuD d a b sc lk) := by
  intro _; simp only [encode]; rw [decode_50 (opOf_wordR ..)]; simp [decodeAmoD]

theorem RoundTrip.amoMaxuD (d a b : Reg) (sc : BitVec 3) (lk : BitVec 4) : RoundTrip.Statement (.amoMaxuD d a b sc lk) := by
  intro _; simp only [encode]; rw [decode_50 (opOf_wordR ..)]; simp [decodeAmoD]

theorem RoundTrip.amoAddW (d a b : Reg) (sc : BitVec 3) (lk : BitVec 4) : RoundTrip.Statement (.amoAddW d a b sc lk) := by
  intro _; simp only [encode]; rw [decode_51 (opOf_wordR ..)]; simp [decodeAmoW]

theorem RoundTrip.amoMinW (d a b : Reg) (sc : BitVec 3) (lk : BitVec 4) : RoundTrip.Statement (.amoMinW d a b sc lk) := by
  intro _; simp only [encode]; rw [decode_51 (opOf_wordR ..)]; simp [decodeAmoW]

theorem RoundTrip.amoMaxW (d a b : Reg) (sc : BitVec 3) (lk : BitVec 4) : RoundTrip.Statement (.amoMaxW d a b sc lk) := by
  intro _; simp only [encode]; rw [decode_51 (opOf_wordR ..)]; simp [decodeAmoW]

theorem RoundTrip.amoXchgW (d a b : Reg) (sc : BitVec 3) (lk : BitVec 4) : RoundTrip.Statement (.amoXchgW d a b sc lk) := by
  intro _; simp only [encode]; rw [decode_51 (opOf_wordR ..)]; simp [decodeAmoW]

theorem RoundTrip.amoCasW (d a b : Reg) (sc : BitVec 3) (lk : BitVec 4) : RoundTrip.Statement (.amoCasW d a b sc lk) := by
  intro _; simp only [encode]; rw [decode_51 (opOf_wordR ..)]; simp [decodeAmoW]

theorem RoundTrip.amoMinuW (d a b : Reg) (sc : BitVec 3) (lk : BitVec 4) : RoundTrip.Statement (.amoMinuW d a b sc lk) := by
  intro _; simp only [encode]; rw [decode_51 (opOf_wordR ..)]; simp [decodeAmoW]

theorem RoundTrip.amoMaxuW (d a b : Reg) (sc : BitVec 3) (lk : BitVec 4) : RoundTrip.Statement (.amoMaxuW d a b sc lk) := by
  intro _; simp only [encode]; rw [decode_51 (opOf_wordR ..)]; simp [decodeAmoW]

theorem RoundTrip.lrw (d a : Reg) (mode : BitVec 2) (off : BitVec 8) (lk : BitVec 4) : RoundTrip.Statement (.lrw d a mode off lk) := by
  intro _; simp only [encode]; rw [decode_52 (opOf_wordM ..)]; simp

theorem RoundTrip.sc (d a b : Reg) (lk : BitVec 4) : RoundTrip.Statement (.sc d a b lk) := by
  intro _; simp only [encode]; rw [decode_53 (opOf_wordR ..)]; simp

theorem RoundTrip.rupAdd (a b : Reg) (sc : BitVec 3) : RoundTrip.Statement (.rupAdd a b sc) := by
  intro _; simp only [encode]; rw [decode_54 (opOf_wordR ..)]; simp [decodeRup]

theorem RoundTrip.rupMin (a b : Reg) (sc : BitVec 3) : RoundTrip.Statement (.rupMin a b sc) := by
  intro _; simp only [encode]; rw [decode_54 (opOf_wordR ..)]; simp [decodeRup]

theorem RoundTrip.rupMax (a b : Reg) (sc : BitVec 3) : RoundTrip.Statement (.rupMax a b sc) := by
  intro _; simp only [encode]; rw [decode_54 (opOf_wordR ..)]; simp [decodeRup]

theorem RoundTrip.rupOr (a b : Reg) (sc : BitVec 3) : RoundTrip.Statement (.rupOr a b sc) := by
  intro _; simp only [encode]; rw [decode_54 (opOf_wordR ..)]; simp [decodeRup]

theorem RoundTrip.rupAnd (a b : Reg) (sc : BitVec 3) : RoundTrip.Statement (.rupAnd a b sc) := by
  intro _; simp only [encode]; rw [decode_54 (opOf_wordR ..)]; simp [decodeRup]

theorem RoundTrip.rupXor (a b : Reg) (sc : BitVec 3) : RoundTrip.Statement (.rupXor a b sc) := by
  intro _; simp only [encode]; rw [decode_54 (opOf_wordR ..)]; simp [decodeRup]

theorem RoundTrip.barinit (d a b : Reg) (sc : BitVec 3) : RoundTrip.Statement (.barinit d a b sc) := by
  intro _; simp only [encode]; rw [decode_58 (opOf_wordR ..)]; simp [decodeBarrier]

theorem RoundTrip.barjoin (d a b : Reg) (sc : BitVec 3) : RoundTrip.Statement (.barjoin d a b sc) := by
  intro _; simp only [encode]; rw [decode_58 (opOf_wordR ..)]; simp [decodeBarrier]

theorem RoundTrip.barwait (d a b : Reg) (sc : BitVec 3) (lk : BitVec 4) : RoundTrip.Statement (.barwait d a b sc lk) := by
  intro _; simp only [encode]; rw [decode_58 (opOf_wordR ..)]; simp [decodeBarrier]

theorem RoundTrip.barbytes (d a b : Reg) (sc : BitVec 3) : RoundTrip.Statement (.barbytes d a b sc) := by
  intro _; simp only [encode]; rw [decode_58 (opOf_wordR ..)]; simp [decodeBarrier]

theorem RoundTrip.qput (d a b : Reg) : RoundTrip.Statement (.qput d a b) := by
  intro _; simp only [encode]; rw [decode_59 (opOf_wordR ..)]; simp [decodeQueue]

theorem RoundTrip.qget (d a b : Reg) (lk : BitVec 4) : RoundTrip.Statement (.qget d a b lk) := by
  intro _; simp only [encode]; rw [decode_59 (opOf_wordR ..)]; simp [decodeQueue]

theorem RoundTrip.qcfg (d a b : Reg) : RoundTrip.Statement (.qcfg d a b) := by
  intro _; simp only [encode]; rw [decode_59 (opOf_wordR ..)]; simp [decodeQueue]

theorem RoundTrip.qstat (d a : Reg) : RoundTrip.Statement (.qstat d a) := by
  intro _; simp only [encode]; rw [decode_59 (opOf_wordR ..)]; simp [decodeQueue]

theorem RoundTrip.hold (d a b : Reg) (lk : BitVec 4) : RoundTrip.Statement (.hold d a b lk) := by
  intro _; simp only [encode]; rw [decode_5a (opOf_wordR ..)]; simp [decodeEstate]

theorem RoundTrip.unhold (d a : Reg) (lk : BitVec 4) : RoundTrip.Statement (.unhold d a lk) := by
  intro _; simp only [encode]; rw [decode_5a (opOf_wordR ..)]; simp [decodeEstate]

theorem RoundTrip.heir (d a b : Reg) (lk : BitVec 4) : RoundTrip.Statement (.heir d a b lk) := by
  intro _; simp only [encode]; rw [decode_5a (opOf_wordR ..)]; simp [decodeEstate]

theorem RoundTrip.promise (d a : Reg) (lk : BitVec 4) : RoundTrip.Statement (.promise d a lk) := by
  intro _; simp only [encode]; rw [decode_5a (opOf_wordR ..)]; simp [decodeEstate]

theorem RoundTrip.fulfil (d a b : Reg) : RoundTrip.Statement (.fulfil d a b) := by
  intro _; simp only [encode]; rw [decode_5a (opOf_wordR ..)]; simp [decodeEstate]

theorem RoundTrip.await (d a : Reg) (lk : BitVec 4) : RoundTrip.Statement (.await d a lk) := by
  intro _; simp only [encode]; rw [decode_5a (opOf_wordR ..)]; simp [decodeEstate]

theorem RoundTrip.estq (d a b : Reg) (lk : BitVec 4) : RoundTrip.Statement (.estq d a b lk) := by
  intro _; simp only [encode]; rw [decode_5a (opOf_wordR ..)]; simp [decodeEstate]

theorem RoundTrip.vadd (a b : Reg) : RoundTrip.Statement (.vadd a b) := by
  intro _; simp only [encode]; rw [decode_60 (opOf_wordC ..)]; simp [decodeVectorCommand, decodeCommand]

theorem RoundTrip.vsub (a b : Reg) : RoundTrip.Statement (.vsub a b) := by
  intro _; simp only [encode]; rw [decode_60 (opOf_wordC ..)]; simp [decodeVectorCommand, decodeCommand]

theorem RoundTrip.vmul (a b : Reg) : RoundTrip.Statement (.vmul a b) := by
  intro _; simp only [encode]; rw [decode_60 (opOf_wordC ..)]; simp [decodeVectorCommand, decodeCommand]

theorem RoundTrip.vdiv (a b : Reg) : RoundTrip.Statement (.vdiv a b) := by
  intro _; simp only [encode]; rw [decode_60 (opOf_wordC ..)]; simp [decodeVectorCommand, decodeCommand]

theorem RoundTrip.vmin (a b : Reg) : RoundTrip.Statement (.vmin a b) := by
  intro _; simp only [encode]; rw [decode_60 (opOf_wordC ..)]; simp [decodeVectorCommand, decodeCommand]

theorem RoundTrip.vmax (a b : Reg) : RoundTrip.Statement (.vmax a b) := by
  intro _; simp only [encode]; rw [decode_60 (opOf_wordC ..)]; simp [decodeVectorCommand, decodeCommand]

theorem RoundTrip.vfma (a b : Reg) : RoundTrip.Statement (.vfma a b) := by
  intro _; simp only [encode]; rw [decode_60 (opOf_wordC ..)]; simp [decodeVectorCommand, decodeCommand]

theorem RoundTrip.vabs (a b : Reg) : RoundTrip.Statement (.vabs a b) := by
  intro _; simp only [encode]; rw [decode_60 (opOf_wordC ..)]; simp [decodeVectorCommand, decodeCommand]

theorem RoundTrip.vneg (a b : Reg) : RoundTrip.Statement (.vneg a b) := by
  intro _; simp only [encode]; rw [decode_60 (opOf_wordC ..)]; simp [decodeVectorCommand, decodeCommand]

theorem RoundTrip.vsqrt (a b : Reg) : RoundTrip.Statement (.vsqrt a b) := by
  intro _; simp only [encode]; rw [decode_60 (opOf_wordC ..)]; simp [decodeVectorCommand, decodeCommand]

theorem RoundTrip.vcvt (a b : Reg) : RoundTrip.Statement (.vcvt a b) := by
  intro _; simp only [encode]; rw [decode_60 (opOf_wordC ..)]; simp [decodeVectorCommand, decodeCommand]

theorem RoundTrip.vand (a b : Reg) : RoundTrip.Statement (.vand a b) := by
  intro _; simp only [encode]; rw [decode_60 (opOf_wordC ..)]; simp [decodeVectorCommand, decodeCommand]

theorem RoundTrip.vor (a b : Reg) : RoundTrip.Statement (.vor a b) := by
  intro _; simp only [encode]; rw [decode_60 (opOf_wordC ..)]; simp [decodeVectorCommand, decodeCommand]

theorem RoundTrip.vxor (a b : Reg) : RoundTrip.Statement (.vxor a b) := by
  intro _; simp only [encode]; rw [decode_60 (opOf_wordC ..)]; simp [decodeVectorCommand, decodeCommand]

theorem RoundTrip.vshl (a b : Reg) : RoundTrip.Statement (.vshl a b) := by
  intro _; simp only [encode]; rw [decode_60 (opOf_wordC ..)]; simp [decodeVectorCommand, decodeCommand]

theorem RoundTrip.vshr (a b : Reg) : RoundTrip.Statement (.vshr a b) := by
  intro _; simp only [encode]; rw [decode_60 (opOf_wordC ..)]; simp [decodeVectorCommand, decodeCommand]

theorem RoundTrip.vsum (a b : Reg) : RoundTrip.Statement (.vsum a b) := by
  intro _; simp only [encode]; rw [decode_60 (opOf_wordC ..)]; simp [decodeVectorCommand, decodeCommand]

theorem RoundTrip.vrmax (a b : Reg) : RoundTrip.Statement (.vrmax a b) := by
  intro _; simp only [encode]; rw [decode_60 (opOf_wordC ..)]; simp [decodeVectorCommand, decodeCommand]

theorem RoundTrip.vrmin (a b : Reg) : RoundTrip.Statement (.vrmin a b) := by
  intro _; simp only [encode]; rw [decode_60 (opOf_wordC ..)]; simp [decodeVectorCommand, decodeCommand]

theorem RoundTrip.vsumsq (a b : Reg) : RoundTrip.Statement (.vsumsq a b) := by
  intro _; simp only [encode]; rw [decode_60 (opOf_wordC ..)]; simp [decodeVectorCommand, decodeCommand]

theorem RoundTrip.vexp (a b : Reg) : RoundTrip.Statement (.vexp a b) := by
  intro _; simp only [encode]; rw [decode_60 (opOf_wordC ..)]; simp [decodeVectorCommand, decodeCommand]

theorem RoundTrip.vlog (a b : Reg) : RoundTrip.Statement (.vlog a b) := by
  intro _; simp only [encode]; rw [decode_60 (opOf_wordC ..)]; simp [decodeVectorCommand, decodeCommand]

theorem RoundTrip.vrcp (a b : Reg) : RoundTrip.Statement (.vrcp a b) := by
  intro _; simp only [encode]; rw [decode_60 (opOf_wordC ..)]; simp [decodeVectorCommand, decodeCommand]

theorem RoundTrip.vrsqrt (a b : Reg) : RoundTrip.Statement (.vrsqrt a b) := by
  intro _; simp only [encode]; rw [decode_60 (opOf_wordC ..)]; simp [decodeVectorCommand, decodeCommand]

theorem RoundTrip.vtanh (a b : Reg) : RoundTrip.Statement (.vtanh a b) := by
  intro _; simp only [encode]; rw [decode_60 (opOf_wordC ..)]; simp [decodeVectorCommand, decodeCommand]

theorem RoundTrip.vsilu (a b : Reg) : RoundTrip.Statement (.vsilu a b) := by
  intro _; simp only [encode]; rw [decode_60 (opOf_wordC ..)]; simp [decodeVectorCommand, decodeCommand]

theorem RoundTrip.vgelu (a b : Reg) : RoundTrip.Statement (.vgelu a b) := by
  intro _; simp only [encode]; rw [decode_60 (opOf_wordC ..)]; simp [decodeVectorCommand, decodeCommand]

theorem RoundTrip.vfence : RoundTrip.Statement .vfence := by
  intro _; simp only [encode]; rw [decode_60 (opOf_wordC ..)]; simp [decodeVectorCommand, decodeCommand]

theorem RoundTrip.cpbox (a b : Reg) : RoundTrip.Statement (.cpbox a b) := by
  intro _; simp only [encode]; rw [decode_60 (opOf_wordC ..)]; simp [decodeCopyCommand, decodeCommand]

theorem RoundTrip.cpmc (a b : Reg) : RoundTrip.Statement (.cpmc a b) := by
  intro _; simp only [encode]; rw [decode_60 (opOf_wordC ..)]; simp [decodeCopyCommand, decodeCommand]

theorem RoundTrip.cpcan (a b : Reg) : RoundTrip.Statement (.cpcan a b) := by
  intro _; simp only [encode]; rw [decode_60 (opOf_wordC ..)]; simp [decodeCopyCommand, decodeCommand]

theorem RoundTrip.cpredAddF32 (a b : Reg) : RoundTrip.Statement (.cpredAddF32 a b) := by
  intro _; simp only [encode]; rw [decode_60 (opOf_wordC ..)]; simp [decodeCopyCommand, decodeCommand]

theorem RoundTrip.cpredAddBf16 (a b : Reg) : RoundTrip.Statement (.cpredAddBf16 a b) := by
  intro _; simp only [encode]; rw [decode_60 (opOf_wordC ..)]; simp [decodeCopyCommand, decodeCommand]

theorem RoundTrip.cpredMaxF32 (a b : Reg) : RoundTrip.Statement (.cpredMaxF32 a b) := by
  intro _; simp only [encode]; rw [decode_60 (opOf_wordC ..)]; simp [decodeCopyCommand, decodeCommand]

theorem RoundTrip.cpredMaxBf16 (a b : Reg) : RoundTrip.Statement (.cpredMaxBf16 a b) := by
  intro _; simp only [encode]; rw [decode_60 (opOf_wordC ..)]; simp [decodeCopyCommand, decodeCommand]

theorem RoundTrip.cpredMinF32 (a b : Reg) : RoundTrip.Statement (.cpredMinF32 a b) := by
  intro _; simp only [encode]; rw [decode_60 (opOf_wordC ..)]; simp [decodeCopyCommand, decodeCommand]

theorem RoundTrip.cpredMinBf16 (a b : Reg) : RoundTrip.Statement (.cpredMinBf16 a b) := by
  intro _; simp only [encode]; rw [decode_60 (opOf_wordC ..)]; simp [decodeCopyCommand, decodeCommand]

theorem RoundTrip.mgath (a b : Reg) : RoundTrip.Statement (.mgath a b) := by
  intro _; simp only [encode]; rw [decode_60 (opOf_wordC ..)]; simp [decodeMatrixCommand, decodeCommand]

theorem RoundTrip.mgang : RoundTrip.Statement .mgang := by
  intro _; simp only [encode]; rw [decode_60 (opOf_wordC ..)]; simp [decodeMatrixCommand, decodeCommand]

theorem RoundTrip.mzero (a : Reg) : RoundTrip.Statement (.mzero a) := by
  intro _; simp only [encode]; rw [decode_60 (opOf_wordC ..)]; simp [decodeMatrixCommand, decodeCommand]

theorem RoundTrip.mdrain (a b : Reg) : RoundTrip.Statement (.mdrain a b) := by
  intro _; simp only [encode]; rw [decode_60 (opOf_wordC ..)]; simp [decodeMatrixCommand, decodeCommand]

theorem RoundTrip.mband (a : Reg) : RoundTrip.Statement (.mband a) := by
  intro _; simp only [encode]; rw [decode_60 (opOf_wordC ..)]; simp [decodeMatrixCommand, decodeCommand]

theorem RoundTrip.mmaF4 (a b : Reg) : RoundTrip.Statement (.mmaF4 a b) := by
  intro _; simp only [encode]; rw [decode_60 (opOf_wordC ..)]; simp [decodeMatrixCommand, decodeCommand]

theorem RoundTrip.mmaF8 (a b : Reg) : RoundTrip.Statement (.mmaF8 a b) := by
  intro _; simp only [encode]; rw [decode_60 (opOf_wordC ..)]; simp [decodeMatrixCommand, decodeCommand]

theorem RoundTrip.mmaBf16 (a b : Reg) : RoundTrip.Statement (.mmaBf16 a b) := by
  intro _; simp only [encode]; rw [decode_60 (opOf_wordC ..)]; simp [decodeMatrixCommand, decodeCommand]

theorem RoundTrip.mmaI8 (a b : Reg) : RoundTrip.Statement (.mmaI8 a b) := by
  intro _; simp only [encode]; rw [decode_60 (opOf_wordC ..)]; simp [decodeMatrixCommand, decodeCommand]

theorem RoundTrip.acfg (a b : Reg) : RoundTrip.Statement (.acfg a b) := by
  intro _; simp only [encode]; rw [decode_60 (opOf_wordC ..)]; simp [decodeMeadowCommand, decodeCommand]

theorem RoundTrip.acoef (a b : Reg) : RoundTrip.Statement (.acoef a b) := by
  intro _; simp only [encode]; rw [decode_60 (opOf_wordC ..)]; simp [decodeMeadowCommand, decodeCommand]

theorem RoundTrip.ascale (a b : Reg) : RoundTrip.Statement (.ascale a b) := by
  intro _; simp only [encode]; rw [decode_60 (opOf_wordC ..)]; simp [decodeMeadowCommand, decodeCommand]

theorem RoundTrip.arun (a : Reg) : RoundTrip.Statement (.arun a) := by
  intro _; simp only [encode]; rw [decode_60 (opOf_wordC ..)]; simp [decodeMeadowCommand, decodeCommand]

theorem RoundTrip.ahold (a : Reg) : RoundTrip.Statement (.ahold a) := by
  intro _; simp only [encode]; rw [decode_60 (opOf_wordC ..)]; simp [decodeMeadowCommand, decodeCommand]

theorem RoundTrip.areset (a : Reg) : RoundTrip.Statement (.areset a) := by
  intro _; simp only [encode]; rw [decode_60 (opOf_wordC ..)]; simp [decodeMeadowCommand, decodeCommand]

theorem RoundTrip.lturn (a b : Reg) : RoundTrip.Statement (.lturn a b) := by
  intro _; simp only [encode]; rw [decode_60 (opOf_wordC ..)]; simp [decodeLinkCommand, decodeCommand]

theorem RoundTrip.rsvr (a b : Reg) : RoundTrip.Statement (.rsvr a b) := by
  intro _; simp only [encode]; rw [decode_60 (opOf_wordC ..)]; simp [decodeLinkCommand, decodeCommand]

theorem RoundTrip.rpart (a b : Reg) : RoundTrip.Statement (.rpart a b) := by
  intro _; simp only [encode]; rw [decode_60 (opOf_wordC ..)]; simp [decodeLinkCommand, decodeCommand]

theorem RoundTrip.rep (a b : Reg) (len : BitVec 4) : RoundTrip.Statement (.rep a b len) := by
  intro _; simp only [encode]; rw [decode_60 (opOf_wordC ..)]; simp [decodeCommand]

theorem RoundTrip.vbusy (d a : Reg) : RoundTrip.Statement (.vbusy d a) := by
  intro _; simp only [encode]; rw [decode_61 (opOf_wordR ..)]; simp [decodeResult]

theorem RoundTrip.vcmpm (d a b : Reg) (lk : BitVec 4) : RoundTrip.Statement (.vcmpm d a b lk) := by
  intro _; simp only [encode]; rw [decode_61 (opOf_wordR ..)]; simp [decodeResult]

theorem RoundTrip.cpstat (d a : Reg) : RoundTrip.Statement (.cpstat d a) := by
  intro _; simp only [encode]; rw [decode_61 (opOf_wordR ..)]; simp [decodeResult]

theorem RoundTrip.cpwait (d a : Reg) (lk : BitVec 4) : RoundTrip.Statement (.cpwait d a lk) := by
  intro _; simp only [encode]; rw [decode_61 (opOf_wordR ..)]; simp [decodeResult]

theorem RoundTrip.mwait (d a : Reg) (lk : BitVec 4) : RoundTrip.Statement (.mwait d a lk) := by
  intro _; simp only [encode]; rw [decode_61 (opOf_wordR ..)]; simp [decodeResult]

theorem RoundTrip.astat (d a : Reg) : RoundTrip.Statement (.astat d a) := by
  intro _; simp only [encode]; rw [decode_61 (opOf_wordR ..)]; simp [decodeResult]

theorem RoundTrip.asettle (d a b : Reg) (lk : BitVec 4) : RoundTrip.Statement (.asettle d a b lk) := by
  intro _; simp only [encode]; rw [decode_61 (opOf_wordR ..)]; simp [decodeResult]

theorem RoundTrip.asample (d a b : Reg) (lk : BitVec 4) : RoundTrip.Statement (.asample d a b lk) := by
  intro _; simp only [encode]; rw [decode_61 (opOf_wordR ..)]; simp [decodeResult]

theorem RoundTrip.lstat (d a : Reg) : RoundTrip.Statement (.lstat d a) := by
  intro _; simp only [encode]; rw [decode_61 (opOf_wordR ..)]; simp [decodeResult]

theorem RoundTrip.grpq (d a : Reg) (lk : BitVec 4) : RoundTrip.Statement (.grpq d a lk) := by
  intro _; simp only [encode]; rw [decode_61 (opOf_wordR ..)]; simp [decodeResult]

theorem RoundTrip.sysr (d : Reg) (sr : BitVec 12) : RoundTrip.Statement (.sysr d sr) := by
  intro _; simp only [encode]; rw [decode_68 (opOf_wordS ..)]; simp [decodeSysreg]

theorem RoundTrip.sysw (a : Reg) (sr : BitVec 12) : RoundTrip.Statement (.sysw a sr) := by
  intro _; simp only [encode]; rw [decode_68 (opOf_wordS ..)]; simp [decodeSysreg]

theorem RoundTrip.tsr (d : Reg) (sr : BitVec 12) : RoundTrip.Statement (.tsr d sr) := by
  intro _; simp only [encode]; rw [decode_69 (opOf_wordS ..)]; simp

theorem RoundTrip.ewr (a : Reg) (eng : BitVec 3) (sr : BitVec 9) : RoundTrip.Statement (.ewr a eng sr) := by
  intro _; simp only [encode]; rw [decode_6a (opOf_wordS ..)]; simp

theorem RoundTrip.trap (imm : BitVec 15) : RoundTrip.Statement (.trap imm) := by
  intro _; simp only [encode]; rw [decode_6b (opOf_wordI ..)]; simp

theorem RoundTrip.eret : RoundTrip.Statement .eret := by
  intro _; simp only [encode]; rw [decode_6c (opOf_wordR ..)]; simp [decodeReturn]

theorem RoundTrip.uret : RoundTrip.Statement .uret := by
  intro _; simp only [encode]; rw [decode_6c (opOf_wordR ..)]; simp [decodeReturn]

theorem RoundTrip.ctxsave (d a b : Reg) : RoundTrip.Statement (.ctxsave d a b) := by
  intro _; simp only [encode]; rw [decode_6d (opOf_wordR ..)]; simp [decodeContext]

theorem RoundTrip.ctxload (d a b : Reg) : RoundTrip.Statement (.ctxload d a b) := by
  intro _; simp only [encode]; rw [decode_6d (opOf_wordR ..)]; simp [decodeContext]

theorem RoundTrip.slotw (d a b : Reg) : RoundTrip.Statement (.slotw d a b) := by
  intro _; simp only [encode]; rw [decode_6d (opOf_wordR ..)]; simp [decodeContext]

theorem RoundTrip.yield (d a : Reg) : RoundTrip.Statement (.yield d a) := by
  intro _; simp only [encode]; rw [decode_6d (opOf_wordR ..)]; simp [decodeContext]

theorem RoundTrip.migrate (d a : Reg) : RoundTrip.Statement (.migrate d a) := by
  intro _; simp only [encode]; rw [decode_6d (opOf_wordR ..)]; simp [decodeContext]

theorem RoundTrip.pin (d a : Reg) : RoundTrip.Statement (.pin d a) := by
  intro _; simp only [encode]; rw [decode_6d (opOf_wordR ..)]; simp [decodeContext]

theorem RoundTrip.launch (d a b : Reg) (lk : BitVec 4) : RoundTrip.Statement (.launch d a b lk) := by
  intro _; simp only [encode]; rw [decode_6e (opOf_wordR ..)]; simp [decodeKernel]

theorem RoundTrip.tlaunch (d a b : Reg) (lk : BitVec 4) : RoundTrip.Statement (.tlaunch d a b lk) := by
  intro _; simp only [encode]; rw [decode_6e (opOf_wordR ..)]; simp [decodeKernel]

theorem RoundTrip.kwait (d a : Reg) (lk : BitVec 4) : RoundTrip.Statement (.kwait d a lk) := by
  intro _; simp only [encode]; rw [decode_6e (opOf_wordR ..)]; simp [decodeKernel]

theorem RoundTrip.kstat (d a : Reg) : RoundTrip.Statement (.kstat d a) := by
  intro _; simp only [encode]; rw [decode_6e (opOf_wordR ..)]; simp [decodeKernel]

theorem RoundTrip.spawn (d a b : Reg) (lk : BitVec 4) : RoundTrip.Statement (.spawn d a b lk) := by
  intro _; simp only [encode]; rw [decode_6e (opOf_wordR ..)]; simp [decodeKernel]

theorem RoundTrip.exit : RoundTrip.Statement .exit := by
  intro _; simp only [encode]; rw [decode_6e (opOf_wordR ..)]; simp [decodeKernel]

theorem RoundTrip.kill (d a b : Reg) : RoundTrip.Statement (.kill d a b) := by
  intro _; simp only [encode]; rw [decode_6e (opOf_wordR ..)]; simp [decodeKernel]

theorem RoundTrip.send (a b : Reg) : RoundTrip.Statement (.send a b) := by
  intro _; simp only [encode]; rw [decode_6e (opOf_wordR ..)]; simp [decodeKernel]

theorem RoundTrip.recv (d a b : Reg) (lk : BitVec 4) : RoundTrip.Statement (.recv d a b lk) := by
  intro _; simp only [encode]; rw [decode_6e (opOf_wordR ..)]; simp [decodeKernel]

theorem RoundTrip.gstat (d a : Reg) : RoundTrip.Statement (.gstat d a) := by
  intro _; simp only [encode]; rw [decode_6e (opOf_wordR ..)]; simp [decodeKernel]

theorem RoundTrip.pfq (d a b : Reg) (lk : BitVec 4) : RoundTrip.Statement (.pfq d a b lk) := by
  intro _; simp only [encode]; rw [decode_6f (opOf_wordR ..)]; simp [decodePage]

theorem RoundTrip.presume (d a b : Reg) : RoundTrip.Statement (.presume d a b) := by
  intro _; simp only [encode]; rw [decode_6f (opOf_wordR ..)]; simp [decodePage]

theorem RoundTrip.pinv (d a b : Reg) : RoundTrip.Statement (.pinv d a b) := by
  intro _; simp only [encode]; rw [decode_6f (opOf_wordR ..)]; simp [decodePage]

theorem RoundTrip.pgive (d a b : Reg) : RoundTrip.Statement (.pgive d a b) := by
  intro _; simp only [encode]; rw [decode_6f (opOf_wordR ..)]; simp [decodePage]

theorem RoundTrip.ptake (d a : Reg) (lk : BitVec 4) : RoundTrip.Statement (.ptake d a lk) := by
  intro _; simp only [encode]; rw [decode_6f (opOf_wordR ..)]; simp [decodePage]

theorem RoundTrip.resultArrival (r : Response) : RoundTrip.Statement (.resultArrival r) := nofun

theorem RoundTrip.remoteRequestArrival (r : Request) : RoundTrip.Statement (.remoteRequestArrival r) := nofun

theorem RoundTrip.reservationAdmit (core : Nat) : RoundTrip.Statement (.reservationAdmit core) := nofun

theorem RoundTrip.postedStoreTrap (key : Nat) : RoundTrip.Statement (.postedStoreTrap key) := nofun

theorem RoundTrip.jrefClear (core : Nat) (mask : BitVec 64) : RoundTrip.Statement (.jrefClear core mask) := nofun

theorem RoundTrip.handlerEntry (key : Nat) : RoundTrip.Statement (.handlerEntry key) := nofun

theorem RoundTrip.userInterruptDelivery (key : Nat) : RoundTrip.Statement (.userInterruptDelivery key) := nofun

theorem RoundTrip.hevqRead (key : Nat) (d : BitVec 5) : RoundTrip.Statement (.hevqRead key d) := nofun

theorem RoundTrip.sstateWrite (key : Nat) (v : BitVec 64) : RoundTrip.Statement (.sstateWrite key v) := nofun

theorem RoundTrip.dieretWrite (key : Nat) (v : BitVec 64) : RoundTrip.Statement (.dieretWrite key v) := nofun

theorem RoundTrip.diemapWrite (high : Bool) (v : BitVec 64) : RoundTrip.Statement (.diemapWrite high v) := nofun

theorem RoundTrip.asidtabWrite (v : BitVec 64) : RoundTrip.Statement (.asidtabWrite v) := nofun

theorem RoundTrip.eshareWrite (core : Nat) (high : Bool) (v : BitVec 64) : RoundTrip.Statement (.eshareWrite core high v) := nofun

theorem RoundTrip.mplotWrite (die : Nat) (p : Nat) (v : BitVec 64) : RoundTrip.Statement (.mplotWrite die p v) := nofun

theorem RoundTrip.bownWrite (key : Nat) (v : BitVec 64) : RoundTrip.Statement (.bownWrite key v) := nofun

theorem RoundTrip.pnodeAssign (v : BitVec 64) : RoundTrip.Statement (.pnodeAssign v) := nofun

theorem RoundTrip.pnodeRelease (v : BitVec 64) : RoundTrip.Statement (.pnodeRelease v) := nofun

theorem RoundTrip.vfPause (vf : Nat) : RoundTrip.Statement (.vfPause vf) := nofun

theorem RoundTrip.vfResume (vf : Nat) : RoundTrip.Statement (.vfResume vf) := nofun

theorem RoundTrip.hdbRead (key : Nat) (d : BitVec 5) (f : Nat) : RoundTrip.Statement (.hdbRead key d f) := nofun

theorem RoundTrip.hostDoorbellWrite (f : Nat) (v : BitVec 64) : RoundTrip.Statement (.hostDoorbellWrite f v) := nofun

theorem RoundTrip.parkedClear (core : Nat) (mask : BitVec 64) : RoundTrip.Statement (.parkedClear core mask) := nofun

theorem RoundTrip.frameBoundary (core : Nat) : RoundTrip.Statement (.frameBoundary core) := nofun

theorem RoundTrip.energyRefill (core : Nat) : RoundTrip.Statement (.energyRefill core) := nofun

theorem RoundTrip.balancingInterval (core : Nat) : RoundTrip.Statement (.balancingInterval core) := nofun

theorem RoundTrip.migrationSend (key : Nat) (dst : Nat) (cause : MigCause) : RoundTrip.Statement (.migrationSend key dst cause) := nofun

theorem RoundTrip.migrationPacketArrival (p : MigPacket) : RoundTrip.Statement (.migrationPacketArrival p) := nofun

theorem RoundTrip.migrationRefusalReturn (p : MigPacket) (status : Nat) : RoundTrip.Statement (.migrationRefusalReturn p status) := nofun

theorem RoundTrip.vectorOpStart (core : Nat) : RoundTrip.Statement (.vectorOpStart core) := nofun

theorem RoundTrip.vectorBeat (core : Nat) : RoundTrip.Statement (.vectorBeat core) := nofun

theorem RoundTrip.vectorOpComplete (core : Nat) (id : Nat) : RoundTrip.Statement (.vectorOpComplete core id) := nofun

theorem RoundTrip.channelEntryMove (core : Nat) (ch : Nat) : RoundTrip.Statement (.channelEntryMove core ch) := nofun

theorem RoundTrip.repReissue (key : Nat) : RoundTrip.Statement (.repReissue key) := nofun

theorem RoundTrip.copyOpStart (core : Nat) : RoundTrip.Statement (.copyOpStart core) := nofun

theorem RoundTrip.copyOpComplete (core : Nat) (id : Nat) : RoundTrip.Statement (.copyOpComplete core id) := nofun

theorem RoundTrip.matrixCmdStart (core : Nat) : RoundTrip.Statement (.matrixCmdStart core) := nofun

theorem RoundTrip.gangRelease (die : Nat) (quad : Nat) : RoundTrip.Statement (.gangRelease die quad) := nofun

theorem RoundTrip.matrixCmdComplete (core : Nat) : RoundTrip.Statement (.matrixCmdComplete core) := nofun

theorem RoundTrip.meadowApply (r : MeadowReq) : RoundTrip.Statement (.meadowApply r) := nofun

theorem RoundTrip.settleFreeze (die : Nat) (plot : Nat) (key : Nat) (wid : Nat) : RoundTrip.Statement (.settleFreeze die plot key wid) := nofun

theorem RoundTrip.settleTimeout (die : Nat) (plot : Nat) (key : Nat) (wid : Nat) : RoundTrip.Statement (.settleTimeout die plot key wid) := nofun

theorem RoundTrip.plotSaturation (die : Nat) (plot : Nat) (sum : Bool) (ix : Nat) : RoundTrip.Statement (.plotSaturation die plot sum ix) := nofun

theorem RoundTrip.calibrationStart (die : Nat) : RoundTrip.Statement (.calibrationStart die) := nofun

theorem RoundTrip.calibrationEnd (die : Nat) : RoundTrip.Statement (.calibrationEnd die) := nofun

theorem RoundTrip.calibrationStale (die : Nat) : RoundTrip.Statement (.calibrationStale die) := nofun

theorem RoundTrip.kernelPromiseRelease (die : Nat) (ix : Nat) : RoundTrip.Statement (.kernelPromiseRelease die ix) := nofun

theorem RoundTrip.kernelTimedStart (die : Nat) (ix : Nat) : RoundTrip.Statement (.kernelTimedStart die ix) := nofun

theorem RoundTrip.kernelPlacement (die : Nat) (ix : Nat) : RoundTrip.Statement (.kernelPlacement die ix) := nofun

theorem RoundTrip.kernelThreadCreate (die : Nat) (ix : Nat) : RoundTrip.Statement (.kernelThreadCreate die ix) := nofun

theorem RoundTrip.kernelDrainEnd (die : Nat) (group : BitVec 16) : RoundTrip.Statement (.kernelDrainEnd die group) := nofun

theorem RoundTrip.groupKillArrival (key : Nat) (d : BitVec 5) (asid : BitVec 16) (group : BitVec 16) : RoundTrip.Statement (.groupKillArrival key d asid group) := nofun

theorem RoundTrip.threadEnd (key : Nat) : RoundTrip.Statement (.threadEnd key) := nofun

theorem RoundTrip.slotVacate (key : Nat) : RoundTrip.Statement (.slotVacate key) := nofun

theorem RoundTrip.messageArrival (m : Msg) : RoundTrip.Statement (.messageArrival m) := nofun

theorem RoundTrip.staleResponse (m : Msg) : RoundTrip.Statement (.staleResponse m) := nofun

theorem RoundTrip.inboxResend (m : Msg) : RoundTrip.Statement (.inboxResend m) := nofun

theorem RoundTrip.conveyanceStart (group : BitVec 16) : RoundTrip.Statement (.conveyanceStart group) := nofun

theorem RoundTrip.conveyanceStep (group : BitVec 16) : RoundTrip.Statement (.conveyanceStep group) := nofun

theorem RoundTrip.arrivalRecordWrite (group : BitVec 16) : RoundTrip.Statement (.arrivalRecordWrite group) := nofun

theorem RoundTrip.ctxsaveRequest (r : CtxReq) : RoundTrip.Statement (.ctxsaveRequest r) := nofun

theorem RoundTrip.saveImageWrite (r : CtxReq) : RoundTrip.Statement (.saveImageWrite r) := nofun

theorem RoundTrip.ctxloadRequest (r : CtxReq) : RoundTrip.Statement (.ctxloadRequest r) := nofun

theorem RoundTrip.divertClearRequest (core : Nat) (asid : BitVec 16) (area : BitVec 64) : RoundTrip.Statement (.divertClearRequest core asid area) := nofun

theorem RoundTrip.slotwRequest (key : Nat) (d : BitVec 5) (core : Nat) (v : BitVec 64) : RoundTrip.Statement (.slotwRequest key d core v) := nofun

theorem RoundTrip.qcfgRequest (key : Nat) (d : BitVec 5) (core : Nat) (q : Nat) (v : BitVec 64) : RoundTrip.Statement (.qcfgRequest key d core q v) := nofun

theorem RoundTrip.walkEnd (key : Nat) : RoundTrip.Statement (.walkEnd key) := nofun

theorem RoundTrip.presumeRelease (name : BitVec 22) (defer : Bool) : RoundTrip.Statement (.presumeRelease name defer) := nofun

theorem RoundTrip.giveRequest (r : GiveReq) : RoundTrip.Statement (.giveRequest r) := nofun

theorem RoundTrip.giveEvent (r : GiveReq) : RoundTrip.Statement (.giveEvent r) := nofun

theorem RoundTrip.giveAdmit (core : Nat) : RoundTrip.Statement (.giveAdmit core) := nofun

theorem RoundTrip.takeRequest (r : Request) : RoundTrip.Statement (.takeRequest r) := nofun

theorem RoundTrip.linkTurnBoundary (die : Nat) (port : Nat) : RoundTrip.Statement (.linkTurnBoundary die port) := nofun

theorem RoundTrip.turnSilenceEnd (die : Nat) (port : Nat) : RoundTrip.Statement (.turnSilenceEnd die port) := nofun

theorem RoundTrip.flitArrival (die : Nat) (port : Nat) (cls : Nat) (bad : BitVec 8) : RoundTrip.Statement (.flitArrival die port cls bad) := nofun

theorem RoundTrip.flitReplay (die : Nat) (port : Nat) : RoundTrip.Statement (.flitReplay die port) := nofun

theorem RoundTrip.returnFlitSend (die : Nat) (port : Nat) : RoundTrip.Statement (.returnFlitSend die port) := nofun

theorem RoundTrip.returnFlitArrival (die : Nat) (port : Nat) (good : Bool) (ret : List (BitVec 16)) : RoundTrip.Statement (.returnFlitArrival die port good ret) := nofun

theorem RoundTrip.auditFlitSend (die : Nat) (port : Nat) : RoundTrip.Statement (.auditFlitSend die port) := nofun

theorem RoundTrip.auditFlitArrival (die : Nat) (port : Nat) (sent : List (BitVec 16)) : RoundTrip.Statement (.auditFlitArrival die port sent) := nofun

theorem RoundTrip.permitBlockRetire (die : Nat) (port : Nat) : RoundTrip.Statement (.permitBlockRetire die port) := nofun

theorem RoundTrip.partialArrival (p : Partial) : RoundTrip.Statement (.partialArrival p) := nofun

theorem RoundTrip.rootResultWrite (core : Nat) (ctx : Nat) (epoch : BitVec 16) (v : List (BitVec 64)) : RoundTrip.Statement (.rootResultWrite core ctx epoch v) := nofun

theorem RoundTrip.moduleFailure (m : Nat) : RoundTrip.Statement (.moduleFailure m) := nofun

theorem RoundTrip.clockSyncMessage (ppm : Int) : RoundTrip.Statement (.clockSyncMessage ppm) := nofun

theorem RoundTrip.checkerMismatch (key : Nat) : RoundTrip.Statement (.checkerMismatch key) := nofun

theorem RoundTrip.machineCheck (key : Nat) : RoundTrip.Statement (.machineCheck key) := nofun

theorem RoundTrip.quarantine (core : Nat) (cause : BitVec 3) : RoundTrip.Statement (.quarantine core cause) := nofun

theorem RoundTrip.quarantineMapShift (core : Nat) : RoundTrip.Statement (.quarantineMapShift core) := nofun

theorem RoundTrip.beatRetry (core : Nat) (lane : Nat) (off : BitVec 24) (givenUp : Bool) : RoundTrip.Statement (.beatRetry core lane off givenUp) := nofun

theorem RoundTrip.poolBlockRetire (core : Nat) (block : Nat) : RoundTrip.Statement (.poolBlockRetire core block) := nofun

theorem RoundTrip.powerOvercurrent : RoundTrip.Statement .powerOvercurrent := nofun

theorem RoundTrip.powerTrip : RoundTrip.Statement .powerTrip := nofun

theorem RoundTrip.powerOnReset : RoundTrip.Statement .powerOnReset := nofun

theorem RoundTrip.barnInterruptEntry (core : Nat) : RoundTrip.Statement (.barnInterruptEntry core) := nofun

theorem RoundTrip.functionLevelReset (vf : Nat) : RoundTrip.Statement (.functionLevelReset vf) := nofun

theorem RoundTrip.getVersion : RoundTrip.Statement .getVersion := nofun

theorem RoundTrip.getCapabilities : RoundTrip.Statement .getCapabilities := nofun

theorem RoundTrip.negotiateAlgorithms : RoundTrip.Statement .negotiateAlgorithms := nofun

theorem RoundTrip.getDigests : RoundTrip.Statement .getDigests := nofun

theorem RoundTrip.getCertificate : RoundTrip.Statement .getCertificate := nofun

theorem RoundTrip.challenge (nonce : BitVec 256) : RoundTrip.Statement (.challenge nonce) := nofun

theorem RoundTrip.getMeasurements : RoundTrip.Statement .getMeasurements := nofun

theorem RoundTrip.illegalInstruction (w : BitVec 32) : RoundTrip.Statement (.illegalInstruction w) := nofun

theorem RoundTrip.fetchFault (pc : BitVec 64) : RoundTrip.Statement (.fetchFault pc) := nofun

theorem RoundTrip.longLatencyResultArrival (key : Nat) (wid : Nat) : RoundTrip.Statement (.longLatencyResultArrival key wid) := nofun

theorem RoundTrip.levelledEntryArrival (core : Nat) (q : Nat) (src : Nat) (entry : List (BitVec 64)) : RoundTrip.Statement (.levelledEntryArrival core q src entry) := nofun

theorem RoundTrip.killThreadArrival (key : Nat) (d : BitVec 5) (asid : BitVec 16) (name : BitVec 22) : RoundTrip.Statement (.killThreadArrival key d asid name) := nofun

theorem RoundTrip.portTrainingChange (die : Nat) (port : Nat) (up : Bool) : RoundTrip.Statement (.portTrainingChange die port up) := nofun

end Sys2Proof.Laws
end

