-- ==== Sys2Proof/Tests/Slice0.lean ====
section
/-! SUPPORT. Tests of the model: words that the manual writes out, refused words, single steps whose results the manual
works out, and states that meet the hypotheses of the statements. -/

namespace Sys2Proof.Tests

open Sys2Proof Sys2Proof.Machine

-- The theorems below are checked one after another: each is small, and there are many.
set_option Elab.async false

/-! Words of the manual's listings and tables. -/

/-- 02 after R49; 05, worked encodings and the fragment of the lane mask. -/
theorem test_decode_scalar : ∀ x ∈ ([
    (0x02A52830#32, .or 10 10 10), (0x02110CC0#32, .sel 1 2 3), (0x04200430#32, .bext 2 0 1),
    (0x06108800#32, .padd 1 1 2), (0x06308810#32, .pidx 3 1 2), (0x04200020#32, .pop 2 0), (0x04400010#32, .ctz 4 0),
    (0x02520502#32, .mul 5 4 1 2), (0x10607FFF#32, .addi 6 0 0x7FFF), (0x02001820#32, .and 0 0 6),
    (0x18420004#32, .slli 4 4 4), (0x1A318030#32, .srli 3 3 48), (0x1E607FF8#32, .paddi 6 0 0x7FF8),
    (0x20100020#32, .lui 1 0x20), (0x12631FFF#32, .andi 6 6 0x1FFF)] : List (IWord × Instr)),
    decode x.1 = some x.2 := by decide

/-- 05: fma.d, fcmp.d.lt, fcvt.l.d.tz; branches, jal and ret; wait. -/
theorem test_decode_float_branch : ∀ x ∈ ([
    (0x46308801#32, .fmaD 3 1 2 0 1), (0x48B08A13#32, .fcmpD 11 1 2 1 3), (0x4A428290#32, .fcvtLD 4 5 1 0),
    (0x6CB18004#32, .bbs 11 3 4), (0x62057FFB#32, .bne 0 10 0x7FFB), (0x60A57FFF#32, .beq 10 10 0x7FFF),
    (0x70000400#32, .jal 0x400), (0x72A48000#32, .jalr 10 9 0), (0x74110005#32, .wait 1 2 5)] : List (IWord × Instr)),
    decode x.1 = some x.2 := by decide

/-- 06, worked encodings; 11 and 20, listings. -/
theorem test_decode_memory : ∀ x ∈ ([
    (0x84437FF2#32, .ldW 4 6 3 1 0xFF 2), (0x8643E020#32, .ldD 4 7 3 0 2 0), (0x96229010#32, .stD 2 5 0 1 1),
    (0x98208001#32, .ldAcq 2 1 0 0 1), (0x9A308010#32, .stRel 3 1 0 1), (0x9C000030#32, .fenceScope 3),
    (0x9C000080#32, .fenceLoop), (0xA0308A40#32, .amoCasD 3 1 2 4 0), (0xA8008830#32, .rupAdd 1 2 3),
    (0xA4408000#32, .lrw 4 1 0 0 0), (0xA6509000#32, .sc 5 1 4 0)] : List (IWord × Instr)),
    decode x.1 = some x.2 := by decide

/-- 16, 17 and 18: barriers, queues, the estate (Bequest). -/
theorem test_decode_shared : ∀ x ∈ ([
    (0xB0308830#32, .barinit 3 1 2 3), (0xB03088B0#32, .barjoin 3 1 2 3), (0xB0408D20#32, .barwait 4 1 3 2 0),
    (0xB060A9A0#32, .barbytes 6 1 10 2), (0xB2308800#32, .qput 3 1 2), (0xB4609400#32, .hold 6 1 5 0),
    (0xB4931C20#32, .heir 9 6 7 0), (0xB4628030#32, .promise 6 5 0), (0xB4531040#32, .fulfil 5 6 4),
    (0xB4730050#32, .await 7 6 0), (0xB4520860#32, .estq 5 4 2 0), (0xB4630010#32, .unhold 6 6 0)] : List (IWord × Instr)),
    decode x.1 = some x.2 := by decide

/-- 09 to 12 and 21: commands of the engines and the Meadow. -/
theorem test_decode_engines : ∀ x ∈ ([
    (0xC01001B0#32, .vsumsq 1 0), (0xC0000F00#32, .vfence), (0xC02000A0#32, .vsqrt 2 0), (0xC0300040#32, .vdiv 3 0),
    (0xC2621410#32, .vcmpm 6 4 5 0), (0xC2728000#32, .vbusy 7 5), (0xC0111010#32, .cpbox 1 2), (0xC0111020#32, .cpmc 1 2),
    (0xC0639100#32, .cpredAddF32 6 7), (0xC2308090#32, .cpwait 3 1 0), (0xC2408080#32, .cpstat 4 1),
    (0xC0112010#32, .mgath 1 2), (0xC0002020#32, .mgang), (0xC0102080#32, .mzero 1), (0xC0112090#32, .mdrain 1 2),
    (0xC01020A0#32, .mband 1), (0xC0532100#32, .mmaF4 5 6), (0xC0112130#32, .mmaI8 1 2), (0xC0113010#32, .acfg 1 2),
    (0xC0113020#32, .acoef 1 2), (0xC0A13030#32, .ascale 10 2), (0xC0103040#32, .arun 1), (0xC0103050#32, .ahold 1),
    (0xC0103060#32, .areset 1), (0xC2308180#32, .astat 3 1), (0xC2550990#32, .asettle 5 10 2 0),
    (0xC222A9A4#32, .asample 2 5 10 4), (0xC0114010#32, .lturn 1 2)] : List (IWord × Instr)),
    decode x.1 = some x.2 := by decide

/-- 08, 13 to 15, 19 and 20: system registers, handlers, contexts, kernels, groups, pages. -/
theorem test_decode_system : ∀ x ∈ ([
    (0xD0100010#32, .sysr 1 2), (0xD005027C#32, .sysw 10 0x4F), (0xD2200270#32, .tsr 2 0x4E), (0xD2300200#32, .tsr 3 0x40),
    (0xD400A004#32, .ewr 1 2 0), (0xD6000021#32, .trap 0x21), (0xD8000000#32, .eret), (0xD8000010#32, .uret),
    (0xDA308800#32, .ctxsave 3 1 2), (0xDA308810#32, .ctxload 3 1 2), (0xDA308820#32, .slotw 3 1 2),
    (0xDA308030#32, .yield 3 1), (0xDA308040#32, .migrate 3 1), (0xDA308050#32, .pin 3 1)] : List (IWord × Instr)),
    decode x.1 = some x.2 := by decide

theorem test_decode_groups : ∀ x ∈ ([
    (0xDC308800#32, .launch 3 1 2 0), (0xDC30A810#32, .tlaunch 3 1 10 0), (0xDC308020#32, .kwait 3 1 0),
    (0xDC308030#32, .kstat 3 1), (0xDC308880#32, .spawn 3 1 2 0), (0xDC000090#32, .exit), (0xDC53A8A0#32, .kill 5 7 10),
    (0xDC0088B0#32, .send 1 2), (0xDC3088C0#32, .recv 3 1 2 0), (0xDC4500D0#32, .gstat 4 10),
    (0xDE308800#32, .pfq 3 1 2 0), (0xDE839810#32, .presume 8 7 6), (0xDE629080#32, .pgive 6 5 4),
    (0xDE308090#32, .ptake 3 1 0)] : List (IWord × Instr)),
    decode x.1 = some x.2 := by decide

/-! Ill-formed terms, which WellFormed refuses, and words that are no instruction (R50). -/

/-- The register code 13 is reserved (R33); a mode of rounding, a condition and a scope that no rule assigns (R42, R43);
an empty mask of wait (R127); an engine register of an engine that has none (R195). -/
theorem test_ill_formed : ∀ i ∈ ([.sel 1 2 13, .faddS 1 2 3 7 0, .fcmpS 1 2 3 7 0, .fenceScope 6, .barjoin 1 2 3 0, .wait 1 2 0,
    .ewr 1 3 0] : List Instr), ¬ WellFormed i := by decide

theorem test_well_formed : ∀ i ∈ ([.sel 1 2 3, .faddS 1 2 3 4 0, .fcmpS 1 2 3 3 0, .fenceScope 5, .barjoin 1 2 3 5, .wait 1 2 1,
    .ewr 1 4 10] : List Instr), WellFormed i := by decide

/-- 02 after R50: fn 0x0D of major 1, the all-ones word, a shift amount of 64, add with a lookahead. -/
theorem test_no_instruction : decode 0x023088D0#32 = none ∧ decode 0xFFFFFFFF#32 = none ∧ decode 0x18100040#32 = none ∧
    decode 0x02308801#32 = none := by decide

/-! Small states. -/

/-- Slot 0 of core 0 runs a user thread of context 1 at 0x1000, with x, y, z in p1, p2, p3; zr and q are as given. -/
def box (x y z q : Word) : State :=
  { (State.reset.setThr 0 { Thread.empty with
      sstate := .run, asid := 1#16, pc := 0x1000#64, q := q, uie := 7#3
      p := #v[0#64, x, y, z, 0#64, 0#64, 0#64, 0#64, 0#64, 0#64] }).setCore 0
      { Core.reset with heldInReset := false, residence := .running, ctxAsid := 1#16 } with
    due := [], cur := 0 }

/-- Slot 7 of core 0 in the hypervisor view, with the same registers. -/
def boxPriv (x y z : Word) : State :=
  { (State.reset.setThr 7 { Thread.empty with
      sstate := .run, view := .hypervisor, pc := 0x1000#64, tvec := 0x9000#64
      p := #v[0#64, x, y, z, 0#64, 0#64, 0#64, 0#64, 0#64, 0#64] }).setCore 0 { Core.reset with heldInReset := false } with
    due := [], cur := 7 }

/-- System core 0 in the hypervisor view. -/
def barn (x y z : Word) : State :=
  { (State.reset.setThr 8192 { Thread.empty with
      sstate := .run, view := .hypervisor, xview := .hypervisor, pc := 0x1000#64
      p := #v[0#64, x, y, z, 0#64, 0#64, 0#64, 0#64, 0#64, 0#64] }).setCore 1024
      { Core.reset with heldInReset := false } with
    due := [], cur := 8192 }

/-- A window of thread 0 for d with count n and result r. -/
def win (id : Nat) (d : Reg) (n : Nat) (r : Arrival) : Window :=
  ⟨id, d, n, false, false, 0#32, 0#64, 0#64, 0#64, false, false, r⟩

def withWindows (s : State) (ws : List Window) : State := s.setThr s.cur { s.thr s.cur with windows := ws }

/-- A register of the running thread after a step. -/
def reads (o : Out) (d : Reg) : Option Word :=
  match o with
  | .next t => some (readReg t t.cur d)
  | _ => none

def pcAfter (o : Out) : Option Word :=
  match o with
  | .next t => some (t.thr t.cur).pc
  | _ => none

/-- What the youngest window of the running thread will write. -/
def coming (o : Out) : Option Arrival :=
  match o with
  | .next t => (t.thr t.cur).windows.getLast?.map Window.arrival
  | _ => none

/-- CAUSE and TVAL of a user slot's trap. -/
def trapOf (o : Out) : Option (SlotState × Word × Word × Word) :=
  match o with
  | .next t => some ((t.thr t.cur).sstate, (t.thr t.cur).epc, (t.thr t.cur).cause, (t.thr t.cur).tval)
  | _ => none

/-- The ADDRESS trap of DETAIL 0 at 0x1000. -/
def addressAt (tval : Word) : Option (SlotState × Word × Word × Word) := some (.trapped, 0x1000#64, 0x200#64, tval)

/-! The step (02, 08): its hypotheses on the machine that withFetchWord makes. -/

theorem witness_StepRunsDecoded :
    let s := State.reset.withFetchWord 32 0x02A52830
    let s' := settleHold s.tick s.cur
    s.due = [] ∧ choiceOf s = 0 ∧ s.cur < noThread ∧ turnOf s' s.cur = .issue ∧ (s'.thr s.cur).spent = false ∧ fetchAt s' s.cur = .word 0x02A52830#32 ∧
    decode 0x02A52830#32 = some (.or 10 10 10) := by decide +kernel

theorem witness_StepMeetsIllegal :
    let s := State.reset.withFetchWord 32 0xFFFFFFFF
    let s' := settleHold s.tick s.cur
    s.due = [] ∧ choiceOf s = 0 ∧ s.cur < noThread ∧ turnOf s' s.cur = .issue ∧ (s'.thr s.cur).spent = false ∧ fetchAt s' s.cur = .word 0xFFFFFFFF#32 ∧
    decode 0xFFFFFFFF#32 = none := by decide +kernel

theorem test_table_word : decodeTableWord 32 0x02A52830 = some (.or 10 10 10) := by decide

/-! Scalar instructions (05). -/

theorem witness_IntegerResults : ∀ r ∈ integerRows 3#5 1#5 2#5, ready r.1 (box 1#64 2#64 3#64 4#64) = true := by decide
theorem witness_MultiplyResults : ∀ r ∈ multiplyRows 3#5 1#5 2#5 15#4, ready r.1 (box 1#64 2#64 3#64 4#64) = true := by
  decide
theorem witness_DivideResults : ∀ r ∈ divideRows 3#5 1#5 2#5 0#4, ready r.1 (box 1#64 0#64 3#64 4#64) = true := by decide
theorem witness_BitResults : ∀ i ∈ ([.clz 3 1, .ctz 3 1, .pop 3 1, .bext 3 1 2, .bdep 3 1 2] : List Instr),
    ready i (box 0#64 0#64 0#64 0#64) = true := by decide
theorem witness_ImmediateResults : ∀ i ∈ ([.addi 3 1 0x4000, .andi 3 1 0x7FFF, .ori 3 1 0, .xori 3 1 1, .paddi 3 1 0x7FFF,
    .slli 3 1 63, .srli 3 1 0, .srai 3 1 63, .lui 3 0xFFFFF] : List Instr),
    ready i (box 0#64 0#64 0#64 0#64) = true := by decide
theorem witness_PointerResults : ∀ i ∈ ([.padd 3 1 2, .pidx 3 1 2, .ptag 3 1, .ptagset 3 1 2] : List Instr),
    ready i (box 0#64 0#64 0#64 0#64) = true := by decide
theorem witness_ControlFlow : (∀ r ∈ branchRows 1#5 2#5 5#15, ready r.1 (box 1#64 1#64 0#64 0#64) = true) ∧
    ready (.jal 2) (box 0#64 0#64 0#64 0#64) = true ∧ ready (.jalr 3 1 0) (box 0#64 0#64 0#64 0#64) = true := by decide
/-- A shift amount of 64 in an immediate (R112). -/
theorem witness_ShiftAmount : opOf 0x18100040#32 ∈ [0x0C#7, 0x0D#7, 0x0E#7] ∧ 64 ≤ (immOf 0x18100040#32).toNat := by decide

/-- R106: 2^64 - 1 + 2 wraps; the amount is b[5:0]. -/
theorem test_add_wraps : reads (exec (.add 3 1 2) (box 0xFFFFFFFFFFFFFFFF#64 2#64 0#64 0#64)) 3 = some 1#64 := by decide
theorem test_sra_sign : reads (exec (.sra 3 1 2) (box 0x8000000000000000#64 0x7F#64 0#64 0#64)) 3 =
    some 0xFFFFFFFFFFFFFFFF#64 := by decide
theorem test_sel_mask : reads (exec (.sel 3 1 2) (box 0xAAAA#64 0x5555#64 0#64 0xFF#64)) 3 = some 0x55AA#64 := by decide
theorem test_minu_unsigned : reads (exec (.minu 3 1 2) (box 0xFFFFFFFFFFFFFFFF#64 2#64 0#64 0#64)) 3 = some 2#64 := by decide
/-- R107: (-1) × (-1) = 1 has the upper half 0. -/
theorem test_mulh_signed : coming (exec (.mulh 3 1 2 0) (box 0xFFFFFFFFFFFFFFFF#64 0xFFFFFFFFFFFFFFFF#64 0#64 0#64)) =
    some (.later (.one 0#64)) := by decide
/-- R108: -7 / 2 = -3, and the remainder has the sign of a. -/
theorem test_div_truncates : coming (exec (.div 3 1 2 0) (box 0xFFFFFFFFFFFFFFF9#64 2#64 0#64 0#64)) =
    some (.later (.one 0xFFFFFFFFFFFFFFFD#64)) := by decide
theorem test_rem_sign : coming (exec (.rem 3 1 2 0) (box 0xFFFFFFFFFFFFFFF9#64 2#64 0#64 0#64)) =
    some (.later (.one 0xFFFFFFFFFFFFFFFF#64)) := by decide
theorem test_div_overflow : coming (exec (.div 3 1 2 0) (box 0x8000000000000000#64 0xFFFFFFFFFFFFFFFF#64 0#64 0#64)) =
    some (.later (.one 0x8000000000000000#64)) := by decide
/-- R110, worked. -/
theorem test_bext : reads (exec (.bext 3 1 2) (box 0xF0F0#64 0xFF00#64 0#64 0#64)) 3 = some 0xF0#64 := by decide
theorem test_bdep : reads (exec (.bdep 3 1 2) (box 0xF0#64 0xFF00#64 0#64 0#64)) 3 = some 0xF000#64 := by decide
theorem test_clz_zero : reads (exec (.clz 3 1) (box 0#64 0#64 0#64 0#64)) 3 = some 64#64 := by decide
/-- R113 to R115, worked values. -/
theorem test_pidx_fp4 : reads (exec (.pidx 3 1 2) (box 0x0580000010000000#64 128#64 0#64 0#64)) 3 =
    some 0x0580000010000060#64 := by decide
theorem test_pidx_rule : trapOf (exec (.pidx 3 1 2) (box 0x0580000010000000#64 100#64 0#64 0#64)) =
    addressAt 0x0580000010000000#64 := by decide
theorem test_padd_carry : trapOf (exec (.padd 3 1 2) (box 0x140FFFFFFFFFFFF8#64 16#64 0#64 0#64)) =
    addressAt 0x140FFFFFFFFFFFF8#64 := by decide
theorem test_ptag : reads (exec (.ptag 3 1) (box 0x0580000010000060#64 0#64 0#64 0#64)) 3 = some 0x58#64 := by decide
theorem test_ptagset : reads (exec (.ptagset 3 1 2) (box 0x0000000010000060#64 0x140#64 0#64 0#64)) 3 =
    some 0x1400000010000060#64 := by decide
theorem test_ptagset_code : trapOf (exec (.ptagset 3 1 2) (box 0#64 0x041#64 0#64 0#64)) = addressAt 0x041#64 := by decide
/-- R53: lui 0x20 and addi 0x200 give 0x0010_0200. -/
theorem test_lui : reads (exec (.lui 1 0x20) (box 0#64 0#64 0#64 0#64)) 1 = some 0x100000#64 := by decide
/-- Bequest: paddi p6, p0, -8 from 0x0200_006C. -/
theorem test_paddi : reads (exec (.paddi 6 1 0x7FF8) (box 0x0200006C#64 0#64 0#64 0#64)) 6 = some 0x02000064#64 := by decide
/-- 05, the fragment: disp15 = -5 from 0x320 leads to 0x30C (here 0x14 below 0x1000). -/
theorem test_branch_back : pcAfter (exec (.bne 1 10 0x7FFB) (box 1#64 0#64 0#64 0#64)) = some 0xFEC#64 := by decide
theorem test_branch_on : pcAfter (exec (.blt 1 2 5) (box 1#64 0xFFFFFFFFFFFFFFFF#64 0#64 0#64)) = some 0x1004#64 := by decide
theorem test_branch_out : trapOf (exec (.beq 10 10 0x4000) (box 0#64 0#64 0#64 0#64)) = addressAt 0xFFFFFFFFFFFF1000#64 := by
  decide
theorem test_jal_links : reads (exec (.jal 0x400) (box 0#64 0#64 0#64 0#64)) 9 = some 0x1004#64 ∧
    pcAfter (exec (.jal 0x400) (box 0#64 0#64 0#64 0#64)) = some 0x2000#64 := by decide
theorem test_jalr_aligned : trapOf (exec (.jalr 3 1 2) (box 0x2000#64 0#64 0#64 0#64)) = addressAt 0x2002#64 := by decide

/-! Numbers and floating point (04, 05). -/

/-- Infinity in FP32, and the largest FP4 code, are codes that are no NaN. -/
theorem witness_RepresentableRounds : (0x7F800000 < 2 ^ (Fmt.fp32.signBit + 1) ∧ Fmt.fp32.value 0x7F800000 ≠ .nan) ∧
    (0xF < 2 ^ (Fmt.fp4.signBit + 1) ∧ Fmt.fp4.value 0xF ≠ .nan) := by decide
theorem witness_DirectedIntegers : ∀ m ∈ [1#3, 3#3], 1 ≤ m.toNat ∧ m.toNat ≤ 3 ∧ (0 : Int) ≤ 0 ∧ (0 : Nat) < 3 := by decide
theorem witness_DrawLoop : 0xFFFFFFFF < 2 ^ 32 := by decide
theorem witness_FloatSingle : ∀ i ∈ ([.faddS 3 1 2 4 0, .fsubS 3 1 2 0 15, .fmulS 3 1 2 1 0, .fdivS 3 1 2 2 0, .fsqrtS 3 1 3 0,
    .fmaS 3 1 2 0 0, .fmsS 3 1 2 0 0, .fnmaS 3 1 2 0 0, .fnmsS 3 1 2 4 0, .fminS 3 1 2 0, .fmaxS 3 1 2 0] : List Instr),
    ready i (box 0#64 0#64 0#64 0#64) = true := by decide
theorem witness_FloatDouble : ∀ i ∈ ([.faddD 3 1 2 4 0, .fsubD 3 1 2 0 15, .fmulD 3 1 2 1 0, .fdivD 3 1 2 2 0, .fsqrtD 3 1 3 0,
    .fmaD 3 1 2 0 0, .fmsD 3 1 2 0 0, .fnmaD 3 1 2 0 0, .fnmsD 3 1 2 4 0, .fminD 3 1 2 0, .fmaxD 3 1 2 0] : List Instr),
    ready i (box 0#64 0#64 0#64 0#64) = true := by decide
/-- Both sides of a condition: 1 < 2 holds, 2 < 1 does not. -/
theorem witness_FloatCompareConvert : (∀ i ∈ ([.fcmpS 3 1 2 1 0, .fcmpD 3 1 2 3 0, .fcvtSD 3 1 4 0, .fcvtDS 3 1 0 0, .fcvtSL 3 1 0 0,
    .fcvtDL 3 1 0 0, .fcvtLS 3 1 0 0, .fcvtLD 3 1 1 0, .fcvtDLu 3 1 0 0, .fcvtLuD 3 1 0 15] : List Instr),
    ready i (box 0#64 0#64 0#64 0#64) = true) ∧
    condHolds 1#3 (Fmt.fp32.value 0x3F800000) (Fmt.fp32.value 0x40000000) ∧
    ¬ condHolds 1#3 (Fmt.fp32.value 0x40000000) (Fmt.fp32.value 0x3F800000) := by
  refine ⟨by decide, ?_, ?_⟩
  · show Fmt.fp32.value 0x3F800000 ≠ .nan ∧ Fmt.fp32.value 0x40000000 ≠ .nan ∧
      ltVal (Fmt.fp32.value 0x3F800000) (Fmt.fp32.value 0x40000000) = true
    decide
  · show ¬ (Fmt.fp32.value 0x40000000 ≠ .nan ∧ Fmt.fp32.value 0x3F800000 ≠ .nan ∧
      ltVal (Fmt.fp32.value 0x40000000) (Fmt.fp32.value 0x3F800000) = true)
    decide

/-- 1.5 + 2.25 = 3.75 in FP32; the same product and quotient by hand. -/
theorem test_fadd : coming (exec (.faddS 3 1 2 0 0) (box 0x3FC00000#64 0x40100000#64 0#64 0#64)) =
    some (.later (.one 0x40700000#64)) := by decide +kernel
theorem test_fma : coming (exec (.fmaS 3 1 2 0 0) (box 0x3FC00000#64 0x40000000#64 0x3F800000#64 0#64)) =
    some (.later (.one 0x40800000#64)) := by decide +kernel
/-- 9 has the root 3. -/
theorem test_fsqrt : coming (exec (.fsqrtD 3 1 0 0) (box 0x4022000000000000#64 0#64 0#64 0#64)) =
    some (.later (.one 0x4008000000000000#64)) := by decide +kernel
/-- -2.5 towards zero is -2, and a NaN gives 0 (R119). -/
theorem test_fcvt_tz : coming (exec (.fcvtLD 3 1 1 0) (box 0xC004000000000000#64 0#64 0#64 0#64)) =
    some (.later (.one 0xFFFFFFFFFFFFFFFE#64)) := by decide +kernel
theorem test_fcvt_nan : coming (exec (.fcvtLD 3 1 1 0) (box 0x7FF8000000000000#64 0#64 0#64 0#64)) =
    some (.later (.one 0#64)) := by decide +kernel
theorem test_fcmp : coming (exec (.fcmpD 3 1 2 1 0) (box 0x3FF0000000000000#64 0x4000000000000000#64 0#64 0#64)) =
    some (.later (.one 0xFFFFFFFFFFFFFFFF#64)) := by decide +kernel

/-! Registers, windows, waiting (02, 05). -/

/-- A code of each kind: zr, a thread register, q, a shared register. -/
theorem witness_RegisterCodes : regOk 10#5 = true ∧ regOk 9#5 = true ∧ regOk 11#5 = true ∧ regOk 16#5 = true ∧
    regOk 31#5 = true ∧ regOk 12#5 = false ∧ regOk 15#5 = false := by decide
/-- A write of slot 5 to s0 has landed in this ck: slot 0's result and close do not remain, slot 6's do; in the next ck every
write does. -/
theorem witness_SharedWrites :
    let b := box 0#64 0#64 0#64 0#64
    let s := b.setCore 0 { b.core 0 with slast := (b.core 0).slast.setIfInBounds 0 (b.ck, 10) }
    (∀ c ∈ [true, false], remains c s 0 16#5 = false ∧ remains c s 6 16#5 = true ∧
      remains c { s with ck := s.ck + 1 } 0 16#5 = true) ∧ ∀ j : Fin 16, (s.core 0).slast[j].1 ≤ s.ck := by decide
theorem witness_OperandTrap :
    isWord (.sel 1 2 13) = true ∧ fieldsOk (.sel 1 2 13) = true ∧ operandsOk (.sel 1 2 13) = false ∧
    isSystem (coreOf (box 0#64 0#64 0#64 0#64).cur) = false ∧ privilegedInstr (.sel 1 2 13) = false := by decide
theorem witness_WindowsCount : (∀ w ∈ [win 0 3#5 2 .pending], 2 ≤ w.count) ∧ ∀ w ∈ [win 1 4#5 1 .pending], 1 ≤ w.count := by
  decide
/-- The oldest window closes with its result, or waits for it. -/
theorem witness_WindowCloses :
    let ws := [win 1 4#5 2 .pending]
    (∀ a ∈ [Arrival.ready (.one 5#64), .pending], ((withWindows (box 0#64 0#64 0#64 0#64) (win 0 3#5 1 a :: ws)).thr 0).windows =
      win 0 3#5 1 a :: ws) ∧ (∀ x ∈ ws, 2 ≤ x.count) ∧ regOk 3#5 = true ∧ (win 0 3#5 1 .pending).waits = true := by decide
theorem witness_ResultArrives : ∀ n ∈ [0, 1],
    let ws := [win 1 4#5 1 .pending]
    let s := withWindows (box 0#64 0#64 0#64 0#64) (win 0 3#5 n (.later (.one 5#64)) :: ws)
    (s.thr 0).windows = win 0 3#5 n (.later (.one 5#64)) :: ws ∧ (s.thr 0).held = [] ∧ (s.thr 0).frozen = [] ∧
    (∀ x ∈ ws, x.id ≠ 0 ∧ 1 ≤ x.count) ∧ regOk 3#5 = true := by decide
theorem witness_HeldResultArrives :
    let w := win 0 3#5 0 (.later (.one 5#64))
    let s := (box 0#64 0#64 0#64 0#64).setThr 0 { Thread.empty with held := [w, win 1 4#5 1 .pending] }
    (s.thr 0).windows = [] ∧ (s.thr 0).held = [w, win 1 4#5 1 .pending] ∧ (s.thr 0).frozen = [] ∧
    ∀ x ∈ [win 1 4#5 1 .pending], x.id ≠ w.id := by decide
/-- Eight windows, the oldest of them frozen: it waits, or its result is there. -/
theorem witness_OldestCloses : ∀ a ∈ [Arrival.pending, .ready (.one 5#64)],
    let w := win 0 3#5 3 a
    let s := (withWindows (box 0#64 0#64 0#64 0#64) ((List.range 7).map fun j => win (j + 1) 4#5 3 .pending)).setThr 0
      { (withWindows (box 0#64 0#64 0#64 0#64) ((List.range 7).map fun j => win (j + 1) 4#5 3 .pending)).thr 0 with frozen := [w] }
    isWord (.mul 1 2 3 0) = true ∧ isLong (.mul 1 2 3 0) = true ∧ issueCause (.mul 1 2 3 0) s s.cur = none ∧
    memoryInstr (.mul 1 2 3 0) = false ∧ (s.thr s.cur).posted = [] ∧ (s.thr s.cur).allWindows.length = 8 ∧
    oldestWindow (s.thr s.cur) = some w := by decide
/-- R38: a load whose address traps does not issue: the oldest window, whose result is there, stays open. -/
theorem test_trap_keeps_windows :
    let ws := win 0 3#5 3 (.ready (.one 5#64)) :: (List.range 7).map fun j => win (j + 1) 4#5 3 .pending
    (match exec (.ldD 1 2 3 0 0 0) (withWindows (box 0#64 0xFFFFFFFFFFFFFFFF#64 0#64 0#64) ws) with
      | .next t => some ((t.thr 0).sstate, (t.thr 0).windows.length, readReg t 0 3#5)
      | _ => none) = some (.trapped, 8, 0#64) := by decide
theorem witness_WaitYield : ready (.wait 3 1 1) (box 0#64 0#64 0#64 0#64) = true ∧
    ready (.yield 3 1) (box 0#64 0#64 0#64 0#64) = true := by decide
/-- A thread asleep by the time in p1, which has come, and has not. -/
def sleeping (v : Word) : State := (box v 0#64 0#64 0#64).setThr 0
  { (box v 0#64 0#64 0#64).thr 0 with sleep := some ⟨false, 1#5, 1#5⟩ }
theorem witness_WaitSleeps (v : Word) : ((sleeping v).thr 0).sleep = some ⟨false, 1#5, 1#5⟩ ∧
    ((sleeping v).thr 0).hold = .none ∧ windowBlocked ((sleeping v).thr 0) = false := ⟨rfl, rfl, rfl⟩
theorem test_sleep_ends : asleep (sleeping 0#64) 0 = false ∧ asleep (sleeping 1#64) 0 = true := by decide
theorem witness_PinMark : ready (.pin 3 1) (box 1#64 0#64 0#64 0#64) = true ∧ ready (.pin 3 1) (barn 1#64 0#64 0#64) = true := by
  decide

/-- R37, R38: a window of count 2 closes behind the second instruction (the fragment of 05). -/
theorem test_window_closes : reads (exec (.or 10 10 10)
    (withWindows (box 0#64 0#64 0#64 0#64) [win 0 5#5 1 (.ready (.one 7#64))])) 5 = some 7#64 := by decide
/-- R127: the time 0 has come, so that mask 1 hits at once. -/
theorem test_wait_time : reads (exec (.wait 3 1 1) (box 0#64 0#64 0#64 0#64)) 3 = some 1#64 := by decide
theorem test_pin_old : reads (exec (.pin 3 1) (box 1#64 0#64 7#64 0#64)) 3 = some 0#64 := by decide
theorem test_yield_nothing : reads (exec (.yield 3 1) (box 1#64 0#64 7#64 0#64)) 3 = some 0#64 := by decide

/-! Traps, handlers, interrupts (08). -/

def withThread (s : State) (f : Thread → Thread) : State := s.setThr s.cur (f (s.thr s.cur))
def withCore (s : State) (f : Core → Core) : State := s.setCore (coreOf s.cur) (f (s.core (coreOf s.cur)))

/-- The states with zeros in p1 to p3. -/
def idle : State := box 0#64 0#64 0#64 0#64
def idlePriv : State := boxPriv 0#64 0#64 0#64
def idleBarn : State := barn 0#64 0#64 0#64

theorem witness_CauseTraps : isWord (.sel 1 2 13) = true ∧ issueCause (.sel 1 2 13) idle idle.cur = some 3 ∧
    coreOf idle.cur < 1024 ∧ issueCause .eret idle idle.cur = some 5 ∧ issueCause .mgang idleBarn idleBarn.cur = some 6 := by
  decide
theorem witness_RegisterCauses : (idle.thr idle.cur).view = .user ∧ 1024 ≤ coreOf idleBarn.cur ∧
    coreOf idlePriv.cur < 1024 ∧ (0x040#12).toNat = 0x040 ∧ (0x04F#12).toNat = 0x04F ∧ (0xFFF#12).toNat = 0xFFF := by decide
theorem witness_CauseOrder : (opOf 0xFFFFFFFF#32 ∈ [0x00#7, 0x7F#7, 0x04#7, 0x3B#7, 0x62#7, 0x70#7]) ∧
    (opOf (encode .mgang) = 0x60#7 ∧ 1024 ≤ coreOf idleBarn.cur) ∧ (1#4 ≠ 0#4 ∧ regOk 31#5 = true) ∧
    (privilegedInstr .eret = true ∧ fieldsOk .eret = true ∧ (idle.thr 0).view = .user) ∧
    ((withThread idle fun t => { t with uin := true }).thr 0).uin = true := by decide
/-- A slot with room in the fault queue, and an EMPTY one. -/
theorem witness_SlotTrap : coreOf 6 < 1024 ∧ slotOf 6 < 7 ∧ (idle.die 0).faults.length < 256 ∧ (idle.thr 6).sstate ≠ .run := by
  decide
theorem witness_HandlerTrap : slotOf 7 = 7 ∧ coreOf 7 < 1024 ∧ 1024 ≤ coreOf 8192 ∧ (idlePriv.thr 7).xin = false ∧
    ((withThread idlePriv fun t => { t with xin := true }).thr 7).xin = true ∧
    ((withThread idleBarn fun t => { t with xin := true }).thr 8192).xin = true := by decide
theorem witness_NotifyEntry : ∀ s ∈ [withCore idlePriv fun c => { c with tpend := 0x40#7 },
    withCore idlePriv fun c => { c with hevq := [1#64] }],
    (s.thr 7).xin = false ∧ ((s.core 0).tpend ≠ 0#7 ∨ (s.core 0).hevq ≠ []) ∧ (s.core 0).server = [] ∧ mayIssue s 7 = true ∧ (s.thr 7).killed = false ∧ (s.thr 7).toRetry = none ∧
    (s.thr 7).hold = .none ∧ (s.thr 7).posted = [] := by decide
/-- A save of the core that is asked for, and one that is under way. -/
theorem witness_NotifyPreemption : ∀ e ∈ [Event.ctxsaveRequest ⟨15, 3#5, 0, 0#64, 0#2⟩, .saveImageWrite ⟨15, 3#5, 0, 0#64, 1#2⟩],
    preemptionAsked { idlePriv with work := [e] } 0 = true ∧ (idlePriv.thr 7).xin = false := by decide
theorem witness_PostedTrap : ∀ s ∈ [idle, idlePriv, idleBarn, withThread idlePriv fun t => { t with xin := true }],
    let s := withThread s fun t => { t with posted := [(63, 0#64)] }
    (s.thr s.cur).posted = [(63, 0#64)] ∧ 63 < 64 ∧
    ((coreOf s.cur < 1024 ∧ slotOf s.cur < 7) ∨ 1024 ≤ coreOf s.cur ∨ slotOf s.cur = 7) := by decide
/-- One state for each thing a slot acts on: a kill, a POSTED trap, an interrupt, the issue. -/
theorem witness_OpportunityOrder : ∀ f ∈ [fun t : Thread => { t with killed := true }, fun t => { t with posted := [(0, 0#64)] },
    fun t => { t with uip := 4#3 }, fun t => t, fun t => { t with uin := true }],
    let s := withThread idle f
    coreOf 0 < 1024 ∧ slotOf 0 < 7 ∧ mayIssue s 0 = true ∧ (s.thr 0).hold = .none ∧ (s.thr 0).toRetry = none ∧ (s.thr 0).xin = false ∧
    asleep s 0 = false ∧ (s.core 0).exhausted.getLsbD 0 = false := by decide
theorem witness_InterruptDelivery : ∀ p ∈ [1#3, 2#3, 4#3],
    let t := (withThread idle fun t => { t with uip := p }).thr 0
    t.uin = false ∧ t.sstate = .run ∧ t.hold = .none ∧ t.uip &&& t.uie = p := by decide
theorem witness_SystemCall : ready (.trap 0x21) idle = true := by decide
theorem witness_HandlerReturns :
    (ready .eret idlePriv = true ∧ (idlePriv.thr 7).xin = false) ∧ (ready .uret idle = true ∧ (idle.thr 0).uin = false) ∧
    (let s := withThread idlePriv fun t => { t with xin := true, held := [win 0 3#5 2 .pending] }
     ready .eret s = true ∧ (s.thr 7).xin = true ∧ ∀ w ∈ (s.thr 7).held ++ (s.thr 7).windows, 2 ≤ w.count) ∧
    (let s := withThread idle fun t => { t with uin := true, frozen := [win 0 3#5 2 .pending] }
     ready .uret s = true ∧ (s.thr 0).uin = true ∧ ∀ w ∈ (s.thr 0).frozen ++ (s.thr 0).windows, 2 ≤ w.count) := by decide
theorem witness_FetchFault : 2 ^ 52 ≤ ((withThread idle fun t => { t with pc := 0x10000000000000#64 }).thr 0).pc.toNat := by
  decide

/-- 08, the example of a system call: trap 0x21 in a user slot is KIND 7 with TVAL 0x21, and EPC is behind it. -/
theorem test_trap : trapOf (exec (.trap 0x21) idle) = some (.trapped, 0x1004#64, 0x700#64, 0x21#64) := by decide
/-- The same example: sysw SSTATE, zr resumes slot 2, which TSEL selects, at its EPC. -/
theorem test_sysw_sstate :
    let s := (withThread idlePriv fun t => { t with tsel := 2#3 }).setThr 2
      { Thread.empty with sstate := .trapped, epc := 0x504#64, cause := 0x700#64, tval := 0x21#64 }
    (match exec (.sysw 10 0x4F) s with
      | .next t => some ((t.thr 2).sstate, (t.thr 2).pc)
      | _ => none) = some (.run, 0x504#64) ∧ reads (exec (.tsr 2 0x4E) s) 2 = some 0x21#64 := by decide
theorem test_eret_outside : (match exec .eret idlePriv with
    | .next t => some ((t.thr 7).xin, (t.thr 7).xcause, (t.thr 7).pc)
    | _ => none) = some (true, 0x801#64, 0x9000#64) := by decide
/-- 18, Bequest: USTAT := 2 enables ESTATE alone. -/
theorem test_ustat : (match exec (.sysw 1 0x31) (box 2#64 0#64 0#64 0#64) with
    | .next t => some (t.thr 0).uie
    | _ => none) = some 2#3 := by decide

/-! Special registers. -/

theorem witness_RegisterAccess : coreOf idlePriv.cur < 1024 ∧ slotOf idlePriv.cur = 7 ∧
    (idlePriv.thr idlePriv.cur).view = .hypervisor ∧ ready (.sysr 3 0x1FF) idlePriv = true ∧
    ready (.sysw 3 0x0EC) idlePriv = true ∧
    (∀ e ∈ [0, 63], ∀ j ∈ [0, 3], e < 64 ∧ j < 4 ∧ (BitVec.ofNat 12 (0x100 + 4 * e + j)).toNat = 0x100 + 4 * e + j) ∧
    (journalAt (idlePriv.core 0) 63).kind < 8 ∧ (journalAt (idlePriv.core 0) 63).ea.toNat < 2 ^ 52 := by decide
/-- A slot of each state that R188 tells apart, each value of a write to SSTATE, the own slot, and a system core. -/
theorem witness_SlotState :
    (ready (.tsr 3 0x40) idlePriv = true ∧ ready (.sysw 1 0x4F) idlePriv = true ∧ coreOf 7 < 1024 ∧ slotOf 7 = 7 ∧
      (idlePriv.thr 0).sstate = .empty) ∧
    (ready (.tsr 3 0x4F) idleBarn = true ∧ ready (.sysw 1 0x40) idleBarn = true ∧ 1024 ≤ coreOf 8192) ∧
    (∀ st ∈ [SlotState.run, .trapped, .ended, .empty, .pagewait],
      ((idlePriv.setThr 0 { Thread.empty with sstate := st }).thr 0).sstate = st) ∧
    ((withThread idlePriv fun t => { t with tsel := 7#3 }).thr 7).tsel.toNat = 7 := by decide
theorem witness_RegisterSteps :
    ((idle.setThr 2 { Thread.empty with sstate := .trapped }).thr 2).sstate = .trapped ∧ (0#64).toNat % 8 = 0 := by decide
/-- A value that clears a bit, that sets all, that retires a die in use, and one that retires die 3. -/
theorem witness_DieRetirement :
    (let s := { idle with dieret := 1#4 }
     s.dieret &&& ~~~(0#4) ≠ 0#4 ∧ s.dieret &&& ~~~(9#4) = 0#4 ∧ 9#4 ≠ 15#4 ∧
     ∀ d < 4, (9#4).getLsbD d = true → s.dieret.getLsbD d = false → dieBusy s d = false) ∧
    (let s := idle.setDie 3 { Die.reset with nodes := [⟨0, 0, 0, 1⟩] }
     ∃ d < 4, (8#4).getLsbD d = true ∧ s.dieret.getLsbD d = false ∧ (s.die d).nodes ≠ []) := by
  constructor
  · decide
  · exact ⟨3, by and_intros <;> decide⟩

/-- R282: SLOTTAB at reset; R436: LPMIN of port 0; R20: ORIENT of die 0. -/
theorem test_sysr_reset : reads (exec (.sysr 3 0x050) idlePriv) 3 = some 0x7888888888888888#64 ∧
    reads (exec (.sysr 3 0x055) idlePriv) 3 = some 3#64 ∧ reads (exec (.sysr 3 0x060) idlePriv) 3 = some 0x1FFF1FFF1FFF1FFF#64 := by
  decide
/-- R189: an empty queue reads 0. -/
theorem test_hevq_empty : reads (exec (.sysr 3 0x026) idlePriv) 3 = some 0#64 := by decide
theorem test_user_privilege : trapOf (exec (.sysr 3 0x020) idle) = some (.trapped, 0x1000#64, 0x105#64, 0xD0300100#64) := by decide

/-! Partitions, virtual functions, boot and host (23, 24). -/

def withVf (s : State) (v : Nat) (x : Vf) : State := s.setVf v x
def vfOn : Vf := { Vf.reset with valid := true, acnt := 4#16, abase := 0x100#16 }

theorem witness_TimeRegisters : ((vfAt idle 0).paused = false ∧ (vfAt (withVf idle 31 { vfOn with paused := true }) 31).paused = true) ∧
    (ready (.sysr 3 0x003) idle = true ∧ ready (.sysr 3 0x004) idle = true) ∧
    ({ Thread.empty with view := .guest 31 } : Thread).view = .guest 31 := by decide
/-- The node of the prompt tree with quad 0, in each of its states: FREE, ASSIGNED, COVERED, SPLIT. -/
theorem witness_NodeWrites :
    let at_ := fun (l : List Node) (w : Word) => { withVf (idle.setDie 0 { Die.reset with nodes := l }) 0 vfOn with pnsel := w }
    (vfAt idle 0).valid = false ∧ (vfAt (at_ [] 0#64) 0).valid = true ∧
    nodeState (selectedNodes (at_ [] 0#64)) (selected (at_ [] 0#64) 0) = 0 ∧
    nodeState (selectedNodes (at_ [⟨0, 0, 0, 0⟩] 0#64)) (selected (at_ [] 0#64) 0) = 1 ∧
    nodeState (selectedNodes (at_ [⟨0, 1, 0, 0⟩] 0#64)) (selected (at_ [] 0#64) 0) = 3 ∧
    nodeOwner [⟨0, 1, 0, 0⟩] (parentOf (selected (at_ [] 0#64) 0)) = some 0 ∧
    (selected (at_ [] 0#64) 0).level < treeLevels (selected (at_ [] 0#64) 0).tree ∧
    nodeState (selectedNodes (at_ [⟨0, 0, 0, 0⟩, ⟨0, 0, 1, 0⟩] 0x80#64)) (selected (at_ [] 0x80#64) 0) = 2 := by decide
theorem witness_Doorbells : ready (.sysr 3 0x320) idleBarn = true ∧ (idleBarn.thr idleBarn.cur).view = .hypervisor ∧
    (let s := withThread idleBarn fun t => { t with view := .guest 0 }
     ready (.sysr 3 0x320) s = true ∧ (s.thr s.cur).view = .guest 0) ∧
    (∀ n ∈ [0x321, 0x340], (BitVec.ofNat 12 n).toNat = n) ∧ { idle with bootstat := 0x311#64 }.bootstat.toNat / 2 ^ 8 % 4 = 3 ∧
    { idle with bootstat := 0x411#64 }.bootstat.toNat / 2 ^ 8 % 4 ≠ 3 := by decide
/-- Source 8 is pending and routed to system core 0, in its handler and not. -/
theorem witness_BarnInterrupts :
    let s := { idleBarn with power := true }
    1024 ≤ coreOf 8192 ∧ sourcePending s 8 = true ∧ 1024 + (s.route 8).toNat % 16 = 1024 ∧ (s.route 8).toNat / 2 ^ 63 = 1 ∧
    (∀ m < 8, sourcePending s m = false) ∧ (s.thr 8192).xin = false ∧
    ((withThread s fun t => { t with xin := true }).thr 8192).xin = true := by decide
/-- The third case of the ROM: no slot of an empty flash has the magic number. Whether a slot passes is the opaque
signature's to say (log 7). -/
theorem witness_Boot : slotCode [] 0 = 1 ∧ slotCode [] 0x8000000 = 1 := by decide +kernel
/-- A function at rest. -/
theorem witness_FunctionReset : (let s := withVf { idle with bootstat := 0#64 } 31 vfOn
      31 ∉ s.flr ∧ vfGroups s 31 = [] ∧ vfCores s 31 = [] ∧ s.bootstat.toNat / 2 ^ 8 % 4 ≠ 3 ∧
      (∀ k ∈ s.threads.map (·.1), (s.thr k).lives = true → vfHolds (vfAt s 31) (s.thr k).asid = false)) := by decide +kernel
/-- One with a running residence and two ACTIVE groups, one of a PLACING kernel. -/
def flrGroup : Group := { Group.reset with state := .active, asid := 0x103#16 }
def flrBusy : State := withVf ((withCore idle fun c => { c with ctxAsid := 0x103#16 }).setDie 0 { Die.reset with
  groups := [(0, flrGroup), (1, { flrGroup with kernel := some 0 })]
  pool := [(0, { KernelRec.reset with used := true, state := .placing, group := groupNumber 0 1 flrGroup.gen, asid := 0x103#16 })] }) 31 vfOn
theorem witness_FunctionReset_busy :
    vfCores flrBusy 31 = [0] ∧ (flrBusy.core 0).residence = .running ∧ (flrBusy.core 0).stopped = false ∧
    ((vfGroups flrBusy 31).all fun n => flrBusy.groupHeld n && decide ((flrBusy.group n).state = .active) &&
      vfHolds (vfAt flrBusy 31) (flrBusy.group n).asid) = true ∧
    (flrBusy.group 0).kernel = none ∧ (flrBusy.group 1).kernel = some 0 ∧
    (flrBusy.record 0 0).used = true ∧ (flrBusy.record 0 0).group = 1 ∧ (flrBusy.record 0 0).state = .placing := by
  and_intros <;> decide +kernel
theorem witness_ClockSlew : (-100 : Int) ≤ -100 ∧ (-100 : Int) ≤ 100 := by decide

/-- R486, R487: with an empty flash the ROM ends in recovery: SLOT 3, and MAGIC for both slots. -/
theorem test_recovery : (match exec .powerOnReset State.reset with
    | .next t => some (t.bootstat, t.due)
    | _ => none) = some (0x311#64, []) := by decide +kernel
/-- R478: a pause at 100 ns freezes guest time, with GOFF = 40, at 60. -/
theorem test_pause : (match exec (.vfPause 2) { withVf idle 2 { vfOn with goff := 40#64 } with time := 100#64 } with
    | .next t => some (vfAt t 2).gfrz
    | _ => none) = some 60#64 := by decide
/-- R489: two host writes OR together, and a read clears. -/
theorem test_doorbell : (match exec (.hostDoorbellWrite 0 6#64) { idleBarn with hdb := [(0, 1#64)] } with
    | .next t => reads (exec (.sysr 3 0x320) t) 3
    | _ => none) = some 7#64 := by decide

/-! Memory (06). -/

/-- The running context sees the 16 GiB page of Silo channel 0 at virtual address 0. -/
def paged (s : State) : State := withCore s fun c => { c with tlb := [{ bootEntry with asid := (s.thr s.cur).asid }] }

/-- The buffer A of the own core, and of the core at row 13, column 5 of die 2, offset 0x1_2340 (06, worked address). -/
def ownA : Word := 0x100000#64
def farA : Word := 0x000DA54000012340#64

/-- R139: the worked address names buffer A of that core. -/
theorem test_glob_address : reachMode idle 0 farA 0 8 2#2 kindLOAD 0#32 =
    .at ⟨bufferCell (256 * 2 + 16 * 13 + 5) 1 0x12340, 256 * 2 + 16 * 13 + 5, true, false, 2#2⟩ := by decide
/-- Each clause of AddressChecks at an edge of its range, with the answer of R140 and R493. -/
theorem witness_AddressChecks :
    (∀ x ∈ ([(0x0010000000000000#64, 0, 3#2, kindLOAD, .trap 2 0 0x0010000000000000#64),
      (0#64, -8, 3#2, kindLOAD, .trap 2 0 0xFFFFFFFFFFFFFFF8#64), (0x000FFFFFFFFFFFF8#64, 8, 3#2, kindLOAD, .trap 2 0 0x10000000000000#64),
      (0x100004#64, 0, 3#2, kindLOAD, .trap 2 0 0x100004#64), (0x8000000000000#64, 0, 0#2, kindLOAD, .trap 2 0 0x8000000000000#64),
      (0x8000000000000#64, 0, 1#2, kindLOAD, .trap 2 0 0x8000000000000#64), (0x400000#64, 0, 3#2, kindLOAD, .trap 2 0 0x400000#64),
      (0x300000#64, 0, 3#2, kindLOAD, .trap 2 0 0x300000#64), (0x180000#64, 0, 3#2, kindLOAD, .trap 2 0 0x180000#64),
      (0xFFFF8#64, 0, 3#2, kindSTORE, .trap 3 0 0xFFFF8#64), (0x200000#64, 0, 3#2, kindRMW, .trap 3 2 0x200000#64),
      (0xFFFF8#64, 0, 3#2, kindLOAD, .at ⟨bufferCell 0 0 0xFFFF8, 0, false, true, 3#2⟩),
      (0x17FFF8#64, 0, 3#2, kindSTORE, .at ⟨bufferCell 0 1 0x7FFF8, 0, false, true, 3#2⟩)] : List (Word × Int × BitVec 2 × Nat × Reach)),
      reachMode idle 0 x.1 x.2.1 8 x.2.2.1 x.2.2.2.1 0#32 = x.2.2.2.2) ∧
    (∀ x ∈ ([(0x7FFFFFFFFFFF8#64, kindLOAD, .trap 2 0 0x7FFFFFFFFFFF8#64), (0x800C000000000#64, kindLOAD, .trap 2 0 0x800C000000000#64),
      (0x9C04000000000#64, kindLOAD, .trap 2 0 0x9C04000000000#64), (0x8104000000000#64, kindLOAD, .trap 2 0 0x8104000000000#64),
      (0x8004000080000#64, kindLOAD, .trap 2 0 0x8004000080000#64), (0x8000000000000#64, kindSTORE, .trap 3 0 0x8000000000000#64),
      (0x8004000000000#64, kindSTORE, .at ⟨bufferCell 0 1 0, 0, true, true, 2#2⟩)] : List (Word × Nat × Reach)),
      reachMode idle 0 x.1 0 8 2#2 x.2.1 0#32 = x.2.2) ∧
    reachMode idleBarn 8192 farA 0 8 2#2 kindLOAD 5#32 = .trap 1 6 5#64 ∧
    reachMode { idle with dieret := 4#4 } 0 farA 0 8 2#2 kindLOAD 0#32 = .trap 2 0 farA ∧
    reachMode (idle.setDie 2 { Die.reset with nodes := [⟨2, 5, 0, 0⟩] }) 0 farA 0 8 2#2 kindLOAD 0#32 = .trap 3 1 farA := by
  decide

/-- What LoadStoreIssue tells apart: a trap, a walk, the own buffer, a remote one with a free entry, a thread over its
limit; and a translated access to another die, which moves the thread. -/
theorem witness_LoadStoreIssue : (∀ r ∈ loadRows 3#5 1#5 3#2 1#1 0x7F#8 15#4, ready r.1 idle = true) ∧
    (∀ r ∈ storeRows 3#5 1#5 0#2 0#1 0x80#8, ready r.1 idle = true) ∧
    reachMode idle 0 0#64 0 8 0#2 kindLOAD 0#32 = .miss ∧
    (match reachMode (paged idle) 0 0#64 0 8 1#2 kindLOAD 0#32 with | .trap k _ _ => k | _ => 0) = kindADDRESS ∧
    (match reachMode (paged idle) 0 0#64 0 8 0#2 kindLOAD 0#32 with | .at p => p.cell | _ => 0) = 2 ^ 52 ∧
    (match reachMode (withCore idle fun c => { c with tlb := [{ bootEntry with asid := 1#16, leaf := 0x0800000000000043#64 }] }) 0
      0#64 0 8 0#2 kindLOAD 0#32 with | .page _ => true | _ => false) = true ∧
    (idle.thr 0).outst = [] ∧ (journalAt (idle.core 0) 0).busy = false := by decide
/-- A relaxed load of eight bytes, and the own A-buffer as its place. -/
def plainLoad : AccessKind := ⟨.load false, 8, false, false, ownA, 0#64, 0#64⟩
def ownPlace : Place := ⟨bufferCell 0 1 0, 0, false, true, 3#2⟩

/-- An engine holds bank 0 of core 0. -/
def engineHolds (s : State) : State := withCore s fun c => { c with banks := ⟨0, 1#16, 0#16⟩ }

/-- A thread's access has the banks of core 0 in this ck. -/
def threadHolds (s : State) : State := withCore s fun c => { c with banks := ⟨0, 0#16, 0xFFFF#16⟩ }

theorem witness_CannotIssue : cannotIssue (withThread idle fun t => { t with outst := [⟨0, false, true, none⟩] }) plainLoad ownPlace ∧
    cannotIssue (engineHolds idle) plainLoad ownPlace ∧ ¬ cannotIssue idle plainLoad ownPlace ∧
    ¬ cannotIssue idle plainLoad { ownPlace with home := 1 } := by
  unfold cannotIssue bankTaken
  refine ⟨.inl (by decide), .inr (.inr ⟨rfl, by decide⟩), ?_, ?_⟩ <;> rintro (h | ⟨g, h⟩ | ⟨-, h⟩)
  · exact absurd h (by decide)
  · exact absurd rfl g
  · exact absurd h (by decide)
  · exact absurd h (by decide)
  · exact absurd (h 0 (by decide)) (by decide)
  · exact absurd h (by decide)
theorem witness_Ordering : (∀ i ∈ ([.ldAcq 3 1 3 0 0, .stRel 3 1 3 0, .fenceScope 5, .fenceLoop] : List Instr), ready i idle = true) ∧
    (let s := withThread idle fun t => { t with outst := [⟨0, false, true, none⟩] }
     ready (.stRel 3 1 3 0) s = true ∧ (s.thr 0).outst ≠ [] ∧ ∃ o ∈ (s.thr 0).outst, o.own = true) ∧
    (let w : Window := { win 0 3#5 5 .pending with holds := true }
     let s := withWindows idle [w]
     isWord (.ldD 3 1 3 0 0 0) = true ∧ memoryInstr (.ldD 3 1 3 0 0 0) = true ∧ issueCause (.ldD 3 1 3 0 0 0) s 0 = none ∧
     w ∈ (s.thr 0).windows ∧ w.holds = true ∧ w.waits = true) := by
  and_intros <;> decide
theorem witness_AtomicIssue : (∀ r ∈ atomicRows 3#5 1#5 2#5 5#3 15#4, ready r.1 idle = true) ∧
    (∀ r ∈ updateRows 1#5 2#5 1#3, ready r.1 idle = true) ∧ ready (.sc 3 1 2 0) idle = true ∧
    ready (.lrw 3 1 3 0 0) (box ownA 0#64 0#64 0#64) = true ∧
    (match reachMode idle 0 ownA 0 8 3#2 kindLOAD 0#32 with | .at p => p.mode | _ => 0#2) = 3#2 ∧
    (match reachMode idle 0 farA 0 8 2#2 kindLOAD 0#32 with | .at p => p.cell / 2 ^ 38 % 4 | _ => 0) = 1 ∧
    reservationsOf idle 0 < 4 ∧
    4 ≤ reservationsOf (withCore idle fun c => { c with resv := (upTo 4).map fun j => ⟨64 + 8 * j, 1#16, 0#16, some 0#16, false, none, 0⟩ }) 0 ∧
    (∃ o ∈ ((withThread idle fun t => { t with outst := [⟨0, false, true, none⟩] }).thr 0).outst, o.relaxed = false) := by
  and_intros <;> decide

/-- A request of the thread for the eight bytes at cell 64 of the own core, and for those of core 1. -/
def ask (op : MemOp) (home : Nat) (jent : Option Nat) : Request :=
  { key := 0, aid := 5, wid := none, op := op, cell := 64, size := 8, home := home, port := true, ea := 64#64, mode := 0#2
    data := 7#64, cmp := 0#64, asid := 1#16, group := 0#16, tnum := 0#16, jent := jent }

theorem witness_HomePerforms : Memory.wf idle.mem ∧ (∀ op ∈ [MemOp.load true, .load false, .store, .amoCas, .rupXor],
    refusal idle (ask op 0 none) = none ∧ 0 < (ask op 0 none).size ∧ arrivalBanks idle (ask op 0 none) = true) ∧
    arrivalBanks (engineHolds idle) { ask .store 0 none with cell := bufferCell 0 1 0 } = false ∧
    banksOf 0 64 8 = 0#16 ∧ isAtomic .amoCas = true ∧ isUpdate .rupXor = true := by
  decide
theorem witness_HomeRefuses : (ask .store 1 (some 0)).jent = some 0 ∧ arrivalBanks idle (ask .store 1 (some 0)) = true ∧ (1 : Nat) ≠ coreOf 0 ∧
    { idle with dieret := 1#4 }.dieRetired (dieOf 1) = true ∧
    ((idle.setCore 1 { Core.reset with health := .quarantined }).core 1).health = .quarantined ∧
    hostsContext idle 1 1#16 = false ∧ (idle.core 1).health = .good ∧ opReads .amoAdd = true ∧
    (ask .amoAdd 1 (some 0)).cell / 64 ∈ { idle with poison := [1] }.poison ∧
    (∀ b ∈ [true, false], ((ask .amoAdd 1 (some 0)).cell / 64, b) ∈ { idle with erring := [(1, b)] }.erring) := by decide
theorem witness_AnswerArrives : ∀ r ∈ [Reply.ack, .value 5#64, .refused 3#4],
    (⟨0, 5, some 9, some 63, r, 1⟩ : Response).jent = some 63 ∧ (⟨0, 5, some 9, some 63, r, 1⟩ : Response).wid = some 9 := by decide

/-- A position of thread (1, 0, n) in the queue of cell 64. -/
def place (n : BitVec 16) (absent : Bool) (waiting : Option Request) : Reservation := ⟨64, 1#16, 0#16, some n, absent, waiting, 0⟩

theorem witness_ReservationQueue : refusal idle (ask .lrw 0 none) = none ∧ resvHead (idle.core 0) 64 = none ∧
    arrivalBanks idle (ask .lrw 0 none) = true ∧ (idle.core 0).resv.length < 256 ∧ (idle.core 0).resvHeld = [] ∧
    (∀ b ∈ [true, false], resvHead { Core.reset with resv := [place 1#16 b none] } 64 = some (place 1#16 b none) ∧
      (place 1#16 b none).isOf 1#16 0#16 0#16 = false ∧ (place 1#16 b none).absent = b) ∧
    256 ≤ (List.replicate 256 (place 1#16 false none)).length ∧
    ({ Core.reset with resvHeld := [ask .lrw 0 none] } : Core).resvHeld = [ask .lrw 0 none] ∧
    (ask .lrw 0 none).cell ∉ ([] : List Reservation).map (·.cell) := by decide +kernel
theorem witness_StoreConditional : refusal idle (ask .sc 0 none) = none ∧ arrivalBanks idle (ask .sc 0 none) = true ∧
    (place 0#16 false none).isOf 1#16 0#16 0#16 = true ∧
    (let q := { ask .lrw 0 none with key := 8 }
     (place 1#16 false (some q)).cell = 64 ∧ (place 1#16 false (some q)).waiting = some q ∧ q.home = 0 ∧ q.home ≠ coreOf q.key) ∧
    resvHead (idle.core 0) 64 = none := by decide

/-- R143, R145: a load of the own A-buffer is performed by its request at the home, which answers at once. -/
theorem test_load_byte : (match exec (.ldB 3 1 3 0 0 0) { box ownA 0#64 0#64 0#64 with mem := [(bufferCell 0 1 0, 0x80#8)] } with
    | .next t => (match t.work with
      | [.remoteRequestArrival r] => reads (exec (.remoteRequestArrival r) { t with work := [] }) 3
      | _ => none)
    | _ => none) = some 0xFFFFFFFFFFFFFF80#64 := by decide
/-- R3: a store of a word puts the least significant byte lowest. -/
theorem test_store_order : (match exec (.remoteRequestArrival { ask .store 0 none with size := 4, data := 0x11223344#64 }) idle with
    | .next t => (readByte t.mem 64, readByte t.mem 67, readByte t.mem 68)
    | _ => (0#8, 0#8, 0#8)) = (0x44#8, 0x11#8, 0#8) := by decide
/-- R156: amo.min on -1 and 7 leaves -1, and amo.minu leaves 7. -/
theorem test_amo_min : ∀ x ∈ [(MemOp.amoMin, 0xFFFFFFFFFFFFFFFF#64), (.amoMinu, 7#64)],
    (match exec (.remoteRequestArrival (ask x.1 0 none)) { idle with mem := writeWord [] 64 0xFFFFFFFFFFFFFFFF#64 } with
      | .next t => some (readWord t.mem 64)
      | _ => none) = some x.2 := by decide
theorem test_buffer_permission : trapOf (exec (.stD 3 1 3 0 0) idle) = some (.trapped, 0x1000#64, 0x300#64, 0#64) := by decide

/-! Barriers and queues (16, 17). -/

/-- Object 3 of the quad of core 0 belongs to context 1. -/
def quadObject (s : State) (x : Barrier) : State := s.setBarrier (barrierKey 2 0 3) { x with valid := true, asid := 1#16 }

/-- Each answer of the barrier instructions: no object, a scope that is reserved, a target, an arrival, a refused one. -/
theorem witness_BarrierResults :
    let s := quadObject (box 3#64 2#64 0#64 0#64) { Barrier.reset with exp := 2 }
    (∀ i ∈ ([.barinit 3 1 2 2, .barjoin 3 1 2 2, .barwait 3 1 2 2 0, .barbytes 3 1 2 2] : List Instr), ready i s = true) ∧
    objectNamed s 3#64 2 = some (barrierKey 2 0 3) ∧ objectNamed s 8#64 2 = none ∧ objectNamed idle 3#64 2 = none ∧
    1 ≤ (2#64).toNat ∧ (s.thr 0).outst = [] ∧ (s.barrier (barrierKey 2 0 3)).arr ≠ (s.barrier (barrierKey 2 0 3)).exp ∧
    coreOf 0 < 1024 ∧ slotOf 7 = 7 := by decide
theorem witness_BarrierEngine :
    let o := (quadObject idle { Barrier.reset with exp := 2 }).barrier (barrierKey 2 0 3)
    o.valid = true ∧ o.asid = 1#16 ∧ o.asid ≠ 0#16 ∧ -(2 ^ 55) ≤ o.pend - 256 ∧ ({ o with pend := -(2 ^ 55) }).pend - 1 < -(2 ^ 55) := by
  decide

/-- 16, worked run, steps 1, 3 and 6: the words that barinit and the two arrivals return, and the phase after them. -/
theorem test_barrier_run :
    let s := quadObject (box 3#64 2#64 0#64 0#64) Barrier.reset
    reads (exec (.barinit 3 1 2 2) s) 3 = some 0x02000000#64 ∧
    reads (exec (.barjoin 3 1 10 2) (quadObject s { Barrier.reset with exp := 2 })) 3 = some 0x02000001#64 ∧
    (match exec (.barjoin 5 1 2 2) (quadObject (box 3#64 256#64 0#64 0#64) { Barrier.reset with exp := 2, arr := 1, pend := -256 }) with
      | .next t => some (readReg t 0 5#5, (t.barrier (barrierKey 2 0 3)).phase, (t.barrier (barrierKey 2 0 3)).arr)
      | _ => none) = some (0x02000002#64, true, 0) := by decide
/-- R358: a waiter whose phase has passed has its event at once, with status 0. -/
theorem test_barwait_passed : reads (exec (.barwait 4 1 3 2 0) (quadObject (box 3#64 0#64 0#64 0#64) { Barrier.reset with phase := true })) 4 =
    some 0#64 := by decide

/-- Queue 8 of core 0 is a work list of context 1 with CAP 48, holding entries l; p1 = 8, p2 the buffer. -/
def listed (l : List (List Word)) : State :=
  withCore (box 8#64 ownA 0#64 0#64) fun c => { c with qcfg := c.qcfg.setIfInBounds 8 0x0001000060300000#64, lists := [(8, l)] }

theorem witness_QueueResults :
    let s := listed []
    (∀ i ∈ ([.qput 3 1 2, .qget 3 1 2 0, .qstat 3 1] : List Instr), ready i s = true) ∧ ready (.qcfg 3 1 2) idlePriv = true ∧
    entryOk s 8#64 ownA ∧ ¬ entryOk s 16#64 ownA ∧ ¬ entryOk s 8#64 (ownA + 32#64) ∧ (s.core 0).qorphan.getLsbD 8 = false ∧
    tabGet [] ((listed [List.replicate 8 1#64]).core 0).lists 8 = [List.replicate 8 1#64] ∧
    ownA.toNat % 2 ^ 20 + 64 ≤ 2 ^ 19 ∧ coreFor idlePriv 7 0#64 = some 0 ∧ coreFor idle 0 (1#64 <<< 51) = none ∧
    coreFor idleBarn 8192 0#64 = none := by
  unfold entryOk
  decide
theorem witness_Admitted : admitted ((listed []).core 0) 8 1 ∧ admitted ((listed []).core 0) 8 48 ∧
    ¬ admitted ((listed []).core 0) 8 49 := by
  unfold admitted
  decide +kernel
/-- A word that is refused (CAP below MIN), one that is busy, one that is taken. -/
theorem witness_QueueConfigures :
    let c := (listed [List.replicate 8 1#64]).core 0
    cfgRefused c 0 8 0x0001000060000001#64 ∧ ¬ cfgRefused c 0 8 0x0002000060300000#64 ∧ cfgBusy c 8 0x0002000060300000#64 ∧
    ¬ cfgBusy c 8 0#64 ∧ ¬ cfgRefused c 0 8 0#64 ∧ (15 : Nat) < 16 := by
  refine ⟨.inr (.inl (by decide)), ?_, ?_, ?_, ?_, by decide⟩
  · rintro (h | h | h | h | h | h | h | h | h | h | h | h | h | h) <;> revert h <;> decide +kernel
  · exact ⟨by decide, by decide +kernel, by decide, by decide +kernel, .inl (by decide +kernel)⟩
  · rintro ⟨-, -, h, -⟩
    exact h (by decide)
  · rintro (h | h | h | h | h | h | h | h | h | h | h | h | h | h) <;> revert h <;> decide +kernel
/-- A sending channel with two entries and its peer at core 1; a work list; a block to retire with and without room. -/
theorem witness_QueueMoves :
    let s := (withCore idle fun c => { c with qcfg := c.qcfg.setIfInBounds 8 0x0001000280200000#64, lists := [(8, [[1#64], [2#64]])] }).setCore 1
      { Core.reset with qcfg := Core.reset.qcfg.setIfInBounds 8 0x00010000A0200000#64 }
    tabGet [] (s.core 0).lists 8 = [[1#64], [2#64]] ∧ qPeerCore (qcfgOf (s.core 0) 8) = 1 ∧ qKind (qcfgOf (s.core 0) 8) = 4 ∧
    qKind (qcfgOf (s.core 1) 8) = 5 ∧ qAsid (qcfgOf (s.core 1) 8) = qAsid (qcfgOf (s.core 0) 8) ∧
    qPeerCore (qcfgOf (s.core 1) 8) = 0 ∧ qPeerChannel (qcfgOf (s.core 1) 8) = 0 ∧
    qKind (qcfgOf ((listed []).core 0) 8) = 3 ∧ (s.core 0).qret.getLsbD 63 = false ∧ (s.core 0).qretiring = [] ∧
    poolUsed (s.core 0) - inRetiring (s.core 0) ≤ 64 * blocksOpen (s.core 0) ∧
    (let c := { idle.core 0 with qretiring := [(63, 5)], qused := 5 }
     c.qretiring = [(63, 5)] ∧ c.qused = 5 ∧ poolUsed c = 0) := by decide +kernel

/-- R369, worked case: four blocks left, minima 8, 16, 16, 16, 8, 16, 48, 16 and 200. -/
theorem test_pool_shrinks :
    let c := { idle.core 0 with
      qcfg := (idle.core 0).qcfg.setIfInBounds 9 0x00010000710000C8#64, qret := 0x0FFFFFFFFFFFFFFF#64 }
    overCommitted c = true ∧ (upTo 16).map (fun j => qMin (qcfgOf (shrinkMinima c) j)) =
      [8, 11, 11, 11, 5, 11, 35, 11, 0, 147, 0, 0, 0, 0, 0, 0] := by decide +kernel
theorem test_qget_empty : coming (exec (.qget 3 1 2 0) (listed [])) = some (.later (.one 1#64)) := by decide +kernel
theorem test_qput_joins : (match exec (.qput 3 1 2) (listed []) with
    | .next t => some (tabGet [] (t.core 0).lists 8, readReg t 0 3#5)
    | _ => none) = some ([List.replicate 8 0#64], 0#64) := by decide +kernel

/-! The vector unit (09): the worked example that scales a row. -/

/-- A record of e elements of PTR with stride t. -/
def shapeRec (ptr e t : Nat) : Nat := ptr + e * 2 ^ 64 + 2 ^ 80 + 2 ^ 96 + 2 ^ 112 + t * 2 ^ 128

/-- The A-buffer of the example behind its second vfence: x, h, s = 5, and operand block 3. -/
def rowMem : List Host.Cell :=
  let a := bufferCell 0 1
  let m := writeBytes [] (a 0x100) 4 0x3F800000
  let m := writeBytes m (a 0x104) 4 0x40000000
  let m := writeBytes m (a 0x108) 4 0x40000000
  let m := writeBytes m (a 0x10C) 4 0x40800000
  let m := writeBytes m (a 0x140) 4 0x40A00000
  let m := writeBytes m (a 0x2C0) 32 (shapeRec 0x1400000000100180 4 1)
  let m := writeBytes m (a 0x2E0) 32 (shapeRec 0x1400000000100100 4 1)
  writeBytes m (a 0x300) 32 (shapeRec 0x1400000000100140 4 0)

/-- vdiv of block 3, queued by thread 0. -/
def divOp : VecOp := { queuedVecOp idle 0 4 0x1002C0#64 0xFFFFFFFFFFFFFFFF#64 2#32 none [] with id := 7 }
def divStarted : VecOp := { divOp with
  started := true, recD := shapeRec 0x1400000000100180 4 1, recX := shapeRec 0x1400000000100100 4 1, recY := shapeRec 0x1400000000100140 4 0 }
def withVec (o : VecOp) : State := { withCore idle (fun c => { c with vecQueue := [o] }) with mem := rowMem }

theorem witness_VectorIssue :
    let s := box 0x1002C0#64 0xFFFFFFFFFFFFFFFF#64 0#64 0#64
    (∀ r ∈ vectorRows 1#5 2#5, ready r.1 s = true) ∧
    (∀ i ∈ ([.vcmpm 3 1 2 0, .vbusy 3 1, .vfence, .ewr 1 1 16, .ewr 1 2 3, .ewr 1 4 10] : List Instr), ready i s = true) ∧
    tagFits 0x1002C0#64 ∧ blockFits 0x1002C0#64 ∧ blockFits 0x17FFA0#64 ∧ ¬ blockFits 0x17FFC0#64 ∧ ¬ tagFits 0x0010000000100000#64 := by
  unfold tagFits blockFits
  decide
theorem witness_VectorQueue : admitted (idle.core 0) 5 1 ∧
    ¬ admitted { idle.core 0 with vecQueue := List.replicate 256 divOp } 5 1 := by
  unfold admitted
  decide +kernel
theorem witness_VectorStart : alone (withVec divOp) 0 divOp ∧ divOp.started = false ∧
    (∀ a ∈ ((withVec divOp).thr divOp.key).outst, a.aid ∉ divOp.fork) ∧ opHalts (withVec divOp) divOp.key = false ∧
    (let m := banksOf 0 (bufferCell 0 1 divOp.block) 96
     ¬ banksHeld (withVec divOp) 0 m ∧ banksHeld (threadHolds (withVec divOp)) 0 m) := by
  unfold alone banksHeld
  decide
/-- vexp of the same row, at its first beat. -/
def expStarted : VecOp := { divStarted with cmd := 0x20 }
theorem witness_VectorBeats : alone (withVec divStarted) 0 divStarted ∧ elementwise divStarted 4 ∧
    elementwise { expStarted with half := true } 4 ∧ expStarted.half = false ∧ inBuffers expStarted expStarted.recD 4 ∧
    alone (withVec expStarted) 0 expStarted ∧ (beatTable 32).2 ≤ ((withVec divStarted).core 0).eleft.getD 0 0 ∧
    (Core.reset.eleft.setIfInBounds 0 7).getD 0 0 < (beatTable 32).2 ∧ coreOf 0 = 0 ∧ opHalts (withVec divStarted) 0 = false ∧
    ((withVec divStarted).core 0).beatCk ≠ (withVec divStarted).ck + 1 ∧
    ¬ banksHeld (withVec divStarted) 0 (beatBanks 0 divStarted) ∧ banksHeld (threadHolds (withVec divStarted)) 0 (beatBanks 0 divStarted) := by
  unfold alone elementwise inBuffers extentsMatch banksHeld
  and_intros <;> decide +kernel
/-- vand of a row of four INT8; vsum of a row of four FP32; a vcmpm of two rows of five. -/
def andStarted : VecOp := { divStarted with
  cmd := 0x10, recD := shapeRec 0x1C00000000100180 4 1, recX := shapeRec 0x1C00000000100100 4 1, recY := shapeRec 0x1C00000000100140 4 1 }
def sumStarted : VecOp := { divStarted with cmd := 0x18, recD := shapeRec 0x1400000000100180 1 1 }
def cmpStarted : VecOp := { divStarted with
  cmd := 0x100, mask := 4#64, recD := 0, recX := shapeRec 0x1400000000100100 5 1, recY := shapeRec 0x1400000000100140 5 0 }
theorem witness_VectorBits : alone (withVec andStarted) 0 andStarted ∧ inBuffers andStarted andStarted.recD 4 ∧
    (∀ r ∈ recordsOf andStarted, 7 ≤ recCode r ∧ extentsMatch 0 r andStarted.recD) ∧ recCode andStarted.recX = recCode andStarted.recD ∧
    (andStarted.cmd ≤ 0x12 → recCode andStarted.recY = recCode andStarted.recD) := by
  unfold alone inBuffers extentsMatch
  decide +kernel
theorem witness_VectorReduces : alone (withVec sumStarted) 0 sumStarted ∧ inBuffers sumStarted sumStarted.recX 4 ∧
    recCode sumStarted.recX = 5 ∧ recCode sumStarted.recD = 5 ∧ recExtent sumStarted.recD 0 = 1 ∧
    extentsMatch 1 sumStarted.recD sumStarted.recX ∧ (sumStarted.next + 4) % recExtent sumStarted.recX 0 = 0 ∧
    sumStarted.first = true := by
  unfold alone inBuffers extentsMatch
  decide +kernel
theorem witness_VectorCompares : alone (withVec cmpStarted) 0 cmpStarted ∧ cmpStarted.started = true ∧ cmpStarted.done = false ∧
    cmpStarted.parked = false ∧ cmpStarted.next = 0 ∧ recElements cmpStarted.recX = 5 ∧ cmpStarted.mask.toNat % 16 ≤ 4 ∧
    (∀ r ∈ recordsOf cmpStarted, recCode r = 5 ∧ extentsMatch 0 r cmpStarted.recX) := by
  unfold alone extentsMatch
  decide +kernel
/-- A value of each range that the special functions tell apart: past an end of vexp, below 0, a zero, an infinity, and one of each
size for vtanh. -/
theorem witness_SpecialFunctions :
    (∀ x ∈ [num 89 1, num (-105) 1, num (-1) 1, num 0 1, .inf false, .inf true, num 1 1, num 1 8192, num 1 16, num 9 1],
      rne x ≠ .nan) ∧ rne (.inf true) = .inf true ∧ rne (.inf false) = .inf false ∧
    (∃ m, rne (num 0 1) = .fin false m ∧ m.isZero = true) ∧ (∃ m, rne (num 1 1) = .fin false m ∧ m.isZero = false) ∧
    (let v := fun (n : Int) (d : Nat) => rne (num n d)
     ltVal (num 355 4) (v 89 1) = true ∧ ltVal (v (-105) 1) (num (-104) 1) = true ∧ ltVal (v (-1) 1) (num 0 1) = true ∧
     ltVal (num 355 4) (v 1 1) = false ∧ ltVal (v 1 1) (num (-104) 1) = false ∧ ltVal (v 1 8192) (num 1 4096) = true ∧
     ltVal (v 1 16) (num 1 4096) = false ∧ ltVal (v 1 16) (num 1 8) = true ∧ ltVal (v 1 1) (num 1 8) = false ∧
     ltVal (v 1 1) (num 9 1) = true ∧ ltVal (v 9 1) (num 9 1) = false) := by
  refine ⟨by decide +kernel, by decide +kernel, by decide +kernel, ⟨_, rfl, by decide +kernel⟩, ⟨_, rfl, ?_⟩, ?_⟩ <;> decide +kernel
theorem witness_VectorCompletes : ∀ o ∈ [divStarted, { divStarted with err := 3 }, { divStarted with wid := some 4 }],
    alone (withVec o) 0 o ∧ o.err ≠ 10 := by
  unfold alone
  decide
/-- A rep at 0x1000 that captures the vadd behind it; and a captured word that no sequence takes. -/
theorem witness_Repetition :
    let s := { paged (box 2#64 1#64 0#64 0#64) with mem := writeBytes [] (2 ^ 52 + 0x1004) 4 0xC0110010 }
    ready (.rep 1 2 0) s = true ∧ (s.core 0).reps = [] ∧ (fetchReach s 0 0x1004#64 = .at ⟨2 ^ 52 + 0x1004, (match fetchReach s 0 0x1004#64 with
      | .at p => p.home | _ => 0), true, (match fetchReach s 0 0x1004#64 with | .at p => p.own | _ => false), 0#2⟩) ∧
    BitVec.ofNat 32 (readBytes s.mem (2 ^ 52 + 0x1004) 4) = 0xC0110010#32 ∧ captureCause s 0 0xC0110010#32 = none ∧
    captureCause s 0 0xDC000090#32 = some causeFIELD := by decide
theorem witness_RepReissue :
    let r : RepSeq := ⟨0, 0, [encode (.vadd 1 2), encode (.vmul 1 2)], (idle.thr 0).p, 0#64, 2, 3, 0#32, 0#64, [], 0, 0, none⟩
    (.vadd 1 2, 0x01) ∈ vectorRows 1#5 2#5 ∧ r.words[r.j]? = some (encode (.vadd 1 2)) ∧ r.j + 1 < r.words.length ∧
    r.k + 1 < r.count ∧ { r with j := 1 }.j + 1 = r.words.length ∧ r.count = { r with k := 1 }.k + 1 ∧ tagFits ((box 0x1002C0#64 0#64 0#64 0#64).thr 0).p[1] ∧
    blockFits ((box 0x1002C0#64 0#64 0#64 0#64).thr 0).p[1] ∧
    opHalts idle 0 = false ∧ opHalts (withCore idle fun c => { c with residence := .preempting }) 0 = true ∧
    heldBack (idle.thr 0) = false ∧ idle.dieRetired 0 = false ∧ ((withCore idle fun c => { c with reps := [r] }).core 0).reps = [r] := by
  unfold tagFits blockFits
  decide

/-- Step 11 of the example: u = x / 5, rounded to nearest. -/
theorem test_vdiv_row : ((upTo 4).map fun i => readBytes (vectorAct (withVec divStarted) 0 divStarted).mem
    (bufferCell 0 1 (0x180 + 4 * i)) 4) = [0x3E4CCCCD, 0x3ECCCCCD, 0x3ECCCCCD, 0x3F4CCCCD] := by decide +kernel
/-- Step 10: the operation starts without an error (R203), and fails with the tag of no format. -/
theorem test_vdiv_starts : startCode (withVec divStarted) 0 divStarted = 0 ∧
    startCode (withVec divStarted) 0 { divStarted with recX := shapeRec 0x2400000000100100 4 1 } = 1 := by decide +kernel
/-- Step 15: vbusy with a[0] = 1 returns VSTATUS and clears it. -/
theorem test_vbusy_status : (match exec (.vbusy 7 1) (withThread (box 1#64 0#64 0#64 0#64) fun t => { t with vstatus := 1#64 }) with
    | .next t => some (readReg t 0 7#5, (t.thr 0).vstatus)
    | _ => none) = some (1#64, 0#64) := by decide
/-- 11: ewr ereg(2, 0), p1. -/
theorem test_ewr_matrix : (match exec (.ewr 1 2 0) (box 5#64 0#64 0#64 0#64) with
    | .next t => some ((t.thr 0).matRegs.toList)
    | _ => none) = some [5#64, 0#64, 0#64, 0#64] := by decide

/-! The tensor copy engine (10) and the matrix engine (11). -/

/-- A cpbox of eight FP32 elements from A-buffer offset 0x100 to 0x200, in a tensor of six, next element n. -/
def boxOp (n : Nat) : CopyOp :=
  { id := 3, key := 0, cmd := 1, obj := 0x100000#64, sync := 0#64
    regs := #v[0x1400000000100100#64, 0x1400000000100200#64, 7#64, 0xF0000#64, 0#64, 0#64, 0#64, 0#64, 0#64, 0#64, 0#64, 0#64, 6#64,
      0#64, 0#64, 0#64, 0#64]
    fork := [], started := true, probed := 0, refusal := none, next := n, value := none, sent := 0, badLayout := false, written := [], flags := 0#5, err := 0, done := false }
def withCopy (o : CopyOp) : State := { withCore idle (fun c => { c with copies := [o] }) with mem := rowMem }

theorem witness_CopyIssue :
    (∀ r ∈ copyRows 1#5 2#5, ready r.1 idle = true) ∧
    (∀ i ∈ ([.cpcan 1 2, .cpstat 3 1, .cpwait 3 1 15] : List Instr), ready i idle = true) ∧
    tagFits ownA ∧ objectFits ownA ∧ objectFits 0x17FFF8#64 ∧ ¬ objectFits 0x180000#64 ∧ ¬ objectFits 0x100004#64 ∧
    ¬ tagFits 0x0010000000100000#64 ∧ admitted (idle.core 0) 6 3 ∧ (idle.core 0).copies.length < 512 ∧ objectReached (engineHolds idle) ownA = none ∧
    objectReached idle ownA = some (takesBanks idle 0 (objectAt idle ownA) 8) := by
  unfold tagFits objectFits admitted
  decide
theorem witness_CopyWaits :
    let w : Window := { win 4 3#5 0 .pending with event := true, word := encode (.cpwait 3 1 15), a := ownA }
    let s := withWindows idle [w]
    let t := { s with mem := writeWord [] (bufferCell 0 1 0) 0x4000000000000000#64 }
    (s.thr 0).windows = [w] ∧ (s.thr 0).held = [] ∧ (s.thr 0).frozen = [] ∧ w.count = 0 ∧ regOk w.dest = true ∧ w.dest ≠ 10#5 ∧
    (readWord s.mem (bufferCell 0 1 0)).toNat / 2 ^ 62 ≠ 1 ∧ (readWord t.mem (bufferCell 0 1 0)).toNat / 2 ^ 62 = 1 := by decide
/-- An element within the tensor, and one beyond it. -/
theorem witness_CopyRuns :
    simpleCopy (boxOp 5) 5 ∧ simpleCopy (boxOp 6) 5 ∧ ((withCopy (boxOp 5)).core 0).copies = [boxOp 5] ∧
    (withCopy (boxOp 5)).dieRetired (dieOf 0) = false ∧ ((withCopy (boxOp 5)).core 0).health = .good ∧
    (withCopy (boxOp 5)).poison = [] ∧ boxSource (boxOp 5) 5 = [5, 0, 0, 0, 0] ∧ (boxOp 5).bound 0 = 6 ∧ (boxOp 5).bound 1 = 2 ^ 32 ∧
    (let o := { boxOp 0 with started := false }
     let s := withCopy o
     (s.core 0).copies = [o] ∧ (∀ a ∈ (s.thr o.key).outst, a.aid ∉ o.fork) ∧ tagFits o.src ∧ tagFits o.dst ∧
     sourceSpaceFails s 0 o = false ∧ destSpaceFails s 0 o = false ∧
     copyShapeFails o = false ∧ o.firstPages.length ≤ o.probed) ∧
    ({ boxOp 0 with started := false, regs := (boxOp 0).regs.setIfInBounds 3 0x30000#64 }).firstPages[0]? = some (0x100200, 0#2) ∧
    (let m := banksOf 0 (bufferCell 0 1 0x214) 4
     ¬ banksHeld (withCopy (boxOp 5)) 0 m ∧ banksHeld (threadHolds (withCopy (boxOp 5))) 0 m) := by
  unfold simpleCopy tagFits banksHeld
  decide +kernel
/-- A cpmc of the same box to core 0, and one to core 1, which hosts no thread of the context, with an element in hand. -/
def mcOp : CopyOp := { boxOp 0 with cmd := 2, sync := 0x0000000100000000#64 }
def mcAway : CopyOp := { mcOp with sync := 0x0000000200000000#64, value := some 5 }
theorem witness_CopyWhole : ∀ o ∈ [boxOp 0, mcOp], ((withCopy o).core 0).copies = [o] ∧ plainRun (withCopy o) 0 o ∧ boxCount o = 8 := by
  have free : ∀ o ∈ [boxOp 0, mcOp], ∀ m ∈ [2#2, 3#2], sideFree (withCopy o) 0 1#16 m 0 := by
    unfold sideFree
    decide +kernel
  have source : ∀ o ∈ [boxOp 0, mcOp], ∀ n < 8, sideAt (withCopy o) 0 1#16 3#2 o.src (boxDistance 4 o.srcStride (boxSource o n)) 0 kindLOAD =
      some (0, bufferCell 0 1 (0x100 + 4 * n)) := by decide +kernel
  have target : ∀ n < 8, sideAt (withCopy (boxOp 0)) 0 1#16 3#2 (boxOp 0).dst (boxTarget (boxOp 0) 4 n) 0 kindSTORE =
      some (0, bufferCell 0 1 (0x200 + 4 * n)) := by decide +kernel
  simp only [List.mem_cons, List.not_mem_nil, or_false, forall_eq_or_imp, forall_eq] at free source ⊢
  refine ⟨⟨rfl, ⟨by decide, by decide, by decide, by decide, by decide, by decide, by decide, by decide, by decide, by decide,
      fun h => absurd h (by decide), fun n hn => ⟨fun _ => ⟨_, source.1 n hn, free.1.2⟩, fun _ => ⟨_, target n hn, free.1.2⟩⟩⟩, by decide⟩,
    ⟨rfl, ⟨by decide, by decide, by decide, by decide, by decide, by decide, by decide, by decide, by decide, by decide,
      fun _ => ⟨by decide, by decide, by decide, ?_⟩, fun n hn => ⟨fun _ => ⟨_, source.2 n hn, free.2.2⟩, fun h => absurd rfl h⟩⟩, by decide⟩⟩
  have at0 : multicastTo 0 mcOp.sync = [0] := by decide
  rw [at0]
  intro c hc
  obtain rfl := List.mem_singleton.mp hc
  exact free.2.1
theorem witness_CopyWhole_refused : ((withCopy mcAway).core 0).copies = [mcAway] ∧ mcAway.next < boxCount mcAway ∧ mcAway.value = some 5 ∧
    multicastTo 0 mcAway.sync = [1] ∧ (withCopy mcAway).dieRetired (dieOf 1) = false ∧ ((withCopy mcAway).core 1).health = .good ∧
    hostsContext (withCopy mcAway) 1 1#16 = false ∧ journalFree ((withCopy mcAway).core 0) = some 0 := by decide +kernel
theorem witness_CopyCompletes : ∀ o ∈ [{ boxOp 8 with done := true }, { boxOp 8 with done := true, err := 3, sync := 0x2F#64 }],
    ((withCopy o).core 0).copies = [o] ∧ o.done = true ∧ o.err ≠ 9 ∧ o.cmd ≠ 2 ∧
    (o.sync.toNat / 2 % 2 = 1 → o.sync.toNat / 2 ^ 5 % 64 < objectsOf (o.sync.toNat / 2 ^ 2 % 8)) := by decide

/-- R227, the worked swizzle: offset 0x1A30 under xor-128 B. -/
theorem test_swizzle : swizzle 2 0x1A30 = 0x1A70 := by decide
/-- R225, R226: walk number 3 reads offset 0x10C; number 6 lies beyond the tensor. -/
theorem test_cpbox_element :
    readBytes (copyElement (withCopy (boxOp 3)) 0 (boxOp 3)).mem (bufferCell 0 1 0x20C) 4 = 0x40800000 ∧
    readBytes (copyElement (withCopy (boxOp 6)) 0 (boxOp 6)).mem (bufferCell 0 1 0x218) 4 = 0 := by decide +kernel
/-- R236: the object of 32 bytes copied. -/
theorem test_completion_object : completionWord { boxOp 8 with written := [(0, 8)], done := true } = 0x8000000000000020#64 := by decide
/-- R229: at issue the object becomes PENDING. -/
theorem test_cpbox_pending : (match exec (.cpbox 1 2) (box 0x100000#64 0#64 0#64 0#64) with
    | .next t => some (readWord t.mem (bufferCell 0 1 0), (t.core 0).copies.length)
    | _ => none) = some (0x4000000000000000#64, 1) := by decide

/-- A matrix command of thread 0. -/
def matOp (id cmd : Nat) (a b : Word) (r : Vector Word 4) : MatOp := ⟨id, 0, cmd, a, b, 0#32, 0#64, r, [], false, 0, 0#5⟩
def zeros4 : Vector Word 4 := Vector.replicate 4 0#64
def withMat (os : List MatOp) : State := withCore idle fun c => { c with matQueue := os }

theorem witness_MatrixIssue : (∀ r ∈ matrixRows 1#5 2#5, ready r.1 idle = true) ∧ ready (.mdrain 1 2) idle = true ∧
    ready (.mwait 3 1 15) idle = true ∧ admitted (idle.core 0) 7 1 ∧
    ¬ admitted { idle.core 0 with matQueue := List.replicate 512 (matOp 0 8 0#64 0#64 zeros4) } 7 1 := by
  unfold admitted
  decide +kernel
theorem witness_MatrixRuns :
    (∀ o ∈ [matOp 1 0x01 0x100400#64 0x100000#64 #v[0x0800000000100000#64, 16#64, 0#64, 0#64], matOp 1 0x08 0x0000000000204000#64 0#64 zeros4,
        matOp 1 0x09 0x1400000000204000#64 0#64 zeros4, matOp 1 0x0A 0x100#64 0#64 zeros4, matOp 1 0x10 0#64 0#64 zeros4],
      headStarts (withMat [o]) 0 o ∧ opHalts (withMat [o]) o.key = false) ∧ Memory.wf idle.mem ∧
    (let o := matOp 1 0x01 0x100400#64 0x100000#64 #v[0x0800000000100000#64, 16#64, 0#64, 0#64]
     ¬ banksHeld (withMat [o]) 0 (gathBanks (withMat [o]) 0 o) ∧
       banksHeld (threadHolds (withMat [o])) 0 (gathBanks (threadHolds (withMat [o])) 0 o)) ∧
    hereFits 0 0x0000000000204000#64 2 (4 * tileM 0 * tileNS 0) [0, 5] ∧ ¬ tagFits 0x0010000000204000#64 ∧
    hereFits 0 0x100#64 0 8 [0] ∧ 0x100 + 2 * (tileNS 0 + tileM 0 / 64) ≤ bufferSize 0 0 ∧
    hereFits 0 0x100400#64 1 8 [0] ∧ (0x100000#64).toNat / 2 ^ 16 = 16 ∧
    (∀ t < tileM 0 / 4, (readBytes idle.mem (hereByte 0 0x100400#64 (2 * t)) 2) = 0) ∧
    hereFits 0 0x1400000000204000#64 2 (walkBytes 5) [2, 3, 4, 5, 7] := by
  unfold headStarts hereFits tagFits banksHeld
  decide +kernel

/-- A quad that has arrived, with the operands of four mma.i8 of eight elements. -/
def gangOf (c : Nat) : MatOp := { matOp (2 * c) 2 0#64 0#64 zeros4 with key := 8 * c }
def mmaOf (c : Nat) : MatOp := { matOp (2 * c + 1) 0x13 0x200000#64 0x10000#64 #v[0#64, 0#64, 0x1C00000000000000#64, 8#64] with key := 8 * c }
def gangCore (c : Nat) : Core :=
  { Core.reset with
    heldInReset := false, matQueue := [gangOf c, mmaOf c], arrived := true, latchValid := true, latchType := 7, latchKlen := 8
    latchRows := List.replicate 32 0x0101010101010101 }
def ganged : State := (upTo 4).foldl (fun s c => s.setCore c (gangCore c)) idle

theorem witness_MatrixGang : coresOfQuad 0 0 = [0, 1, 2, 3] ∧
    (∀ c ∈ coresOfQuad 0 0, (ganged.core c).matQueue = [gangOf c, mmaOf c] ∧ (gangOf c).id ≠ (mmaOf c).id ∧ (mmaOf c).started = false ∧
      (ganged.core c).arrived = true ∧ (mmaOf c).cmd = 0x13 ∧ (ganged.core c).latchRows.length = tileM 0 / 4 ∧
      hereFits c (mmaOf c).a 2 (4 * tileM 0 * tileNS 0) [0] ∧ hereFits c ((mmaOf c).reg 2) 0 1 [7] ∧ (mmaOf c).b.toNat < 2 ^ 17 ∧
      (mmaOf c).b.toNat % 2 ^ 16 % 8 = 0 ∧ 0 ≤ ((mmaOf c).reg 3).toInt ∧ ((mmaOf c).reg 3).toInt < 2 ^ 39 ∧
      ((mmaOf c).reg 2).toNat % 2 ^ 20 + (mmaOf c).b.toNat % 2 ^ 16 + 8 + (tileNS 0 - 1) * ((mmaOf c).reg 3).toInt.toNat ≤ bufferSize c 0) ∧
    (let s := withMat [matOp 1 2 0#64 0#64 zeros4, matOp 2 0x13 0#64 0#64 zeros4]
     (s.core 0).arrived = false ∧ (∀ a ∈ (s.thr 0).outst, a.aid ∉ (matOp 1 2 0#64 0#64 zeros4).fork) ∧
     ∀ c ∈ coresOfQuad 0 0, (s.core c).residence = .free ∨ (s.core c).ctxAsid = (s.thr 0).asid) := by
  unfold hereFits tagFits
  decide +kernel
/-- The quad's arrivals at the end of a ck, and what fails: a quarter of another kind, and one that is not valid. -/
theorem witness_MatrixGang_close : ganged.due = [] ∧ (0, ganged.core 0) ∈ ganged.cores ∧ coreLives ganged 0 (ganged.core 0) = true ∧
    (∀ c ∈ coresOfQuad 0 0, sliceFits c 8 (mmaOf c) ∧ (ganged.core c).latchType = 7 ∧ (ganged.core c).latchKlen = 8) ∧
    7 ∈ formTypes 0x13 ∧ 2 ∉ formTypes 0x13 ∧ ({ gangCore 0 with latchValid := false }).latchValid = false := by
  unfold sliceFits hereFits tagFits
  decide +kernel
/-- An mgang whose next entry is an mgath. -/
theorem witness_MatrixGang_order :
    let l := [matOp 1 2 0#64 0#64 zeros4, matOp 2 1 0x100400#64 0x100000#64 zeros4]
    ((withMat l).core 0).matQueue = l ∧ (withMat l).thr 0 = idle.thr 0 ∧ (l.map MatOp.cmd) = [2, 1] := by decide
theorem witness_MatrixCompletes_joint :
    let m := fun c => { mmaOf c with started := true }
    let s := (upTo 4).foldl (fun s c => s.setCore c { gangCore c with matQueue := [m c] }) idle
    0 ∈ coresOfQuad 0 0 ∧ ∀ c ∈ coresOfQuad 0 0, (s.core c).matQueue = [m c] ∧ (m c).cmd = 0x13 ∧ (m c).err = 0 := by decide +kernel
theorem witness_MatrixGroups :
    let w : Window := { win 4 3#5 0 .pending with event := true, word := encode (.mwait 3 1 15), a := 1#64 }
    let s := withWindows idle [w]
    let u := withWindows (withMat [matOp 1 8 0#64 0#64 zeros4]) [w]
    (s.thr 0).windows = [w] ∧ (s.thr 0).held = [] ∧ (s.thr 0).frozen = [] ∧ w.count = 0 ∧ (∀ o ∈ (s.core 0).matQueue, o.key ≠ 0) ∧
    ∃ o ∈ (u.core 0).matQueue, o.key = 0 := by decide
theorem witness_MatrixCompletes : ∀ o ∈ [{ matOp 1 8 0#64 0#64 zeros4 with started := true },
      { matOp 1 9 0x1400000000204000#64 0x800000#64 zeros4 with started := true, err := 8 }],
    ((withMat [o]).core 0).matQueue = [o] ∧ o.started = true ∧ o.err ≠ 6 := by decide

/-- R91: an integer accumulator saturates; 127 × 127 fills it past its end. -/
theorem test_int_saturates : intGroup 0x7F 0x7F 0x7FFFFFF0 [0] = (0x7FFFFFFF, flagOF) := by decide +kernel
/-- R249: ones times nothing leave an accumulator; 1.0 × 2.0 + 0.5 in BF16 is 2.5 in FP32. -/
theorem test_float_group : (floatGroup 4 4 0x3F80 0x4000 0x3F000000 [0]).1 = 0x40200000 := by decide +kernel
/-- R246: mzero clears the tile and ends without an error. -/
theorem test_mzero_ends : (match exec (.matrixCmdStart 0) (withMat [matOp 1 0x08 0x0000000000300001#64 0#64 zeros4]) with
    | .next t => (t.core 0).matQueue.map fun o => (o.started, o.err)
    | _ => []) = [(true, 2)] := by decide +kernel

/-! The Meadow (12). -/

/-- Plot 0 of die 0, of the running context. -/
def onPlot (s : State) (x : Plot) : State := s.setPlot 0 0 { x with valid := true, asid := 1#16 }
def grown : Plot := { Plot.reset with state := .running }
def askPlot (op : MeadowOp) (x y : Word) : MeadowReq :=
  { key := 0, asid := 1#16, die := 0, plot := 0, op := op, a := x, b := y, writes := (0, 0), alone := false }

theorem witness_MeadowIssue :
    let s := onPlot idle Plot.reset
    (∀ r ∈ meadowRows 3#5 1#5 2#5, ready r.1 s = true) ∧ ready (.asettle 3 1 2 15) s = true ∧ ready (.asample 3 1 2 15) s = true ∧
    owner s 0 0 ∧ ¬ owner idle 0 0 ∧ meadowOperands .cfg 0#64 0xFFFF#64 = true ∧ meadowOperands .coef 0x10000100#64 0xFFF0001#64 = true ∧
    meadowOperands .coef 0#64 0x1000#64 = false ∧ meadowOperands .scale 7#64 0x36#64 = true ∧ meadowOperands .scale 0#64 7#64 = false ∧
    meadowOperands .run 0x1000#64 0#64 = true ∧ meadowOperands .hold 8#64 0#64 = false ∧ meadowOperands (.stat 3) 0x30#64 0#64 = true ∧
    ((onPlot idle { Plot.reset with satpend := true }).plot 0 0).satpend = true := by
  dsimp only
  unfold owner contextOwns
  decide
/-- Each state of a plot; no command of the thread on its way; a block, and a retired die. -/
theorem witness_MeadowIssue_states : (∀ st ∈ [PlotState.idle, .running, .held, .saturated],
      ((onPlot idle { Plot.reset with state := st }).plot 0 0).state = st) ∧
    (let s := onPlot idle Plot.reset
     s.work = [] ∧ (s.die 0).blocked = false ∧ s.dieRetired 0 = false ∧ { s with dieret := 1#4 }.dieRetired 0 = true ∧
     ((s.setDie 0 { s.die 0 with blocked := true }).die 0).blocked = true) := by decide
theorem witness_MeadowApplies :
    let s := onPlot idle grown
    let t := withThread s fun t => { t with hold := .answer 3#5 }
    (∀ op ∈ [MeadowOp.settle 4, .sample 4, .cfg, .coef, .scale, .run, .hold, .reset, .stat 3#5], applies t (askPlot op 0#64 0xFFFF#64)) ∧
    (t.thr 0).hold = .answer 3#5 ∧ fieldsFit (t.plot 0 0) .cfg 0#64 0xFFFF#64 = true ∧
    fieldsFit (t.plot 0 0) .cfg 0x01FF0300#64 0#64 = false ∧ ¬ contextOwns idle 1#16 0 0 ∧
    ((s.setDie 0 { s.die 0 with blocked := true }).die 0).blocked = true ∧ { s with dieret := 1#4 }.dieRetired 0 = true ∧
    plotWrites s 0 0 ≠ (1, 0) := by
  dsimp only
  unfold applies contextOwns
  decide
theorem witness_DominanceMargin :
    let x := { Plot.reset with routes := [(0, (1, 1)), (1, (2, 1))], codes := [(0, 0x800), (1, 0x100)] }
    (List.range 64).filter (fun i => x.routes.any fun r => r.2.1 == i || r.2.2 == i) = [1, 2] := by decide +kernel
theorem witness_SampleBound :
    let x := { grown with state := .held, settle := 0, dmarg := 5, inUse := [3], calFault := false, stale := false }
    applies (onPlot idle x) (askPlot (.sample 4) 0#64 3#64) ∧
    ¬ (tabGet 0 x.states 3 < -(2 ^ 32) ∨ 2 ^ 32 - 2 ^ 19 < tabGet 0 x.states 3 ∨ x.state ≠ .held ∨ x.settle ≠ 0 ∨ x.dmarg ≤ 0 ∨ 3 ∉ x.inUse ∨ x.calFault = true ∨ x.stale = true ∨
      10000000 < (idle.time - x.freeze).toNat) := by
  dsimp only
  unfold applies contextOwns
  decide
/-- One integrator that decays: K_11 = -1, with a constant input of 1/8. -/
theorem witness_SettledState :
    let x : Plot := ({ Plot.reset with routes := [(0, (1, 1)), (1, (0xFE, 1))], codes := [(0, 0x800), (1, 0x100)] } : Plot).recomputed
    x.recomputed = x ∧ 0 < x.dmarg ∧ coupling x 1 0xFE = 256 := by decide +kernel
theorem witness_PlotEvents :
    let w : PlotWaiter := ⟨0, 4, 0x0000000100020005#64, 2, 1000⟩
    let x := { grown with waiters := [w] }
    let s := onPlot idle x
    (s.plot 0 0).state = .running ∧ (s.plot 0 0).waiters = [w] ∧ w.word.toNat / 2 ^ 16 % 2 ^ 16 ≤ w.run ∧
    1000 * (w.word.toNat / 2 ^ 32 % 2 ^ 20) ≤ w.edges ∧ (s.plot 0 0).join = (0x80000001#64).getLsbD 30 ∧
    ((s.setDie 0 { s.die 0 with blocked := true }).die 0).blocked = true := by decide

/-- R262: K_11 = -1 and K_12 = 1/8 leave a margin of 2048 - 256; with K_12 = 1/2 and -1 on its own it is 1024. -/
theorem test_margin : ({ Plot.reset with
    routes := [(0, (1, 1)), (1, (2, 1)), (2, (2, 2))], codes := [(0, 0x800), (1, 0x100), (2, 0x800)] } : Plot).recomputed.dmarg = 1792 ∧
    ({ Plot.reset with
      routes := [(0, (1, 1)), (1, (2, 1)), (2, (2, 2))], codes := [(0, 0x800), (1, 0x400), (2, 0x800)] } : Plot).recomputed.dmarg = 1024 := by
  decide +kernel
/-- R271: an asettle on an idle plot ends with NOTRUN; arun on an idle plot runs it. -/
theorem test_asettle_idle : (match exec (.meadowApply (askPlot (.settle 4) 0#64 0x100010001#64))
      (onPlot (withWindows idle [win 4 3#5 5 .pending]) Plot.reset) with
    | .next t => (t.thr 0).windows.map Window.arrival
    | _ => []) = [.ready (.one 3#64)] := by decide +kernel
theorem test_arun : (match exec (.meadowApply (askPlot .run 0#64 0#64)) (withThread (onPlot idle Plot.reset) fun t => { t with hold := .answer 10#5 }) with
    | .next t => some ((t.plot 0 0).state, (t.plot 0 0).settle)
    | _ => none) = some (.running, 15) := by decide +kernel

/-! Links and reduction servers (21). -/

/-- A reduction context of core 0 of two children with an INT64 sum. -/
def red0 : RedCtx := { RedCtx.reset with on := true, asid := 1#16, epoch := 7#16, cfg := #v[0x80#64, 0#64, 0x1000#64, 1#64, 3#64] }
def partOf (child : Nat) (e : BitVec 16) (v : List Word) : Partial :=
  { src := 0, core := 0, asid := 1#16, ctx := 2, child := child, epoch := e, v := v }
def onRed (x : RedCtx) : State := idle.setRed 0 2 x

theorem witness_LinkResults :
    (∀ i ∈ ([.lstat 3 1, .rpart 1 2, .grpq 3 1 15] : List Instr), ready i idle = true) ∧ ready (.lturn 1 2) idlePriv = true ∧
    targetCore idle 0#64 = some 0 ∧ targetCore idle 0x000DA50000000023#64 = some (256 * 2 + 16 * 13 + 5) ∧
    targetCore idle 0x100#64 = none ∧ targetCore idle 0x000FD00000000000#64 = none ∧ outbound idle 0 3 < 8 := by decide
theorem witness_ServerSetup :
    serverFits red0.cfg 0x12#64 0x00070001#64 ∧ ¬ serverFits red0.cfg 0x40#64 0x00070001#64 ∧ ¬ serverFits red0.cfg 0x12#64 0x00070000#64 ∧
    ready (.rsvr 1 2) idlePriv = true ∧ ((onRed red0).red 0 2).on = true ∧
    (0xFFFF#16 &&& (red0.cfg[4]).setWidth 16 = (red0.cfg[4]).setWidth 16) ∧ 1#16 &&& (red0.cfg[4]).setWidth 16 ≠ (red0.cfg[4]).setWidth 16 := by
  unfold serverFits
  dsimp only
  and_intros <;> decide
/-- A partial that is dropped, one that waits for its sibling, one that is the last; to a root and to a parent. -/
theorem witness_PartialSums :
    let s := onRed { red0 with arrived := 2#16, bufs := [(1, List.replicate 6 5#64)] }
    let p := partOf 0 7#16 (List.replicate 6 1#64)
    p.core < 1024 ∧ rowOf p.core < 14 ∧ s.dieRetired (dieOf p.core) = false ∧ (s.core p.core).health = .good ∧ p.child < 16 ∧
    (s.red 0 2).on = true ∧ (s.red 0 2).asid = p.asid ∧ p.epoch = (s.red 0 2).epoch ∧ ((s.red 0 2).cfg[4].setWidth 16).getLsbD p.child = true ∧
    (s.red 0 2).arrived.getLsbD p.child = false ∧ (s.red 0 2).arrived ||| BitVec.ofNat 16 (2 ^ p.child) = (s.red 0 2).cfg[4].setWidth 16 ∧
    (s.red 0 2).cfg[0].toNat / 2 ^ 4 % 16 = 8 ∧ (s.red 0 2).cfg[1].getLsbD 63 = false ∧ (partOf 0 8#16 []).epoch ≠ (s.red 0 2).epoch ∧
    ((onRed red0).red 0 2).arrived ||| BitVec.ofNat 16 (2 ^ p.child) ≠ red0.cfg[4].setWidth 16 ∧
    ({ s.core 0 with server := [.partialArrival p] }).server = .partialArrival p :: [] ∧ coreOf 7 = 0 ∧ slotOf 7 = 7 ∧ s.work = [] := by decide
/-- A sum for a parent of the own module, of another one, and one whose outbound queue is full. -/
theorem witness_PartialSums_parent :
    let own : Word := BitVec.ofNat 64 (2 ^ 63 + Config.ownModule * 2 ^ 52)
    let other : Word := BitVec.ofNat 64 (2 ^ 63 + (Config.ownModule + 1) % 2 ^ 10 * 2 ^ 52)
    (own.toNat / 2 ^ 52 % 2 ^ 10 = Config.ownModule % 2 ^ 10) ∧ (other.toNat / 2 ^ 52 % 2 ^ 10 = (Config.ownModule + 1) % 2 ^ 10) ∧
    outbound { idle with work := List.replicate 8 (.partialArrival (partOf 0 7#16 [])) } 0 3 = 8 := by
  refine ⟨?_, ?_, by decide +kernel⟩
  · simp only [BitVec.toNat_ofNat]
    omega
  · simp only [BitVec.toNat_ofNat]
    omega
theorem resultPlace_mem (s : State) (m : List Host.Cell) (core : Nat) (asid : BitVec 16) (ea : Nat) (h : 2 ^ 51 ≤ ea) :
    resultPlace { s with mem := m } core asid ea = resultPlace s core asid ea := by
  simp only [resultPlace, h, if_true]
  rfl
/-- Nothing is mapped; and a result in the own core's A-buffer, for all seven stores. -/
theorem witness_RootResult :
    resultPlace idle 0 1#16 0x1000 = none ∧
    ∀ (m : List Host.Cell), ∃ q : Place, q.cell = bufferCell 0 1 0 ∧ resultPlace { idle with mem := m } 0 1#16 0x8004000000000 = some q := by
  refine ⟨by decide +kernel, fun m => ⟨⟨bufferCell 0 1 0, 0, true, true, 2#2⟩, rfl, ?_⟩⟩
  rw [resultPlace_mem _ _ _ _ _ (by decide)]
  decide +kernel
/-- A result on the own die, and one whose home is on die 1. -/
theorem witness_RootResult_far : hops 0 0 = [] ∧ hops 0 256 ≠ [] ∧
    (resultPlace (idle.setThr 2048 (idle.thr 0)) 0 1#16 0xA004000000000).map Place.home = some 256 ∧ idle.work = [] ∧
    (∃ k e l, .rootResultWrite 0 k e l ∈ { idle with work := [.rootResultWrite 0 1 0#16 []] }.work) := by
  refine ⟨by decide, by decide, by decide +kernel, rfl, ⟨_, _, _, .head _⟩⟩
theorem witness_LaneTurns :
    let x := (idle.setPort 0 0 { idle.port 0 0 with queue := [7] }).port 0 0
    x.usable = 255#8 ∧ (idle.port 1 1).usable = 255#8 ∧ x.failing = 0#8 ∧ idle.time ∉ x.history ∧
    x.excl = false ∧ 1 ≤ x.out ∧ x.out ≤ 7 ∧ x.queue = [7] ∧
    (x.history.filter fun t => decide (t.toNat < idle.time.toNat ∧ idle.time.toNat < t.toNat + 1000)).length < 2 ∧
    (let s := { idle with time := 1001000#64 }
     2 ≤ ([1000250#64, 1000500#64].filter fun (t : Word) => decide (t.toNat < s.time.toNat ∧ s.time.toNat < t.toNat + 1000)).length) := by
  decide
/-- A class-0 flit that waits at port 0 of die 0 since 0 ns, and the far end's. -/
def waiting (s : State) (h : Nat × Nat) : State := { s with
  transit := [⟨.presumeRelease 0#22 false 0, [h], 0, 1, 0, 1, some 0#64⟩] }
theorem witness_LaneTurns_waits : classWaits (waiting idle (0, 0)) 0 0 0 ∧ ¬ classWaits idle 0 0 0 ∧
    longWait { waiting idle (0, 0) with time := 4001#64 } 0 0 ∧ ¬ longWait { waiting idle (0, 0) with time := 4000#64 } 0 0 ∧
    classWaits (waiting idle (farEnd 0 0)) (farEnd 0 0).1 (farEnd 0 0).2 0 := by
  unfold classWaits longWait flitWaits
  refine ⟨⟨_, ⟨.head _, rfl, rfl⟩, rfl⟩, fun ⟨_, ⟨h, _⟩, _⟩ => List.not_mem_nil h, ⟨_, _, ⟨.head _, rfl, rfl⟩, rfl, by decide⟩,
    fun ⟨x, t, ⟨h, _⟩, g, l⟩ => ?_, ⟨_, ⟨.head _, rfl, rfl⟩, rfl⟩⟩
  obtain rfl := List.mem_singleton.mp h
  obtain rfl := Option.some.inj g
  exact absurd l (by decide)
/-- A class with room and one without; a return that repairs; permits that outgrow their minima. -/
theorem witness_Permits :
    ∀ z ∈ [idle.port 1 1, idle.port 0 12],
    z.held.length = 5 ∧ z.sent.length = 5 ∧ z.capacity = 1024 ∧ z.ret.length = 5 ∧ z.occ.length = 5 ∧ z.last.length = 5 ∧
    z.returned = none ∧ z.replay = [] ∧ z.held.sum ≤ z.capacity - 64 := by decide
/-- A port that is up and one that is not; a clear way, and one behind a discarded flit; an event that waits for a class-0 one. -/
theorem witness_Permits_ways : maySend { Port.reset with up := true } 1 ∧ ¬ maySend Port.reset 1 ∧ wayClear idle 0 0 ∧
    ¬ wayClear (idle.setPort 0 0 { idle.port 0 0 with replay := [1] }) 0 0 ∧
    (∃ x, flitWaits (waiting idle (0, 0)) 0 0 x ∧ x.cls = 0 ∧ streamHead 0 [] x.event = x.event) ∧
    (∀ x ∈ (waiting idle (0, 0)).transit, x.event ≠ .auditFlitSend 0 0) := by
  unfold maySend wayClear flitWaits
  refine ⟨by decide, by decide, ⟨by decide, fun _ h => absurd h List.not_mem_nil⟩, fun h => absurd h.1 (by decide), ?_, ?_⟩
  · exact ⟨_, ⟨.head _, rfl, rfl⟩, rfl, rfl⟩
  · intro x h
    obtain rfl := List.mem_singleton.mp h
    exact Event.noConfusion

/-- R439, the worked turns of port 0, boundary by boundary: OUT after each, with the oldest request. -/
theorem test_lane_turns :
    let quiet : Demand := ⟨false, false, false, false, false, false⟩
    let at' := fun (t : Nat) (h : List Nat) (out : Nat) (q : List Nat) => { idle.setPort 0 0 { idle.port 0 0 with
      out := out, queue := q, history := h.map (BitVec.ofNat 64), turns := BitVec.ofNat 16 h.length } with time := BitVec.ofNat 64 t }
    let after := fun (s : State) (w : Demand) => ((turnTest s 0 0 w).port 0 0).out
    after (at' 1000250 [] 4 [7]) quiet = 7 ∧ after (at' 1000500 [1000250] 7 [2]) quiet = 2 ∧
    after (at' 1000750 [1000250, 1000500] 2 [6]) quiet = 2 ∧ after (at' 1001000 [1000250, 1000500] 2 [6]) quiet = 2 ∧
    after (at' 1001250 [1000250, 1000500] 2 [6]) quiet = 6 ∧ after (at' 1005250 [1001250] 6 []) quiet = 6 ∧
    after (at' 1005500 [1001250] 6 []) { quiet with longIn := true } = 4 := by decide +kernel
/-- The same run: lstat at T + 800. -/
theorem test_lstat_word : lstatWord { Port.reset with out := 2, queue := [6], up := true, tlast := 1000500#64 } false false =
    0x20500000000F4434#64 := by decide
/-- R448, R449: the last partial of an INT64 sum leaves 6 in each doubleword and opens the next epoch. -/
theorem test_partial_completes :
    (match exec (.partialArrival (partOf 0 7#16 (List.replicate 6 1#64))) (onRed { red0 with arrived := 2#16, bufs := [(1, List.replicate 6 5#64)] }) with
    | .next t => some ((t.red 0 2).epoch, (t.red 0 2).arrived, (t.core 0).server.head?)
    | _ => none) = some (8#16, 0#16, some (.rootResultWrite 0 2 7#16 (List.replicate 6 6#64))) := by decide +kernel
/-- R455: rsvr of context 16, bit 6 set, is refused. -/
theorem test_rsvr_operand : trapOf (exec (.rsvr 1 2) idle) = some (.trapped, 0x1000#64, 0x105#64, 0xC0114020#64) := by decide

/-! Kernels (14), groups and messages (15). -/

/-- A quad that hosts context 1, thread 0 in group 1 of die 0. -/
def quadCtx : State :=
  ([1, 2, 3].foldl (fun s c => s.setCore c { Core.reset with heldInReset := false, residence := .loaded, ctxAsid := 1#16 })
    (withThread idle fun t => { t with group := 1#16, gen := 5#8 })).setGroup 1#16
    { Group.reset with state := .active, used := true, asid := 1#16, live := 1 }
/-- A kernel of two threads on one quad, and its record. -/
def pair : KernelEntry := { KernelEntry.none with entry := 0x2000#64, slots := 1, quads := 1, threads := 2, frame := 64 }
def recordOf (x : KernelState) : KernelRec := { KernelRec.reset with used := true, asid := 1#16, kernel := pair, state := x, args := [9#64] }
def queued (x : KernelRec) : State := quadCtx.setRecord 0 4 x
def bindOf : Bound := { id := 3, asid := 1#16, kernels := [pair], records := [0x40], sections := [], globals := [], uses := [] }

theorem witness_LaunchResults :
    let s := { paged (queued KernelRec.reset) with bound := [bindOf] }
    (∀ i ∈ ([.launch 3 1 2 15, .tlaunch 3 1 2 15] : List Instr), ready i idle = true) ∧
    launchFits s 0x40#64 0#64 ∧ ¬ launchFits s 0x20#64 0#64 ∧ ¬ launchFits s 0x40#64 0x100000#64 ∧ accessesDone s 0 = true ∧
    boundRecord s 1#16 0x40 = some bindOf ∧ boundRecord s 1#16 0x80 = none ∧ guestOwns s 0 1#16 = true ∧ (s.record 0 0).used = false ∧
    bindOf.kernels[0]? = some pair ∧ (∃ n ∈ kernelNodes pair, nodeInPartition s 1#16 0 n = true) ∧
    s.dieRetired 0 = false := by
  dsimp only
  unfold launchFits
  decide +kernel
/-- A sheaf whose kernel runs, one whose code a thread runs, one that another uses, and one that nothing holds; no sheaf at all. -/
theorem witness_BindsAnswer :
    let s := { quadCtx with bound := [bindOf] }
    let r := (queued { recordOf .running with record := 0x40 }).record 0 4
    sheafOk [] = false ∧ s.bound = [] ++ bindOf :: [] ∧ bindOf.asid = 1#16 ∧ (s.die 0).pool = [] ∧ bindOf.sections = [] ∧
    bindOf.id ∉ bindOf.uses ∧ savedRecords s 1#16 = [] ∧
    (r.used = true ∧ r.asid = 1#16 ∧ r.record ∈ bindOf.records ∧ r.state ≠ .done ∧ r.state ≠ .faulted) ∧
    ((0, quadCtx.thr 0) ∈ s.threads ∧ (s.thr 0).sstate ≠ .empty ∧ (s.thr 0).sstate ≠ .ended ∧ (s.thr 0).asid = 1#16 ∧
      ∃ x ∈ [(1, 0x1000, 4)], x.1 = 1 ∧ x.2.1 ≤ (s.thr 0).pc.toNat ∧ (s.thr 0).pc.toNat < x.2.1 + x.2.2) ∧
    bindOf.id ∈ ({ bindOf with id := 4, uses := [3] } : Bound).uses := by decide +kernel
/-- A slot whose trap stands in the code of the sheaf; and a saved record whose pc does. -/
theorem witness_BindsAnswer_saved :
    (let t := { quadCtx.thr 0 with sstate := .trapped, pc := 0x9000#64, epc := 0x1000#64 }
     t.sstate = .trapped ∧ ∃ x ∈ [(1, 0x1000, 4)], x.1 = 1 ∧ x.2.1 ≤ t.epc.toNat ∧ t.epc.toNat < x.2.1 + x.2.2) ∧
    (let s := { (quadCtx.setCore 0 { quadCtx.core 0 with
        tlb := [bootEntry], residence := .free, diverts := Core.reset.diverts.setIfInBounds 0 ⟨true, 1#16, 0x20#36⟩ }) with
        mem := writeWord (writeWord (writeWord [] (2 ^ 52 + 0x200000) 0x0001000104000001#64) (2 ^ 52 + 0x200100) 0x8000000100000000#64) (2 ^ 52 + 0x200108) 0x1000#64 }
     savedRecords s 1#16 = [(1#16, 0, 2 ^ 52 + 0x200100)] ∧ (readWord s.mem (2 ^ 52 + 0x200100 + 8)).toNat = 0x1000) := by
  decide +kernel
theorem witness_KernelWords : ready (.kstat 3 1) idle = true ∧ ready (.kwait 3 1 15) idle = true ∧
    ((queued (recordOf .running)).record 0 4).used = true ∧ ((queued (recordOf .running)).record 0 5).used = false := by decide
theorem witness_RecordsReleased :
    let s := queued (recordOf .timedWait)
    let t := queued { recordOf .awaiting with await := some 64 }
    (s.record 0 4).used = true ∧ (s.record 0 4).state = .timedWait ∧ (s.record 0 4).start.toNat ≤ s.time.toNat ∧
    s.time.toNat < ({ recordOf .timedWait with start := 5#64 }).start.toNat ∧
    promiseServed t (t.record 0 4) 64 = true ∧ promiseServed { t with poison := [1] } (t.record 0 4) 64 = false ∧
    (t.record 0 4).state = .awaiting ∧ (t.record 0 4).await = some 64 ∧
    (∀ p < 4, (readWord (writeWord [] 64 (BitVec.ofNat 64 (p * 2 ^ 61))) 64).toNat / 2 ^ 61 = p) ∧ (s.record 0 5).used = false := by
  decide +kernel
/-- The first node of the kernel's cluster fits, and no group is in use but group 1. -/
theorem witness_Placement :
    let s := queued (recordOf .pending)
    (s.record 0 4).used = true ∧ (s.record 0 4).state = .pending ∧ (kernelNodes pair).head? = some (0, 0) ∧
    ((List.range 256).filter fun c => rowOf c < 14 ∧ colOf c < 16 ∧ 0 ≤ quadOf c ∧ quadOf c < 0 + 2 ^ 0) = [0, 1, 2, 3] ∧
    (∀ c ∈ [0, 1, 2, 3], inPartition s 1#16 c = true ∧ (s.core c).health = .good ∧ (s.core c).ctxAsid = 1#16 ∧
      ((s.core c).residence = .loaded ∨ (s.core c).residence = .running) ∧ 1 ≤ ((List.range 7).filter (slotOpen s c)).length) ∧
    (∀ y ∈ (s.die 0).pool, y.2.holds = false) ∧ (tabGet Group.reset (s.die 0).groups 0).state = .free := by decide +kernel
theorem witness_ThreadsCreated :
    let x := { recordOf .placing with node := some (0, 0), group := 1#16 }
    let s := queued x
    (s.record 0 4).state = .placing ∧ (s.record 0 4).node = some (0, 0) ∧ (s.record 0 4).create.toNat ≤ s.time.toNat ∧
    pair.threads ≤ pair.slots * (nodeCores 0 (0, 0)).length ∧ 1 ≤ pair.slots ∧
    (∀ c ∈ nodeCores 0 (0, 0), hostsResidence s 1#16 c = true ∧ 1 ≤ ((List.range 7).filter (slotOpen s c)).length) ∧
    s.time.toNat < ({ x with create := 5#64 }).create.toNat := by decide +kernel
theorem witness_GroupEnds :
    let x := { Group.reset with state := .draining, used := true, asid := 1#16, kernel := some 4, done := true }
    let s := ((queued { recordOf .draining with group := 2#16 }).setGroup 2#16 x)
    s.groupHeld 2#16 = true ∧ (s.group 2#16).state = .draining ∧ (s.group 2#16).done = true ∧ groupQuiet s 2#16 = true ∧
    (s.record 0 4).used = true ∧ (s.record 0 4).group = 2#16 ∧ (s.record 0 4).state = .draining ∧ x.letters = [] ∧
    s.groupHeld 3#16 = false ∧ ({ x with done := false }).done = false := by decide +kernel
/-- One event of an ACTIVE group, and two; a group that is over at an edge. -/
theorem witness_GroupTakes : (∀ l ∈ [[], [GroupAct.exit], [.loss 2#16 3], [.exit, .loss 2#16 3]],
      let s := quadCtx.setGroup 1#16 { quadCtx.group 1#16 with acts := l }
      s.groupHeld 1#16 = true ∧ (s.group 1#16).state = .active ∧ (s.group 1#16).kernel = none ∧ (s.group 1#16).acts = l) ∧
    (let s := quadCtx.setGroup 2#16 { Group.reset with state := .draining, used := true, asid := 1#16, done := true }
     (∀ y ∈ (s.die 0).groups, y.2.acts = []) ∧ 2#16 ∈ dieGroups s 0 ∧ (s.group 2#16).done = true ∧ groupQuiet s 2#16 = true) := by
  decide +kernel
theorem witness_SpawnResults :
    ready (.spawn 3 1 2 15) quadCtx = true ∧ spawnFits 0x2000#64 0x201#64 ∧ ¬ spawnFits 0x2002#64 0x201#64 ∧ ¬ spawnFits 0x2000#64 0x401#64 ∧
    accessesDone quadCtx 0 = true ∧ rowOf 0 < 14 ∧
    (let cand := (scopeFrom 0 2).filter fun c => (quadCtx.core c).health = .good ∧ (quadCtx.core c).ctxAsid = 1#16 ∧
      ((quadCtx.core c).residence = .loaded ∨ (quadCtx.core c).residence = .running)
     dealt quadCtx cand 2 = [1, 8] ∧ (dealt quadCtx cand 64).length < 64) ∧
    (tabGet Group.reset (quadCtx.die 0).groups 0).state = .free := by
  unfold spawnFits
  decide +kernel
theorem witness_ExitEnds : ready .exit quadCtx = true ∧ quadCtx.groupHeld (quadCtx.thr 0).group = true ∧
    (quadCtx.group 1#16).state = .active ∧ (quadCtx.group 1#16).live ≤ 1 ∧ idle.groupHeld (idle.thr 0).group = false := by decide
theorem witness_GroupResults : ready (.kill 3 1 2) quadCtx = true ∧ ready (.gstat 3 1) quadCtx = true ∧
    fieldContext quadCtx 0 = some 1#16 ∧ fieldContext quadCtx 1 = none ∧ fieldContext idleBarn 1 = some 1#16 ∧
    nameFits 0x60805 = true ∧ nameFits 0xE0000 = false ∧ nameFits 0xF0001 = false := by decide
theorem witness_SendResults : ready (.send 1 2) quadCtx = true ∧ ready (.send 1 2) idleBarn = true ∧ (0x02061103#64).toNat / 2 ^ 24 % 8 = 2 ∧
    nameFits 0x61103 = true ∧ outbound quadCtx 0 2 < 8 ∧
    settleHere quadCtx 0 (bufferCell 0 1 0) 48 = some (takesBanks quadCtx 0 (bufferCell 0 1 0) 48) ∧
    settleHere (engineHolds quadCtx) 0 (bufferCell 0 1 0) 48 = none := by
  decide
/-- A system core whose first translation maps doublewords of its die: loads that need entries, and a journal that is full. -/
theorem witness_SystemSends :
    let s := paged idleBarn
    let rs := [{ ask (.load false) 0 none with key := 8192 }]
    (∀ j < 8, (match translated s 1024 0#16 (0x1000 + 8 * j) kindLOAD (some false) with | .at p => p.cell | _ => 0) = 2 ^ 52 + 0x1000 + 8 * j ∧
      (match translated s 1024 0#16 (0x1000 + 8 * j) kindSTORE (some false) with | .at p => p.cell | _ => 0) = 2 ^ 52 + 0x1000 + 8 * j) ∧
    (takeEntries s rs).isSome = true ∧
    takeEntries (withCore idleBarn fun c => { c with journal := (upTo 64).map fun e => (e, { freeEntry with busy := true }) }) rs = none ∧
    refusal idle (ask (.load false) 0 none) = none := by decide +kernel
theorem witness_RecvWaits : ready (.recv 3 1 2 15) quadCtx = true ∧ ready (.recv 3 1 2 15) idleBarn = true ∧
    (∀ x ∈ [1, 7, 0x27], x < 64 ∧ x / 8 % 4 = 0 ∧ x ≠ 0) := by decide
/-- A record that is DONE, one that runs; an entry of class 2 for the thread, and a letter of its group. -/
theorem witness_KwaitRecvEvents :
    let w : Window := { win 4 3#5 0 .pending with event := true, word := encode (.kwait 3 1 15), a := 4#64 }
    let r : Window := { win 4 3#5 0 .pending with event := true, word := encode (.recv 3 1 2 15), a := 0x24#64, b := 0x100000#64 }
    let m : Msg := ⟨1, 1#16, 0x0000000202060805#64, 0x5#64, List.replicate 6 0#64, 3⟩
    let s := (withCore (withWindows quadCtx [r]) fun c => { c with inbox := [(2, [m])] }).setGroup 1#16
      { quadCtx.group 1#16 with letters := [m] }
    ((withWindows (queued (recordOf .done)) [w]).thr 0).windows = [w] ∧ w.count = 0 ∧ (quadCtx.thr 0).held = [] ∧
    ((queued (recordOf .done)).record 0 4).state = .done ∧ ((queued (recordOf .running)).record 0 4).state = .running ∧
    (s.thr 0).windows = [r] ∧ inboxOf (s.core 0) 2 = [] ++ m :: [] ∧ m.w1.toNat % 2 ^ 22 = (nameWord 0 (s.thr 0).gen).toNat ∧
    inboxOf (s.core 0) 0 = [] ∧ s.groupHeld (s.thr 0).group = true ∧ (s.group (s.thr 0).group).letters = [m] ∧ r.a.getLsbD 2 = true ∧
    r.a.getLsbD 5 = true ∧ m.payload.length = 6 ∧
    (let q := ask .store 0 none
     let first := fun (l : List Outstanding) => (l.filter fun o => !o.relaxed).head?.map Outstanding.aid
     q.home = coreOf q.key ∧ first [⟨5, false, true, none⟩] = some q.aid ∧
     first [⟨4, false, true, none⟩, ⟨5, false, true, none⟩] ≠ some q.aid) := by decide
theorem witness_KillsArrive :
    let s := (withThread quadCtx fun t => { t with hold := .answer 3#5 })
    (s.thr 0).hold = .answer 3#5 ∧ s.groupHeld 1#16 = true ∧ (s.group 1#16).asid = 1#16 ∧ guestOwns s 0 1#16 = true ∧
    (s.group 1#16).state ≠ .draining ∧ (s.group 1#16).kernel = none ∧
    (let x := { recordOf .placing with group := 1#16 }
     x.used = true ∧ x.group = 1#16 ∧ x.state = .placing) ∧ s.groupHeld 2#16 = false ∧ (s.group 1#16).whole = false ∧
    (5 : Nat) / 2 ^ 16 % 16 < 14 ∧ (s.thr 0).sstate ≠ .empty ∧ (s.thr 0).gen = BitVec.ofNat 8 5 ∧ (s.thr 0).sstate ≠ .ended := by decide
theorem witness_ThreadsEnd : (quadCtx.thr 0).sstate ≠ .empty ∧ (quadCtx.thr 0).sstate ≠ .ended ∧ (quadCtx.thr 1).sstate = .empty ∧
    quadCtx.groupHeld (quadCtx.thr 0).group = true := by decide
theorem witness_SlotsVacate :
    let s := withThread quadCtx fun t => { t with sstate := .ended }
    (s.thr 0).sstate = .ended ∧ drained s 0 = true ∧ (s.core 0).parked.getLsbD 0 = false ∧ (quadCtx.thr 0).sstate ≠ .ended ∧
    (s.core 0).residence = .running ∧ (∀ j < 7, 8 * 0 + j ≠ 0 → (s.thr (8 * 0 + j)).sstate = .empty) := by decide
theorem witness_EntriesArrive :
    let m : Msg := ⟨1, 1#16, 0x0000000202060805#64, 0x5#64, List.replicate 6 0#64, 3⟩
    m.w1.toNat % 2 ^ 22 = 5 ∧ m.w0.toNat / 2 ^ 24 % 8 = 2 ∧ (quadCtx.thr 0).sstate = .run ∧ (quadCtx.thr 0).gen = BitVec.ofNat 8 5 ∧
    (quadCtx.thr 0).asid = m.asid ∧ (quadCtx.core 0).health = .good ∧ quadCtx.dieRetired 0 = false ∧ quadCtx.groupHeld 1#16 = true ∧
    quadCtx.work.any (savedBehind 0 2) = false ∧ (∀ x ∈ (quadCtx.core 0).diverts.toList, x.valid = true → x.asid ≠ m.asid) ∧
    (Core.reset.diverts.setIfInBounds 0 ⟨true, 1#16, 0x20#36⟩)[0].valid = true ∧
    { m with seq := 4 }.seq ≠ 0 ∧ (quadCtx.thr 1).sstate = .empty ∧
    (inboxOf (idleBarn.core 1024) 2).length < 64 := by decide
theorem witness_EntriesAdmitted : admitted (quadCtx.core 0) 2 1 := by
  unfold admitted
  decide
theorem witness_DeadLetters :
    let m : Msg := ⟨0, 1#16, 0x0000000102060805#64, 0x5#64, List.replicate 6 0#64, 3⟩
    m.src < 1024 ∧ quadCtx.groupHeld (m.w0.extractLsb' 32 16) = true ∧ (quadCtx.group 1#16).letters.length < 8 ∧
    liveIn quadCtx 1#16 0 ∧ idle.groupHeld 1#16 = false ∧ idle.groupLast 1#16 = false ∧ (idle.core 0).hevq.length < 32 := by
  have live : liveIn quadCtx 1#16 0 := ⟨quadCtx.thr 0, by and_intros <;> decide⟩
  and_intros <;> first | exact live | decide

/-- 15, the worked letter: the name of the thread at row 6, column 1, slot 0, generation 5, and the entry of its send. -/
theorem test_name_word : nameWord (8 * (16 * 6 + 1)) 5#8 = 0x60805#22 := by decide
theorem test_send_entry : (match exec (.send 1 2) (withThread (box 0x02061103#64 0x100000#64 0#64 0#64) fun t => { t with group := 2#16, gen := 5#8 }) with
    | .next t => t.work.getLast?.map fun e => match e with
      | .messageArrival m => (m.w0, m.w1 &&& 0xFFFFFFFF#64)
      | _ => (0#64, 0#64)
    | _ => none) = some (0x0000000202000005#64, 0x61103#64) := by decide +kernel
/-- R337: a spawn of two threads on the quad takes slot 1 of core 0 and slot 0 of core 1. -/
theorem test_spawn : (match exec (.spawn 3 1 2 0) { quadCtx with threads := (box 0x2000#64 0x201#64 0#64 0#64).threads } with
    | .next t => some ((t.thr 1).sstate, (t.thr 8).sstate, (t.thr 8).pc, (t.thr 8).p[0], (t.thr 8).p[1], (t.group 0#16).live)
    | _ => none) = some (.run, .run, 0x2000#64, 1#64, 0x2000#64, 2) := by decide +kernel
/-- R311, R310: the second thread of the kernel starts on core 1 with its arguments. -/
theorem test_threads_created : (match exec (.kernelThreadCreate 0 4) (queued { recordOf .placing with node := some (0, 0), group := 1#16 }) with
    | .next t => some ((t.thr 1).sstate, (t.thr 8).pc, (t.thr 8).tnum, (t.thr 8).p[0], (t.record 0 4).state)
    | _ => none) = some (.run, 0x2000#64, 1#16, 9#64, .running) := by decide +kernel
/-- R323: the last thread's exit drains the group at the next edge. -/
theorem test_exit_drains : (match exec .exit quadCtx with
    | .next t => some ((t.thr 0).sstate, ((groupEdge t 1#16).group 1#16).state, ((groupEdge t 1#16).group 1#16).live)
    | _ => none) = some (.ended, .draining, 0) := by decide +kernel

/-! Estates, heirs and conveyance (18). -/

/-- Group 1 of context 1 holds the lock at cell 2^52 + 0x40, handle 2 and the promise at cell 2^52 + 0x80 on die 0. -/
def lockAt (heir : Option (BitVec 16)) : Holding := ⟨1, 0x40#64, 1#16, 1#16, heir, false, 0, 2 ^ 52 + 0x40, 0⟩
def promiseOf : Holding := ⟨3, 0x80#64, 1#16, 1#16, none, false, 2, 2 ^ 52 + 0x80, 0⟩
def estateOf (l : List (Nat × Holding)) : State :=
  (paged quadCtx).setDie 0 { quadCtx.die 0 with estate := l }
/-- Group 1 drains with a conveyance in part p; group 2 is active. -/
def conveying (l : List (Nat × Holding)) (c : Conveyance) : State :=
  ((estateOf l).setGroup 1#16 { Group.reset with state := .draining, used := true, asid := 1#16, conv := some c }).setGroup 2#16
    { Group.reset with state := .active, used := true, asid := 1#16, live := 1 }
def convAt (p : Nat) : Conveyance := ⟨0#64, p, 0, [], 0, false⟩

/-- Doubleword ea of the first page of Silo channel 0. -/
def wordAt (ea : Nat) : Place := ⟨2 ^ 52 + ea, 208, true, false, 0#2⟩

theorem witness_EstateRegisters :
    let s := estateOf [(0, lockAt none)]
    ready (.hold 3 1 2 15) s = true ∧ ready (.promise 3 1 15) s = true ∧ tagFits 0x40#64 ∧ ¬ tagFits 0x0010000000000040#64 ∧
    reachPlain s 0 0x40#64 8 kindSTORE 0#32 = .at (wordAt 0x40) ∧ homeRefusal s 208 0#2 1#16 false (2 ^ 52 + 0x40) (2 ^ 52 + 0x40) = none ∧
    handleFits 0x1000000000000003#64 ∧ handleOwned s 1#16 0x1000000000000003#64 = false ∧
    handleOwned (onPlot s Plot.reset) 1#16 0x1000000000000000#64 = true ∧ (s.holding 0 1).kind = 0 ∧ (s.holding 0 0).kind ≠ 0 := by
  dsimp only
  unfold tagFits handleFits
  and_intros <;> first | exact .inl (by decide) | decide +kernel
theorem witness_EstateRegistered : registered (estateOf [(0, lockAt none)]) 0 0x40#64 1#16 ∧ ¬ registered (estateOf []) 0 0x40#64 1#16 := by
  refine ⟨⟨_, List.mem_cons_self .., by and_intros <;> decide⟩, ?_⟩
  rintro ⟨x, h, -⟩
  cases h
theorem witness_EstateChanges :
    let s := estateOf [(0, lockAt none), (1, promiseOf)]
    ready (.unhold 3 1 15) s = true ∧ ready (.heir 3 1 2 15) s = true ∧ heldBy s (holdingNamed s 0#64) ∧ heldBy s (holdingNamed s 1#64) ∧
    ¬ heldBy s (holdingNamed s 2#64) ∧ promiseAt s (2 ^ 52 + 0x80) = 0 ∧ s.groupHeld 1#16 = true ∧ (s.group 1#16).asid = 1#16 ∧
    (let t := conveying [] (convAt 1)
     t.groupHeld 2#16 = true ∧ (t.group 2#16).asid = (t.thr 0).asid ∧ (t.group 2#16).state = .active ∧ (2#16 : BitVec 16) ≠ (t.thr 0).group) := by
  dsimp only
  unfold heldBy
  decide +kernel
theorem witness_PromiseKept :
    let s := estateOf [(1, promiseOf)]
    ready (.fulfil 3 1 2) s = true ∧ wordPlaced s (.fulfil 3 1 2) 0x80#64 true (wordAt 0x80) ∧
    homeRefusal s 208 0#2 1#16 true (2 ^ 52 + 0x80) (2 ^ 52 + 0x80) = none ∧
    homeRefusal { s with poison := [(2 ^ 52 + 0x80) / 64] } 208 0#2 1#16 true (2 ^ 52 + 0x80) (2 ^ 52 + 0x80) = some 3#4 ∧ freeAt s 0 0 ∧
    accessesDone s 0 = true ∧ promiseAt s (2 ^ 52 + 0x80) = 0 ∧ (s.die 0).estate = [] ++ (1, promiseOf) :: [] ∧
    promiseOf.key.toNat = (0x80#64).toNat % 2 ^ 52 ∧ promiseOf.holder = (s.thr 0).group := by
  dsimp only
  unfold wordPlaced freeAt
  decide +kernel
theorem witness_PromiseAwaited :
    let s := estateOf [(1, promiseOf)]
    let x : Awaiter := ⟨0, 4, 2 ^ 52 + 0x80, 0, 0x80#64, 1#16⟩
    ready (.await 3 1 15) s = true ∧
    (match translated s 0 1#16 0x80 kindLOAD none with | .at p => homeRefusal s p.home p.mode 1#16 true p.cell p.cell | _ => some 0#4) = none ∧
    homeRefusal s x.home 0#2 x.asid true x.cell x.cell = none ∧ promiseAt s x.cell = 0 ∧
    promiseAt { s with mem := writeWord [] x.cell 0x2000000000000005#64 } x.cell = 1 ∧
    (∃ die < 4, ∃ z ∈ (s.die die).estate, z.2.kind = 3 ∧ z.2.key = x.ea ∧ z.2.asid = x.asid) ∧
    ¬ ∃ die < 4, ∃ z ∈ (quadCtx.die die).estate, z.2.kind = 3 := by decide +kernel
theorem witness_EstateQueries : ready (.estq 3 1 2 15) (paged quadCtx) = true ∧ coreOf (paged quadCtx).cur < 1024 ∧
    (match translated (paged quadCtx) 0 1#16 0x1000 kindSTORE (some false) with | .at p => p.cell | _ => 0) = 2 ^ 52 + 0x1000 := by
  decide +kernel
theorem witness_HeirChain :
    let s := ((conveying [] (convAt 1)).setGroup 1#16 { Group.reset with state := .draining, used := true, dheir := some 2#16 }).setGroup 3#16
      { Group.reset with gen := 1#4, used := true, dheir := some 1#16 }
    s.groupHeld 2#16 = true ∧ (s.group 2#16).state = .active ∧ s.groupHeld 1#16 = true ∧ (s.group 1#16).state ≠ .active ∧
    (s.group 1#16).dheir = some 2#16 ∧ s.groupLast 3#16 = true ∧ s.groupHeld 3#16 = false ∧ (s.group 3#16).dheir = some 1#16 ∧
    s.groupLast 4#16 = false ∧ s.groupHeld 4#16 = false := by decide
theorem witness_Conveyance :
    let s := conveying [(0, lockAt (some 2#16)), (1, promiseOf)] (convAt 2)
    let t := (estateOf []).setGroup 1#16 { Group.reset with state := .draining, used := true, asid := 1#16 }
    t.groupHeld 1#16 = true ∧ (t.group 1#16).conv = none ∧ (t.group 1#16).done = false ∧ groupQuiet s 2#16 = true ∧
    (s.group 1#16).conv = some (convAt 2) ∧
    firstReservation s 1#16 1#16 = none ∧ firstHolding s 1#16 1#16 (fun z => decide (z.kind + 1 = 2)) = some (0, 0, lockAt (some 2#16)) ∧
    heirOf s (lockAt (some 2#16)) = some 2#16 ∧ heirOf s promiseOf = none ∧
    (homeRefusal s promiseOf.home 0#2 1#16 true promiseOf.cell promiseOf.cell).isNone = true ∧
    firstHolding s 1#16 1#16 (fun z => decide (z.kind + 1 = 4)) = some (0, 1, promiseOf) ∧ (s.core (s.group 1#16).home).hevq.length < 32 := by
  decide +kernel
/-- The lock's reservation, held by a thread, with a waiter of group 2 behind it; and a reservation of no lock. -/
theorem witness_LocksPass :
    let r : Reservation := { place 5#16 false none with cell := 2 ^ 52 + 0x40, group := 1#16 }
    let e : Reservation := { place 6#16 false (some (ask (.load true) 0 none)) with cell := 2 ^ 52 + 0x40, group := 2#16, seq := 1 }
    let s := (conveying [(0, lockAt (some 2#16))] (convAt 1)).setCore 0 { Core.reset with resv := [r, e] }
    let lock := fun (z : Holding) => decide (z.kind = 1 ∧ z.cell = r.cell)
    (s.group 1#16).conv = some (convAt 1) ∧ firstReservation s 1#16 1#16 = some (0, r) ∧ (s.core 0).resvHeld = [] ∧
    firstHolding s 1#16 r.asid lock = some (0, 0, lockAt (some 2#16)) ∧ heirOf s (lockAt (some 2#16)) = some 2#16 ∧
    ((s.core 0).resv.filter fun z => z.cell = r.cell).drop 1 = [] ++ e :: [] ∧ e.asid = r.asid ∧ e.waiting = some (ask (.load true) 0 none) ∧
    (homeRefusal s 0 0#2 r.asid true r.cell r.cell).isNone = true ∧
    (homeRefusal { s with poison := [r.cell / 64] } 0 0#2 r.asid true r.cell r.cell).isNone = false ∧
    firstHolding (conveying [] (convAt 1)) 1#16 r.asid lock = none ∧ heirOf s (lockAt none) = none := by decide +kernel
theorem witness_ArrivalRecord :
    let c : Conveyance := { convAt 5 with conveyed := 1, given := [(2#16, 5#64, 0x40#64)] }
    let s := (conveying [] c).setGroup 2#16 { Group.reset with state := .active, used := true, asid := 1#16, live := 1, area := 0x1000#64 }
    let t := withThread s fun t => { t with group := 2#16 }
    (s.group 1#16).conv = some c ∧ s.groupHeld 2#16 = true ∧ s.groupHeld 1#16 = true ∧ (s.group 1#16).home < 1024 ∧
    (recordPlace s 2#16).map (fun i => (i.1, i.2.cell)) = some (0x1000#64, 2 ^ 52 + 0x1000) ∧
    (∀ y ∈ s.cores, y.2.residence ≠ .resuming ∧ ∀ i < 8, (y.2.diverts.getD i ⟨false, 0#16, 0#36⟩).valid = false) ∧
    recordPlace (conveying [] c) 2#16 = none ∧ (t.thr 0).sstate ≠ .ended ∧ (t.thr 0).group = 2#16 ∧
    (conveying [] (convAt 5)).groupHeld 1#16 = true := by decide +kernel

/-- R383: the lock passes to its heir: the word is MARKED, the entry is BEREAVED and held by group 2. -/
theorem test_lock_conveyed : (match exec (.conveyanceStep 1#16) (conveying [(0, lockAt (some 2#16))] (convAt 2)) with
    | .next t => some (readWord t.mem (2 ^ 52 + 0x40), (t.holding 0 0).holder, (t.holding 0 0).bereaved)
    | _ => none) = some (0x8000000000000000#64, 2#16, true) := by decide +kernel
/-- R386: a promise without an heir is an orphan, and its entry is free. -/
theorem test_promise_orphaned : (match exec (.conveyanceStep 1#16) (conveying [(1, promiseOf)] (convAt 4)) with
    | .next t => some (readWord t.mem (2 ^ 52 + 0x80), (t.holding 0 1).kind)
    | _ => none) = some (0x6000000000000000#64, 0) := by decide +kernel
/-- R397: fulfil writes FULFILLED with its value. -/
theorem test_fulfil : (match exec (.fulfil 3 1 2) { estateOf [(1, promiseOf)] with threads := (withThread (box 0x80#64 7#64 0#64 0#64) fun t =>
      { t with group := 1#16 }).threads } with
    | .next t => some (readReg t 0 3#5, readWord t.mem (2 ^ 52 + 0x80), (t.holding 0 1).kind)
    | _ => none) = some (0#64, 0x2000000000000007#64, 0) := by decide +kernel

/-! Slots, residences, migration and levelling (13, 15). -/

/-- System core 0 asks core 0, whose first translation maps the area; thread 0 of context 1 runs there. -/
def saving (m : List Host.Cell) (f : Core → Core) : State :=
  { ((idleBarn.setThr 0 (idle.thr 0)).setCore 0 (f { idle.core 0 with tlb := [bootEntry] })).setThr 8192
      { idleBarn.thr 8192 with hold := .answer 3#5 } with work := [], due := [], mem := m }
def areaReq (mode : BitVec 2) : CtxReq := ⟨8192, 3#5, 0, 0x200000#64, mode⟩
/-- The header of an area in STATE st. -/
def headerOf (st : Nat) : List Host.Cell :=
  writeBytes (writeBytes [] (2 ^ 52 + 0x200000) 8 (1 + st * 2 ^ 24 + 2 ^ 32 + 2 ^ 48)) (2 ^ 52 + 0x200008) 8 0x7888888888888888

theorem witness_SlotTable : tableFits 0x7888888888888888#64 ∧ ¬ tableFits 0x8888888888888888#64 ∧ ¬ tableFits 0x7888888888888889#64 ∧
    ready (.slotw 3 1 2) idlePriv = true ∧ (idlePriv.thr idlePriv.cur).view = .hypervisor ∧ coreFor idlePriv 7 0#64 = some 0 ∧
    outbound idlePriv 0 0 < 8 ∧ ready (.slotw 3 1 2) idleBarn = true ∧ coreFor idleBarn 8192 0x8000000000000#64 = some 0 ∧ coreOf 8192 ≠ 0 ∧
    ((saving [] id).thr 8192).hold = .answer 3#5 := by
  unfold tableFits
  decide
theorem witness_SlotShares : ({ Core.reset with sharePend := some (1#64, 2#64, 0#64) }).sharePend = some (1#64, 2#64, 0#64) ∧ (idle.core 0).sharePend = none := by
  decide
theorem witness_MigrateResults :
    let s := withCore quadCtx fun c => { c with sample := [(0, 3), (2, 1), (1, 0), (3, 0)] }
    ready (.migrate 3 1) s = true ∧ (s.thr 0).pinned = false ∧ (s.thr 0).uin = false ∧ takesThreads s 1#16 1 ∧ ¬ takesThreads s 1#16 4 ∧
    isIdlest ((s.core 0).sample.filter fun z => z.1 ≠ 0) 1 0 := by
  unfold takesThreads
  and_intros <;> first | decide | exact ⟨[(2, 1)], [(3, 0)], by and_intros <;> decide⟩
theorem witness_Migration :
    let s := withThread quadCtx fun t => { t with hold := .migrating }
    let p : MigPacket := { src := 0, dst := 1, cause := .instr 3#5, pc := 0x1004#64, asid := 1#16, tnum := 0#16, group := 1#16, gen := 5#8, seq := 0#32
                           ie := 7#3, ip := 0#3, uvec := 0#64, p := [], q := 0#64 }
    let t := s.setCore 1 { s.core 1 with packets := [p] }
    (s.thr 0).hold = .migrating ∧ (s.thr 0).windows = [] ∧ (s.thr 0).outst = [] ∧ enginesIdle s 0 = true ∧ (s.thr 0).posted = [] ∧
    coreOf p.src ≠ p.dst ∧ p.dst < 1024 ∧ slotOpen s 1 0 = true ∧ s.dieRetired 0 = false ∧ (s.thr 0).killed = false ∧
    outbound s 0 3 < 8 ∧ (t.core 1).packets = [p] ∧ (t.thr 0).hold = .migrating ∧ (t.thr 0).gen = p.gen ∧ admits (s.core 1) 3 2 = true ∧
    (quadCtx.thr 0).hold ≠ .migrating := by decide +kernel
/-- Queue 3 is full of packets. -/
theorem witness_PacketWaits : ∃ l : List MigPacket, admits { Core.reset with packets := l } 3 2 = false :=
  ⟨List.replicate 4096 ⟨0, 1, .level, 0#64, 0#16, 0#16, 0#16, 0#8, 0#32, 0#3, 0#3, 0#64, [], 0#64⟩, by decide +kernel⟩
theorem witness_SaveRequests :
    (∀ i ∈ ([.ctxsave 3 1 2, .ctxload 3 1 2] : List Instr), ready i idleBarn = true) ∧ areaFits 0x200000#64 ∧ ¬ areaFits 0x208000#64 ∧
    nameBits 2#64 3 ∧ ¬ nameBits 3#64 3 ∧ ¬ nameBits 1#64 1 ∧ ((saving [] id).thr 8192).hold = .answer 3#5 ∧
    ((saving [] id).core 0).health = .good ∧ placingOn (saving [] id) 0 = false ∧ ((saving [] id).core 0).residence = .running ∧
    ((saving [] id).core 0).diverts[0].valid = false ∧ ((saving [] id).core 0).guestStop = none ∧
    (areaReach (saving [] fun c => { c with residence := .loaded }) 0 0x200000 kindSTORE).map Place.cell = some (2 ^ 52 + 0x200000) ∧
    (areaReach (saving [] id) 0 0x200003 kindSTORE).map Place.cell = some (2 ^ 52 + 0x200003) ∧ areaReach idle 0 0x200000 kindSTORE = none := by
  unfold areaFits nameBits
  decide +kernel
theorem witness_SavedWords :
    let t := { idle.thr 0 with windows := [win 4 3#5 5 (.ready (.one 9#64)), win 5 4#5 6 .pending], uin := true }
    t.sstate ≠ .empty ∧ t.sstate ≠ .ended ∧ t.hold = .none ∧ (t.frozen ++ t.windows).length ≤ 8 ∧
    (t.frozen ++ t.windows)[0]? = some (win 4 3#5 5 (.ready (.one 9#64))) ∧ (t.frozen ++ t.windows)[1]? = some (win 5 4#5 6 .pending) ∧
    Thread.empty.sstate = .empty := by decide
theorem witness_SaveCompletes :
    let s := saving [] fun c => { c with residence := .preempting, area := 0x200000#64, stopped := true }
    let c := s.core 0
    (areaReq 0#2).core < 1024 ∧ rowOf 0 < 14 ∧ (s.thr 8192).hold = .answer 3#5 ∧ (∀ j < 7, 8192 ≠ 8 * 0 + j ∧ c.parked.getLsbD j = false) ∧
    (s.thr 8192).view = .hypervisor ∧ Memory.wf s.mem ∧ s.cores.all (fun x => x.2.resv = [] ∧ x.2.resvHeld = [] ∧ x.2.packets = []) = true ∧
    c.health = .good ∧ c.residence = .preempting ∧ c.area = (areaReq 0#2).area ∧ c.inbox = [] ∧ c.vecQueue = [] ∧ c.copies = [] ∧
    c.matQueue = [] ∧ c.reps = [] ∧ c.arrived = false ∧ c.cursor = 0 ∧ s.work = [] ∧ s.due = [] ∧ s.awaiters = [] ∧
    ∀ j < 7, (s.thr j).hold = .none ∧ (s.thr j).windows = [] ∧ (s.thr j).frozen = [] ∧ (s.thr j).held = [] ∧ (s.thr j).posted = [] ∧
      (s.thr j).sstate ≠ .pagewait ∧ (s.thr j).outst = [] := by
  and_intros <;> decide
/-- Core 0 belongs to virtual function 0, as the headers say. -/
def granted (s : State) : State := withVf (s.setDie 0 { s.die 0 with nodes := [⟨0, 0, 0, 0⟩] }) 0 vfOn
/-- The area of the save, of a FRESH load and of the second step of a SAVED load. -/
theorem witness_areaAt : ∀ s ∈ [saving [] fun c => { c with residence := .preempting, area := 0x200000#64, stopped := true },
    granted (saving (headerOf 0) fun c => { c with residence := .free }), saving (headerOf 4) (fun c => { c with residence := .resuming, area := 0x200000#64 })],
    areaAt s 0 0x200000#64 (2 ^ 52 + 0x200000) := by
  intro s h
  simp only [List.mem_cons, List.not_mem_nil, or_false] at h
  rcases h with rfl | rfl | rfl <;>
  refine ⟨by decide, by decide, bootEntry, [], ?_⟩ <;> and_intros <;> decide +kernel
theorem witness_LoadRequests :
    let s := granted (saving (headerOf 0) fun c => { c with residence := .free })
    let h := fun (off n : Nat) => readBytes s.mem (2 ^ 52 + 0x200000 + off) n
    (s.thr 8192).hold = .answer 3#5 ∧ (s.thr 8192).view = .hypervisor ∧ (s.core 0).health = .good ∧ (s.core 0).residence = .free ∧
    h 0 2 = 1 ∧ h 2 1 = 0 ∧ h 3 1 = 0 ∧ h 6 1 = 1 ∧ h 7 1 = 0 ∧ tableFits (BitVec.ofNat 64 (h 8 8)) ∧ vfOfCore s 0 = some (h 0x28 2) ∧
    outbound s 0 0 < 8 ∧ (∀ j < 7, (s.core 0).parked.getLsbD j = false) ∧ ({ s.core 0 with parked := 1#7 }).parked.getLsbD 0 = true ∧
    Memory.wf s.mem := by
  unfold tableFits
  decide +kernel
/-- A SAVED area of another core with no valid record. -/
theorem witness_LoadRequestsSaved :
    let s := saving (writeBytes (writeBytes (headerOf 4) (2 ^ 52 + 0x200038) 8 0x0008010000000000) (2 ^ 52 + 0x200000 + matrixSection 0) 1 1)
      (fun c => { c with residence := .free })
    let h := fun (off n : Nat) => readBytes s.mem (2 ^ 52 + 0x200000 + off) n
    h 3 1 = 4 ∧ (∀ j < 7, h (0x100 + 0x400 * j) 8 / 2 ^ 63 ≠ 1) ∧ h (matrixSection 0) 1 = 1 ∧ h (matrixSection 0 + 1) 1 % 2 = 0 ∧
    h 0x38 8 / 2 ^ 40 % 32 = 1 := by decide +kernel
theorem witness_LoadCompletes :
    let s := saving (headerOf 4) (fun c => { c with residence := .resuming, area := 0x200000#64 })
    (areaReq 1#2).mode = 1#2 ∧ (s.core 0).health = .good ∧ (s.core 0).residence = .resuming ∧ (s.core 0).area = (areaReq 1#2).area ∧
    (∀ j < 7, 8192 ≠ 8 * 0 + j ∧ (s.core 0).parked.getLsbD j = false) ∧ (s.thr 8192).view = .hypervisor ∧ Memory.wf s.mem ∧ s.work = [] ∧
    s.heldKills = [] ∧ (∀ x ∈ s.cores, x.2.resv = []) ∧ readWord s.mem (2 ^ 52 + 0x206000) = 0#64 ∧ readBytes s.mem (2 ^ 52 + 0x20004A) 2 = 0 ∧
    (∀ b < 3, 2 ^ 52 + 0x200000 + areaSize 0 ≤ bufferCell 0 b 0 ∨ bufferCell 0 b 0 + bufferSize 0 b ≤ 2 ^ 52 + 0x200000) ∧
    ∀ j < 7, (readWord s.mem (2 ^ 52 + 0x200100 + 0x400 * j)).getLsbD 63 = false := by decide +kernel
/-- Core 0 with two threads and idle neighbours of the context. -/
theorem witness_Levelling :
    let s := ((quadCtx.setCore 0 { quadCtx.core 0 with levctl := 2#2 }).setThr 1 (quadCtx.thr 0)).setCore 1 { quadCtx.core 1 with residence := .running }
    (s.core 0).levctl.toNat % 4 = 2 ∧ movable s 0 = true ∧ (∀ i < 0, ¬ movable s (8 * 0 + i) = true) ∧ isIdlest [(0, 2), (1, 0)] 1 0 ∧
    (let t := withCore (listed [List.replicate 8 1#64, List.replicate 8 2#64]) fun c => { c with levctl := 1#2, qcfg := c.qcfg.setIfInBounds 8 (c.qcfg[8] ||| 0x0000800000000000#64) }
     (t.core 0).levctl.toNat % 4 = 1 ∧ qKind (qcfgOf (t.core 0) 8) = 3 ∧ qAsid (qcfgOf (t.core 0) 8) = 1#16 ∧ qLevel (qcfgOf (t.core 0) 8) = true ∧
      (∀ j < 16, 8 ≤ j → j ≠ 8 → qLevel (qcfgOf (t.core 0) j) = false) ∧ (t.core 0).qorphan.getLsbD 8 = false ∧
      ({ t.core 0 with qorphan := 0x100#16 }).qorphan.getLsbD 8 = true) := by
  and_intros <;> first | exact ⟨[(0, 2)], [], by and_intros <;> decide⟩ | decide +kernel

/-- R284: slot code 9 is refused. -/
theorem test_slotw_refused : (match exec (.slotwRequest 8192 3#5 0 0x7888888888888889#64) (saving [] id) with
    | .next t => some (t.work, (t.core 0).slotpend)
    | _ => none) = some ([.answerArrival 0 8192 3#5 1#64], 0x7888888888888888#64) := by decide +kernel
/-- R302: a system core's thread does not migrate; a thread at its own core has status 4. -/
theorem test_migrate : reads (exec (.migrate 3 1) idleBarn) 3 = some 3#64 ∧
    reads (exec (.migrate 3 1) (box 0x0008000000000000#64 0#64 0#64 0#64)) 3 = some 4#64 := by decide +kernel
/-- R295: the first step of a save fills a DIVERT entry and stops the residence. -/
theorem test_save_begins : (match exec (.ctxsaveRequest (areaReq 0#2)) (saving [] id) with
    | .next t => some ((t.core 0).residence, (t.core 0).diverts[0])
    | _ => none) = some (.preempting, ⟨true, 1#16, 0x20#36⟩) := by decide +kernel
/-- R296: a FRESH area of the other kind of core is refused with status 2. -/
theorem test_load_refused : (match exec (.ctxloadRequest (areaReq 0#2)) (saving (writeBytes (headerOf 0) (2 ^ 52 + 0x200002) 1 1)
      fun c => { c with residence := .free }) with
    | .next t => some t.work
    | _ => none) = some [.answerArrival 0 8192 3#5 2#64] := by decide +kernel

/-! Pages (19), handover (20), reliability (22) and the machine as a whole. -/

def faultOf (taken : Bool) : FaultEntry := ⟨0, 7#32, 1#16, 1#16, 0x5000#64, 0#16, 0, 5#22, 9#64, taken⟩
def faulted (l : List FaultEntry) (s : State) : State := s.setDie 0 { s.die 0 with faults := l }
/-- A walk of thread 0 at a level, below an entry. -/
def walking (level : Nat) (e : Option Word) (m : List Host.Cell) : State :=
  { withThread quadCtx fun t => { t with walk := some ⟨0x5000#64, kindLOAD, 1#16, 0#16, level, e⟩, hold := .walk } with mem := m, asidtab := 0x0800000000000001#64 }
/-- A handover page of Silo at 0, whose leaf lies at cell 2^52 + 0x100; and its leaf. -/
def giveLeaf : Word := 0x8800000000000073#64
def handed : State :=
  { withCore quadCtx fun c => { c with tlb := [{ bootEntry with asid := 1#16, leaf := giveLeaf, leafCell := 2 ^ 52 + 0x100 }] } with
    mem := writeWord [] (2 ^ 52 + 0x100) giveLeaf }
def giveOf (value : BitVec 48) : GiveReq :=
  { key := 0, d := 3#5, asid := 1#16, base := 0#64, size := 5, flag := 2 ^ 52, leaf := 2 ^ 52 + 0x100, home := 0, token := false, value := value }

theorem witness_FaultsTaken : ready (.pfq 3 1 2 15) idlePriv = true ∧ ready (.pfq 3 1 2 15) idleBarn = true ∧
    faultDie idlePriv false 0 = some 0 ∧ faultDie idleBarn false 0 = none ∧ faultDie idleBarn true 3 = some 3 ∧
    ((faulted [faultOf true, faultOf false] idlePriv).die 0).faults = [faultOf true] ++ faultOf false :: [] := by decide
theorem witness_FaultsReleased :
    let s := withThread quadCtx fun t => { t with sstate := .pagewait, epc := 0x1000#64 }
    ready (.presume 3 1 2) idlePriv = true ∧ (idlePriv.thr idlePriv.cur).view = .hypervisor ∧ accessesDone idlePriv idlePriv.cur = true ∧
    inPresume 0x5000#64 1#64 (faultOf false) ∧ ¬ inPresume 0x6000#64 1#64 (faultOf false) ∧
    (s.thr 0).sstate = .pagewait ∧ (s.thr 0).gen = BitVec.ofNat 8 5 ∧ (quadCtx.thr 0).sstate ≠ .pagewait := by
  dsimp only
  unfold inPresume
  decide
theorem witness_TranslationsDropped : ready (.pinv 3 1 2) idlePriv = true ∧ accessesDone idlePriv idlePriv.cur = true ∧ idlePriv.work = [] ∧
    (idlePriv.thr idlePriv.cur).stay = false ∧ (∀ z ∈ idlePriv.threads, z.2.outst = []) ∧ inDrop 0x5000#64 1#64 1#16 0 (2 ^ 34) ∧
    ¬ inDrop 0x5000#64 1#64 2#16 0 (2 ^ 34) := by
  unfold inDrop
  decide
/-- A context without a table, one with a table of its own, and a leaf of 16 GiB in it. -/
theorem witness_WalksEnd :
    let p : Word := 0x0800000000000001#64
    let s := walking 5 (some p) (writeWord [] (2 ^ 52) 0x0800000000000073#64)
    ((walking 5 none []).thr 0).walk = some ⟨0x5000#64, kindLOAD, 1#16, 0#16, 5, none⟩ ∧
    (match walkStep (walking 5 none []) ⟨0x5000#64, kindLOAD, 1#16, 0#16, 5, none⟩ with | .absent => true | _ => false) = true ∧
    (match walkStep (walking 5 none (writeWord [] (2 ^ 52 + 8) p)) ⟨0x5000#64, kindLOAD, 1#16, 0#16, 5, none⟩ with | .pointer l e => (l, e) | _ => (0, 0#64)) = (5, p) ∧
    (match walkStep s ⟨0x5000#64, kindLOAD, 1#16, 0#16, 5, some p⟩ with | .leaf e => e | _ => 0#64) = 0x0800000000000073#64 ∧
    (s.core 0).tlb.length < 64 ∧ (s.die 0).faults.length < 256 ∧ (s.die 0).prcnt = 0#16 ∧ (s.thr 1).walk = none := by decide +kernel
theorem witness_WalkHeld :
    let s := handed.setCore 0 { handed.core 0 with gives := [giveOf 5#48] }
    giveLeaf.getLsbD 63 = true ∧ givingAt s 1#16 0x5000 = true ∧ givingAt handed 1#16 0x5000 = false := by decide +kernel
theorem witness_HandoverIssue :
    let s := handed
    ready (.pgive 3 1 2) s = true ∧ ready (.ptake 3 1 15) s = true ∧ accessesDone s 0 = true ∧
    tlbFind (quadCtx.core 0) 1#16 (0x5000 % 2 ^ 52) = none ∧ (leafReason 0x8800000000000033#64 0 kindSTORE).isSome = true ∧
    handoverPage s 0x5000#64 kindLOAD { bootEntry with asid := 1#16, leaf := giveLeaf, leafCell := 2 ^ 52 + 0x100 } ∧
    handoverPage s 0x5000#64 kindSTORE { bootEntry with asid := 1#16, leaf := giveLeaf, leafCell := 2 ^ 52 + 0x100 } ∧
    ready (.pgive 3 1 2) idleBarn = true := by
  dsimp only
  unfold handoverPage tagFits
  decide +kernel
theorem witness_Gives :
    let s := withThread handed fun t => { t with hold := .answer 3#5 }
    let g := s.setCore 0 { s.core 0 with gives := [giveOf 5#48] }
    s.dieRetired 0 = false ∧ (s.core 0).health = .good ∧ (s.core 0).gives = [] ∧ (s.core 0).giveHeld = [] ∧
    readable s (2 ^ 52 + 0x100) = true ∧ leafOk 5 giveLeaf = true ∧ leafOk 5 0#64 = false ∧ giveLeaf.getLsbD 62 = (giveOf 5#48).token ∧
    givePending g (giveOf 5#48) = false ∧ ({ s.core 0 with giveHeld := [giveOf 5#48] }).giveHeld = [giveOf 5#48] ∧ (giveOf 5#48).asid = 1#16 ∧ readWord s.mem (2 ^ 52 + 0x100) = giveLeaf := by decide +kernel
theorem witness_TakesAnswer :
    let r : Request := { ask (.take false) 0 none with cell := 2 ^ 52, ea := 0x5000#64 }
    refusal handed r = none ∧ givingAt handed r.asid (r.ea.toNat % 2 ^ 52) = false ∧ (readWord handed.mem r.cell).getLsbD 63 = false ∧
    givingAt (handed.setCore 0 { handed.core 0 with gives := [giveOf 5#48] }) r.asid (r.ea.toNat % 2 ^ 52) = true := by decide +kernel
theorem witness_CheckerActs : (idle.thr 0).sstate = .run ∧ (idle.thr 0).mismatch = false ∧ (0 : Nat) % 8 ≠ 7 ∧ (7 : Nat) % 8 = 7 ∧
    ((withThread idle fun t => { t with mismatch := true }).thr 0).mismatch = true ∧ idle.groupHeld (idle.thr 0).group = false ∧
    (idlePriv.thr 7).sstate = .run ∧ (idle.thr 1).sstate ≠ .run ∧
    (idle.thr 0).spent = false ∧
    (let s := withThread idle fun t => { t with mismatch := true, spent := true }
     settleHold s 0 = s ∧ turnOf s 0 = .issue ∧ (s.thr 0).spent = true) := by decide
/-- A division whose result is compared late, and its turn. -/
theorem witness_CheckerActs_late :
    let w : Window := { win 4 3#5 0 (.later (.one 5#64)) with word := encode (.div 3 1 2 0) }
    let s := withWindows idle [w]
    let u := withWindows idle [{ w with mismatch := true, retry := true }]
    (s.thr 0).windows = [w] ∧ (s.thr 0).frozen = [] ∧ (s.thr 0).held = [] ∧ checkedLate w = true ∧ w.retry = false ∧ w.mismatch = false ∧
    s.cur = 0 ∧ settleHold u 0 = u ∧ turnOf u 0 = .retry := by decide
theorem witness_CoreQuarantine :
    let s := idle.setCore 0 { idle.core 0 with health := .quarantined }
    rowOf 0 < 14 ∧ colOf 0 < 16 ∧ idle.dieRetired 0 = false ∧ (idle.core 0).health = .good ∧ (idle.die 0).qip = false ∧
    (s.core 0).health = .quarantined ∧ (∀ j < 8, (s.thr (8 * 0 + j)).outst = []) ∧ (tabGet 0#5 (s.die 0).spares 0).getLsbD 4 = false ∧
    (tabGet 0#5 (tabSet (s.die 0).spares 0 16#5) 0).getLsbD 4 = true ∧ Memory.wf s.mem ∧
    ((List.range 16).map fun j => qMin (qcfgOf (s.core 0) j)).sum <
      64 * ((List.range 64).filter fun b => (s.core 0).qret.getLsbD b = false).length ∧ (s.die 0).ports = [] := by decide
theorem witness_BeatsRetried : (5 : Nat) < 536 ∧ (idle.core 0).charges = [] ∧ (idle.core 0).lspare.getLsbD 0 = false ∧
    (([(5, 0#64), (5, 0#64)] ++ [(5, 0#64)]).filter fun (x : Nat × Word) => x.1 = 5).length = 3 := by decide +kernel
theorem witness_MemoryKeptByStep : MemoryKept (withVec divStarted) := by
  unfold MemoryKept
  decide +kernel
theorem witness_MemoryAtIssue : isWord (.add 3 1 2) = true ∧ ¬ (opOf (encode (.add 3 1 2)) = 0x60#7 ∧ engOf (encode (.add 3 1 2)) = 1#3) ∧
    (idle.thr idle.cur).view = .user ∧ (idle.thr idle.cur).windows = [] ∧ regOk 3#5 = true := by decide

/-- R417: the oldest fault that is not taken goes to the window. -/
theorem test_pfq : (match exec (.pfq 3 1 2 0) (faulted [faultOf true, faultOf false] (boxPriv 0#64 0x100000#64 0#64)) with
    | .next t => some ((t.die 0).faults.map FaultEntry.taken)
    | _ => none) = some [true, true] := by decide +kernel
/-- R415: presume of the page counts one release. -/
theorem test_presume : reads (exec (.presume 3 1 2) (faulted [faultOf true] (boxPriv 0x5000#64 1#64 0#64))) 3 = some 1#64 := by decide +kernel
/-- R428: the event of a give writes the flag word, with the prompt side's bit, and answers DONE. -/
theorem test_give_event : (match exec (.giveEvent (giveOf 5#48)) (withThread (handed.setCore 0 { handed.core 0 with gives := [giveOf 5#48] })
      fun t => { t with hold := .answer 3#5 }) with
    | .next t => some (readReg t 0 3#5, readWord t.mem (2 ^ 52), (t.core 0).gives)
    | _ => none) = some (0#64, 0x8000000000000005#64, []) := by decide +kernel
/-- R460: the second mismatch of an issue makes the machine check due. -/
theorem test_checker : (match exec (.checkerMismatch 0) (withThread idle fun t => { t with mismatch := true }) with
    | .next t => t.due
    | _ => []) = [.machineCheck 0] := by decide +kernel

/-! Worked values of the manual's first chapters. -/

/-- R82: the worked block, values in tenths, rounded to nearest. -/
theorem test_fp4_block : fp4Block 0#3 (([(false, 9), (true, 25), (false, 32), (false, 1), (true, 3), (false, 70), (false, 125), (true, 10)] :
      List (Bool × Nat)).map fun x => (.fin x.1 (.rat x.2 10), 0#32)) = (0x806, [1, 0xA, 3, 0, 0, 5, 7, 8], (fp4Block 0#3
    (([(false, 9), (true, 25), (false, 32), (false, 1), (true, 3), (false, 70), (false, 125), (true, 10)] :
      List (Bool × Nat)).map fun x => (.fin x.1 (.rat x.2 10), 0#32))).2.2) := by decide +kernel
/-- R88: the stochastic decision for element 0 with the draws 0x8000_0000 and 0xC000_0000. -/
theorem test_stochastic : ([0x80000000#32, 0xC0000000#32].map fun u =>
    (roundTo .fp4 ⟨4#3, u⟩ (overScale (.fin false (.rat 9 10)) 0x806)).1) = [1, 0] := by decide +kernel
/-- R138, the worked home: field 0x0F, entry 15, die 3. -/
theorem test_home_die : foldSix 9 0x1234567 = 0x0F ∧ homeDie idle 0 0x1234567000 = 3 := by decide

end Sys2Proof.Tests
end

section
/-! PROOFS. Memory (R3), and the home of an access and its answer (R145 to R161). -/

namespace Sys2Proof.Laws

open Sys2Proof Sys2Proof.Machine

/-! Bytes and numbers (R3). -/

theorem littleEndian_succ (m : List Host.Cell) (a n : Nat) :
    littleEndian m a (n + 1) = (readByte m a).toNat + 256 * littleEndian m (a + 1) n := by
  simp only [littleEndian, List.range_succ_eq_map, List.map_cons, List.map_map, List.sum_cons, ← List.sum_map_mul_left]
  congr 1
  · simp
  · refine congrArg List.sum (List.map_congr_left fun i _ => ?_)
    simp only [Function.comp_apply, Nat.succ_eq_add_one, Nat.pow_succ, show a + (i + 1) = a + 1 + i by omega]
    ring

theorem readBytes_eq_littleEndian (m : List Host.Cell) (n : Nat) : ∀ a, readBytes m a n = littleEndian m a n := by
  induction n with
  | zero => intro a; rfl
  | succ n ih => intro a; rw [readBytes, ih, littleEndian_succ]

theorem readBytes_lt (m : List Host.Cell) (n : Nat) : ∀ a, readBytes m a n < 256 ^ n := by
  induction n with
  | zero => intro a; simp [readBytes]
  | succ n ih =>
    intro a
    have hb := (readByte m a).isLt
    have hr := ih (a + 1)
    rw [readBytes, Nat.pow_succ]
    omega

theorem readBytes_lt_bits (m : List Host.Cell) (a n : Nat) : readBytes m a n < 2 ^ (8 * n) :=
  Nat.pow_mul 2 8 n ▸ readBytes_lt m n a

/-- The low n bytes of a number are the bytes of its remainder. -/
theorem byteAt_mod {v n i : Nat} (h : i < n) : byteAt (v % 256 ^ n) i = byteAt v i := by
  obtain ⟨k, rfl⟩ : ∃ k, n = i + (k + 1) := ⟨n - i - 1, by omega⟩
  have hd : 256 ∣ 256 ^ (k + 1) := Dvd.intro_left _ rfl
  apply BitVec.eq_of_toNat_eq
  simp only [byteAt, BitVec.toNat_ofNat, Nat.pow_add 256 i, Nat.mod_mul_right_div_self]
  exact Nat.mod_mod_of_dvd _ hd

theorem storesOnly_mod {m m' : List Host.Cell} {a n v : Nat} (h : storesOnly m m' a n v) :
    storesOnly m m' a n (v % 256 ^ n) := by
  intro x
  rw [h x]
  split
  · rw [byteAt_mod (by omega)]
  · rfl

/-- A write of n bytes changes these bytes and no other. -/
theorem writeBytes_storesOnly (n : Nat) : ∀ (m : List Host.Cell) (a v : Nat), Memory.wf m →
    storesOnly m (writeBytes m a n v) a n v := by
  induction n with
  | zero => intro m a v _ x; rw [if_neg (by omega)]; rfl
  | succ n ih =>
    intro m a v hm x
    rw [writeBytes, ih _ _ _ (writeByte_wf m _ hm (Nat.zero_le a)) x]
    by_cases hx : x = a
    · subst hx
      rw [if_neg (by omega), if_pos (by omega), readByte_writeByte_same m x _ hm]
      simp [byteAt]
    · rw [readByte_writeByte_other m a x _ hm hx]
      by_cases hr : a + 1 ≤ x ∧ x < a + 1 + n
      · rw [if_pos hr, if_pos (by omega), byteAt, byteAt, Nat.div_div_eq_div_mul, ← Nat.pow_succ',
          show (x - (a + 1)).succ = x - a by omega]
      · rw [if_neg hr, if_neg (by omega)]

theorem memoryAtReset : Stated.MemoryAtReset := ⟨reset_memory_wf, fun _ => rfl⟩

theorem bytesWritten : Stated.BytesWritten := by
  intro m hm a n v
  exact ⟨writeBytes_wf n m a v hm, writeBytes_storesOnly n m a v hm,
    by rw [← readBytes_eq_littleEndian, readBytes_writeBytes n m a v hm], readBytes_eq_littleEndian m n a⟩

/-- Settles O59: the reset memory lists no cell, and a write of n bytes is n writes of a byte, by induction on n. -/
theorem memoryBase : Obligations.MemoryBase := ⟨memoryAtReset, bytesWritten⟩

/-! The values of an access (R145, R156, R157): the model's arithmetic and the statement's. -/

theorem signedBits_eq_signedOf {n v : Nat} (h : v < 2 ^ n) : signedBits n v = signedOf n v := by
  have hv : (v : Int) % 2 ^ n = v := by exact_mod_cast Nat.mod_eq_of_lt h
  simp only [signedBits, signedOf, Nat.mod_eq_of_lt h, hv]

/-- Two numbers of n bits with one signed value are the same number. -/
theorem signedOf_inj {n x y : Nat} (hx : x < 2 ^ n) (hy : y < 2 ^ n) (h : signedOf n x = signedOf n y) : x = y := by
  have hp : ((2 ^ n : Nat) : Int) = 2 ^ n := by push_cast; rfl
  simp only [signedOf] at h
  split at h <;> split at h <;> omega

/-- What an atomic or a remote update writes is new of R156 and R157. -/
theorem updated_eq_newValue {op : MemOp} (n : Nat) {old v c : Nat} (ho : old < 2 ^ n) (hv : v < 2 ^ n)
    (hop : isAtomic op = true ∨ isUpdate op = true) : updated op n old v c = newValue op n old v c := by
  have hs := signedBits_eq_signedOf ho
  have ht := signedBits_eq_signedOf hv
  have least : (if signedOf n v < signedOf n old then v else old) = if signedOf n old ≤ signedOf n v then old else v := by
    split <;> split <;> omega
  have greatest : (if signedOf n old < signedOf n v then v else old) =
      if signedOf n old ≤ signedOf n v then v else old := by
    split <;> split
    · rfl
    · omega
    · exact signedOf_inj ho hv (by omega)
    · rfl
  cases op with
  | amoMin | rupMin => simp only [updated, newValue, hs, ht, least]
  | amoMax | rupMax => simp only [updated, newValue, hs, ht, greatest]
  | amoMinu | amoMaxu =>
    simp only [updated, newValue]
    split <;> split <;> omega
  | load _ | store | lrw | sc | take _ => simp [isAtomic, isUpdate] at hop
  | amoAdd | amoXchg | amoCas | rupAdd | rupOr | rupAnd | rupXor => rfl

theorem amoResult_eq (op : MemOp) {n old : Nat} (ho : old < 2 ^ n) : amoResult op n old =
    if op = .amoMinu ∨ op = .amoMaxu then BitVec.ofNat 64 old else BitVec.ofInt 64 (signedOf n old) := by
  rw [← signedBits_eq_signedOf ho]
  cases op <;> rfl

theorem loadResult_eq_loadedValue (m : List Host.Cell) (a n : Nat) (g : Bool) :
    loadResult g (8 * n) (readBytes m a n) = loadedValue m a n g := by
  rw [loadResult, signedBits_eq_signedOf (readBytes_lt_bits m a n)]
  rfl

/-! The request at its home (R143, R159). -/

theorem exec_request (s : State) (r : Request) : exec (.remoteRequestArrival r) s =
    .next (if arrivalBanks s r then atHome s r else { s with work := .remoteRequestArrival r :: s.work }) := rfl

theorem reply_answered (s : State) (r : Request) (x : Reply) : .next (reply s r x) = answered s r x := by
  simp only [reply, answered]
  split <;> rfl

/-- An access whose bank is taken stays under way (R134). -/
theorem exec_request_held {s : State} {r : Request} (hb : arrivalBanks s r = false) :
    exec (.remoteRequestArrival r) s = .next { s with work := .remoteRequestArrival r :: s.work } := by
  simp only [exec_request, hb, Bool.false_eq_true, if_false]

theorem exec_request_performed {s : State} {r : Request} (hb : arrivalBanks s r = true) (hr : refusal s r = none) :
    exec (.remoteRequestArrival r) s = .next (perform s r) := by
  simp only [exec_request, hb, if_true, atHome, hr]

/-- The refusal of an access with a journal entry is its answer (R159, R160). -/
theorem exec_request_refused {s : State} {r : Request} {e : Nat} {c : BitVec 4} (hb : arrivalBanks s r = true)
    (he : r.jent = some e) (hr : refusal s r = some c) : exec (.remoteRequestArrival r) s =
      answered { s with erring := s.erring.erase (r.cell / 64, true) } r (.refused c) := by
  simp only [exec_request, hb, if_true, atHome, hr, refuse, he, reply_answered]

/-! What the home does with each kind of access. -/

theorem perform_load {s : State} {r : Request} {g : Bool} (h : r.op = .load g) :
    perform s r = reply s r (.value (loadedValue s.mem r.cell r.size g)) := by
  simp only [perform, h, loadResult_eq_loadedValue]

theorem perform_store {s : State} {r : Request} (h : r.op = .store) :
    perform s r = reply { s with mem := writeBytes s.mem r.cell r.size r.data.toNat } r .ack := by
  simp only [perform, h]

/-- The memory behind an atomic or a remote update (R156, R157). -/
def updatedMem (m : List Host.Cell) (r : Request) : List Host.Cell :=
  writeBytes m r.cell r.size (updated r.op (8 * r.size) (readBytes m r.cell r.size)
    (r.data.toNat % 2 ^ (8 * r.size)) (r.cmp.toNat % 2 ^ (8 * r.size)))

theorem perform_atomic {s : State} {r : Request} (h : isAtomic r.op = true) :
    perform s r = reply { s with mem := updatedMem s.mem r } r
      (.value (amoResult r.op (8 * r.size) (readBytes s.mem r.cell r.size))) := by
  simp only [perform, updatedMem]
  -- the journal kind of every atomic is 4, so that it answers with a value
  cases hop : r.op <;> simp [hop, isAtomic, journalKind] at h ⊢

theorem perform_update {s : State} {r : Request} (h : isUpdate r.op = true) :
    perform s r = reply { s with mem := updatedMem s.mem r } r .ack := by
  simp only [perform, updatedMem]
  -- the journal kind of every remote update is 2, so that it is acknowledged
  cases hop : r.op <;> simp [hop, isUpdate, journalKind] at h ⊢

theorem updatedMem_wf {m : List Host.Cell} (r : Request) (hm : Memory.wf m) : Memory.wf (updatedMem m r) :=
  writeBytes_wf _ m _ _ hm

/-- An atomic or a remote update changes exactly the bytes of its location, to new of R156 and R157. -/
theorem updatedMem_storesOnly {m : List Host.Cell} {r : Request} (hm : Memory.wf m)
    (h : isAtomic r.op = true ∨ isUpdate r.op = true) : storesOnly m (updatedMem m r) r.cell r.size
      (newValue r.op (8 * r.size) (readBytes m r.cell r.size) (r.data.toNat % 2 ^ (8 * r.size))
        (r.cmp.toNat % 2 ^ (8 * r.size))) := by
  have hv : r.data.toNat % 2 ^ (8 * r.size) < 2 ^ (8 * r.size) := Nat.mod_lt _ (Nat.two_pow_pos _)
  rw [← updated_eq_newValue _ (readBytes_lt_bits m r.cell r.size) hv h]
  exact writeBytes_storesOnly r.size m r.cell _ hm

theorem homePerforms : Stated.HomePerforms := by
  intro s r hm hr _
  refine ⟨exec_request_held, ?free, fun hb => ?_⟩
  case free => rintro (h | h) <;> simp [arrivalBanks, h]
  simp only [exec_request_performed hb hr]
  refine ⟨readBytes_eq_littleEndian s.mem r.size r.cell, ?load, ?store, ?atomic, ?update⟩
  case load =>
    intro g hg
    rw [perform_load hg, reply_answered]
  case store =>
    intro h
    refine ⟨_, by rw [perform_store h, reply_answered], ?_, writeBytes_wf r.size s.mem r.cell r.data.toNat hm⟩
    rw [Nat.pow_mul]
    exact storesOnly_mod (writeBytes_storesOnly r.size s.mem r.cell r.data.toNat hm)
  case atomic =>
    intro h
    refine ⟨updatedMem s.mem r, ?_, updatedMem_storesOnly hm (.inl h), updatedMem_wf r hm⟩
    rw [perform_atomic h, reply_answered, amoResult_eq r.op (readBytes_lt_bits s.mem r.cell r.size)]
  case update =>
    intro h
    refine ⟨updatedMem s.mem r, ?_, updatedMem_storesOnly hm (.inr h), updatedMem_wf r hm⟩
    rw [perform_update h, reply_answered]

/-! Why a home refuses (R159, R463, R464, R466, R492). -/

theorem refusal_retiredDie {s : State} {r : Request} (h : s.dieRetired (dieOf r.home) = true) :
    refusal s r = some 5#4 := by
  simp only [refusal, homeRefusal, h, if_true]

theorem refusal_retired {s : State} {r : Request} (h : (s.core r.home).health = .retired) :
    refusal s r = some 5#4 := by
  simp only [refusal, homeRefusal, h, ite_self]

theorem refusal_quarantined {s : State} {r : Request} (hd : ¬ s.dieRetired (dieOf r.home) = true)
    (h : (s.core r.home).health = .quarantined) : refusal s r = some 2#4 := by
  simp only [refusal, homeRefusal, if_neg hd, h]

/-- A good home on a good die. -/
theorem refusal_good {s : State} {r : Request} (hd : ¬ s.dieRetired (dieOf r.home) = true)
    (h : (s.core r.home).health = .good) : refusal s r =
      if r.mode = 2#2 ∧ hostsContext s r.home r.asid = false then some 1#4
      else if (opReads r.op = true ∧ r.cell / 64 ∈ s.poison) ∨ meetsError s (opReads r.op) (r.cell / 64) = true then some 3#4
      else none := by
  simp only [refusal, homeRefusal, hd, h, if_false, Bool.or_self, Bool.and_eq_true, beq_iff_eq, Bool.not_eq_true',
    List.contains_iff_mem, Bool.false_eq_true]
  split
  · rfl
  · by_cases hp : opReads r.op = true ∧ r.cell / 64 ∈ s.poison <;> simp [hp]

/-- A reading access meets every error of its line; any other meets a beat that was given up (R466, R467). -/
theorem meetsError_iff (s : State) (reads : Bool) (line : Nat) : meetsError s reads line = true ↔
    (reads = true ∧ (line, false) ∈ s.erring) ∨ (line, true) ∈ s.erring := by
  simp only [meetsError, List.any_eq_true, Bool.and_eq_true, beq_iff_eq, Bool.or_eq_true, Prod.exists]
  constructor
  · rintro ⟨l, b, hm, rfl, hb⟩
    cases b with
    | true => exact .inr hm
    | false => exact .inl ⟨by simpa using hb, hm⟩
  · rintro (⟨hr, hm⟩ | hm)
    · exact ⟨line, false, hm, rfl, .inl hr⟩
    · exact ⟨line, true, hm, rfl, .inr rfl⟩

theorem homeRefuses : Stated.HomeRefuses := by
  intro s r e he _ hb
  refine ⟨?retired, ?quarantined, ?absent, ?error⟩
  case retired =>
    rintro (h | h)
    · exact exec_request_refused hb he (refusal_retiredDie h)
    · exact exec_request_refused hb he (refusal_retired h)
  case quarantined =>
    intro hd h
    exact exec_request_refused hb he (refusal_quarantined hd h)
  case absent =>
    intro hd h hg hc
    exact exec_request_refused hb he (by rw [refusal_good hd h, if_pos ⟨hg, hc⟩])
  case error =>
    intro hd h hc hbad
    have hhost : ¬ (r.mode = 2#2 ∧ hostsContext s r.home r.asid = false) := by
      rintro ⟨hg, hn⟩
      simp [hc hg] at hn
    have hline : (opReads r.op = true ∧ r.cell / 64 ∈ s.poison) ∨ meetsError s (opReads r.op) (r.cell / 64) = true := by
      rw [meetsError_iff]
      exact hbad
    exact exec_request_refused hb he (by rw [refusal_good hd h, if_neg hhost, if_pos hline])

/-! The answer at the issuing core (R147, R158, R160, R161). -/

/-- The thread's access aid is no longer outstanding. -/
def accessEnded (s : State) (k aid : Nat) : State :=
  s.setThr k { s.thr k with outst := (s.thr k).outst.filter fun o => o.aid ≠ aid }

/-- The model's own spelling of it. -/
theorem accessEnded_eq (s : State) (k aid : Nat) :
    s.setThr k { s.thr k with outst := (s.thr k).outst.filter (·.aid != aid) } = accessEnded s k aid := by
  have h : (s.thr k).outst.filter (·.aid != aid) = (s.thr k).outst.filter fun o => o.aid ≠ aid :=
    List.filter_congr fun o _ => Bool.eq_iff_iff.mpr (by simp)
  rw [accessEnded, h]

/-- The answer of a refused access is recorded in its journal entry (R161). -/
def recorded (s : State) (r : Response) (e : Nat) (cause : BitVec 4) : State :=
  recordRefusal (accessEnded s r.key r.aid) (coreOf r.key) e (journalAt (s.core (coreOf r.key)) e) cause

section
variable {s : State} {r : Response} {e : Nat}

theorem receive_ack (he : r.jent = some e) (h : r.reply = .ack) :
    receive s r = setJournal (accessEnded s r.key r.aid) (coreOf r.key) e freeEntry := by
  simp only [receive, h, he, accessEnded_eq]

theorem receive_value {v : Word} {w : Nat} (he : r.jent = some e) (h : r.reply = .value v) (hw : r.wid = some w) :
    receive s r = arrive (setJournal (accessEnded s r.key r.aid) (coreOf r.key) e freeEntry) r.key w (.one v) := by
  simp only [receive, h, he, hw, accessEnded_eq]

theorem receive_refused_window {cause : BitVec 4} {w : Nat} (he : r.jent = some e) (h : r.reply = .refused cause)
    (hw : r.wid = some w) : receive s r = arrive (recorded s r e cause) r.key w (.refused e) := by
  simp only [receive, h, he, hw, accessEnded_eq]
  rfl

theorem receive_refused_posted {cause : BitVec 4} (he : r.jent = some e) (h : r.reply = .refused cause)
    (hw : r.wid = none) : receive s r = postRefusal (recorded s r e cause) r.key e := by
  simp only [receive, h, he, hw, accessEnded_eq]
  rfl

end

/-- Posting the refusal adds the entry and its address to the thread's POSTED traps: the record keeps both (R160, R161). -/
theorem postRefusal_recorded (s : State) (r : Response) (e : Nat) (cause : BitVec 4) :
    postRefusal (recorded s r e cause) r.key e = (recorded s r e cause).setThr r.key
      { (recorded s r e cause).thr r.key with
        posted := (s.thr r.key).posted ++ [(e, (journalAt (s.core (coreOf r.key)) e).ea)] } := by
  simp [postRefusal, recorded, recordRefusal, setJournal, accessEnded, journalAt]

theorem exec_result (s : State) (r : Response) : exec (.resultArrival r) s = .next (receive s r) := rfl

theorem answerArrives : Stated.AnswerArrives := by
  intro s r e he
  refine ⟨?ack, ?value, ?window, ?posted⟩
  case ack =>
    intro h
    rw [exec_result, receive_ack he h]
    rfl
  case value =>
    intro v w h hw
    rw [exec_result, receive_value he h hw]
    rfl
  case window =>
    intro cause w h hw
    rw [exec_result, receive_refused_window he h hw]
    rfl
  case posted =>
    intro cause h hw
    exact ⟨_, by rw [exec_result, receive_refused_posted he h hw], postRefusal_recorded s r e cause⟩

/-- Settles O39: the home performs by the kind of the access, refuses by the first cause that holds, and the answer frees
or keeps the journal entry. -/
theorem homeAtomics : Obligations.HomeAtomics := ⟨homePerforms, homeRefuses, answerArrives⟩

end Sys2Proof.Laws
end

section
/-! PROOFS. Kernels, threads and groups at issue, and the binds whose records they launch (R71 to R74, R316 to R318, R323,
R337 to R340). -/

namespace Sys2Proof.Laws

open Sys2Proof Sys2Proof.Machine

/-! Fields, and the ways in which an instruction of this part ends. -/

/-- A field at the bottom of a word. -/
theorem bitsAt_zero (w : Word) (n : Nat) : bitsAt w 0 n = w.toNat % 2 ^ n := by
  rw [bitsAt, Nat.pow_zero, Nat.div_one]

/-- A field that reaches to the top of a word. -/
theorem bitsAt_top (w : Word) {lo n : Nat} (h : lo + n = 64) : bitsAt w lo n = w.toNat / 2 ^ lo := by
  rw [bitsAt, Nat.mod_eq_of_lt]
  rw [Nat.div_lt_iff_lt_mul (Nat.two_pow_pos lo), ← Nat.pow_add, Nat.add_comm, h]
  exact w.isLt

theorem bitsAt_one (w : Word) (i : Nat) : bitsAt w i 1 = 1 ↔ w.getLsbD i = true := by
  rw [bitsAt, BitVec.getLsbD, Nat.testBit_eq_decide_div_mod_eq, decide_eq_true_eq, Nat.pow_one]

theorem accessesOver_eq (s : State) (k : Nat) : accessesOver s k = accessesDone s k := by
  simp only [accessesOver, accessesDone, List.not_any_eq_all_not]
  congr 2
  funext e
  split
  · simp only [payloadLoads, List.not_any_eq_all_not, bne]
  · rename_i h
    cases e with
    | payloadRead m rs => exact absurd rfl (h m rs)
    | _ => rfl

theorem finishEvent_eq_waitsFor (s : State) (i : Instr) (d : Reg) (holds : Bool) (x y : Word) :
    finishEvent s i d holds x y = waitsFor s i d (lookaheadOf i) holds x y := rfl

/-- The gate of an instruction that waits for the thread's accesses. -/
theorem afterAccesses_waiting {s : State} {go : Out} (h : accessesDone s s.cur = false) :
    afterAccesses s go = .next s := by
  rw [afterAccesses, accessesOver_eq, h]; rfl

theorem afterAccesses_done {s : State} {go : Out} (h : accessesDone s s.cur = true) : afterAccesses s go = go := by
  rw [afterAccesses, accessesOver_eq, h]; rfl

/-! kstat and kwait (R317, R318). -/

theorem recordFields_unplaced {x : KernelRec} (h : x.node = none) : recordFields x =
    fieldsWord [(kernelCode x.state, 60), (x.cause, 56), (x.late.toNat, 55), (x.bereaved.toNat, 54),
      (x.live % 2 ^ 16, 16)] := by
  simp only [recordFields, h]; rfl

theorem recordFields_placed {x : KernelRec} {n : Nat × Nat} (h : x.node = some n) : recordFields x =
    fieldsWord [(kernelCode x.state, 60), (x.cause, 56), (x.late.toNat, 55), (x.bereaved.toNat, 54), (n.2, 40), (n.1, 32),
      (x.live % 2 ^ 16, 16), (x.group.toNat, 0)] := by
  simp only [recordFields, h]; rfl

/-- The sum of the fields of a word, the first one split off. -/
theorem fieldsSum_cons (v k : Nat) (l : List (Nat × Nat)) :
    (((v, k) :: l).map fun x => x.1 * 2 ^ x.2).sum = v * 2 ^ k + (l.map fun x => x.1 * 2 ^ x.2).sum := by
  rw [List.map_cons, List.sum_cons]

/-- A flag of a word, in the model's spelling. -/
theorem flag_eq (b : Bool) (n : Nat) : (if b = true then 2 ^ n else 0) = b.toNat * 2 ^ n := by
  cases b <;> simp

theorem kernelWord_some {x : KernelRec} {asid : Option (BitVec 16)} (h : asid.any (· != x.asid) = false) :
    kernelWord (some x) asid = recordFields x := by
  simp only [kernelWord, h, Bool.false_eq_true, if_false, flag_eq]
  cases hn : x.node with
  | none =>
    rw [recordFields_unplaced hn, fieldsWord]
    refine congrArg (BitVec.ofNat 64) ?_
    simp only [fieldsSum_cons, List.map_nil, List.sum_nil]
    omega
  | some n =>
    rw [recordFields_placed hn, fieldsWord]
    refine congrArg (BitVec.ofNat 64) ?_
    simp only [fieldsSum_cons, List.map_nil, List.sum_nil]
    omega

theorem kernelWord_stale {x : KernelRec} {asid : Option (BitVec 16)} (h : asid.any (· != x.asid) = true) :
    kernelWord (some x) asid = fieldsWord [(15, 60)] := by
  simp only [kernelWord, h, if_true]; rfl

/-- The context test of kstat. -/
theorem any_ne_iff (asid : Option (BitVec 16)) (b : BitVec 16) :
    asid.any (· != b) = true ↔ ∃ a, asid = some a ∧ a ≠ b := by
  simp [Option.any_eq_true]

theorem kernelWord_recordNamed (s : State) (h : Nat) (asid : Option (BitVec 16)) :
    kernelWord (recordNamed s h) asid = recordWord s h asid := by
  simp only [recordNamed, recordWord, ← any_ne_iff]
  generalize s.record (h / 2 ^ 16 % 4) (h % 256) = x
  by_cases hu : x.used = true
  · by_cases hg : x.gen.toNat = h / 2 ^ 8 % 256
    · have hg' : x.gen.toNat = h / 256 % 256 := hg
      cases ha : asid.any (· != x.asid) with
      | true => simp [hu, hg', kernelWord_stale ha]
      | false => simp [hu, hg', kernelWord_some ha]
    · have hg' : ¬ x.gen.toNat = h / 256 % 256 := hg
      simp [hg']; rfl
  · simp [hu]; rfl

theorem readableAsid_eq (s : State) (k : Nat) : readableAsid s k = ownContext s k := by
  simp [readableAsid, ownContext, isSystem]

theorem exec_kstat {s : State} {d a : Reg} (h : ready (.kstat d a) s = true) : exec (.kstat d a) s =
    if 2 ^ 18 ≤ (readReg s s.cur a).toNat then trapped s kindADDRESS 0 (readReg s s.cur a)
    else wrote s d (recordWord s (readReg s s.cur a).toNat (ownContext s s.cur)) := by
  change issue (.kstat d a) s _ = _
  rw [issue_ready _ h]
  simp only [bitsAt_top _ (show 18 + 46 = 64 from rfl), kernelWord_recordNamed, readableAsid_eq]
  by_cases hx : 2 ^ 18 ≤ (readReg s s.cur a).toNat
  · rw [if_pos hx, if_pos (by omega)]; rfl
  · rw [if_neg hx, if_neg (by omega)]; rfl

theorem exec_kwait {s : State} {d a : Reg} {lk : BitVec 4} (h : ready (.kwait d a lk) s = true) :
    exec (.kwait d a lk) s =
      if 2 ^ 18 ≤ (readReg s s.cur a).toNat then trapped s kindADDRESS 0 (readReg s s.cur a)
      else waitsFor s (.kwait d a lk) d lk true (readReg s s.cur a) 0#64 := by
  change issue (.kwait d a lk) s _ = _
  rw [issue_ready _ h]
  simp only [bitsAt_top _ (show 18 + 46 = 64 from rfl), finishEvent_eq_waitsFor]
  by_cases hx : 2 ^ 18 ≤ (readReg s s.cur a).toNat
  · rw [if_pos hx, if_pos (by omega)]; rfl
  · rw [if_neg hx, if_neg (by omega)]; rfl

theorem kernelWords : Stated.KernelWords := by
  intro s d a lk
  exact ⟨⟨opOf_wordR .., fnOf_wordR .., lkOf_wordR .., RoundTrip.kstat d a rfl⟩,
    ⟨opOf_wordR .., fnOf_wordR .., lkOf_wordR .., RoundTrip.kwait d a lk rfl⟩, exec_kstat, exec_kwait⟩

/-! launch and tlaunch (R316). -/

theorem isSystem_iff (c : Nat) : isSystem c = true ↔ 1024 ≤ c := by rw [isSystem, decide_eq_true_eq]

theorem mem_upTo {n i : Nat} : i ∈ upTo n ↔ i < n := by simp [upTo]

theorem readWords_eq_map (m : List Host.Cell) (n : Nat) : ∀ a,
    readWords m a n = (List.range n).map fun i => readWord m (a + 8 * i) := by
  induction n with
  | zero => intro a; rfl
  | succ n ih =>
    intro a
    simp only [readWords, ih, List.range_succ_eq_map, List.map_cons, List.map_map, Nat.mul_zero, Nat.add_zero]
    refine congrArg _ (List.map_congr_left fun i _ => ?_)
    rw [Function.comp_apply, show a + 8 + 8 * i = a + 8 * i.succ by omega]

/-- A pool with no free record gives none. -/
theorem freeRecord_full {s : State} {die : Nat} (h : ∀ ix, ¬ (ix < 256 ∧ (s.record die ix).used = false)) :
    freeRecord s die = none := by
  have hnil : ((upTo 256).filter fun i => !(s.record die i).used) = [] := by
    rw [List.filter_eq_nil_iff]
    intro i hi hu
    exact h i ⟨mem_upTo.mp hi, by simpa using hu⟩
  simp only [freeRecord, hnil, List.getElem?_nil]

/-- Where a record is free, the pool gives a free one (log 6). -/
theorem freeRecord_free {s : State} {die : Nat} (h : ∃ ix, ix < 256 ∧ (s.record die ix).used = false) :
    ∃ ix, freeRecord s die = some ix ∧ ix < 256 ∧ (s.record die ix).used = false := by
  obtain ⟨i, hi, hu⟩ := h
  have hpos : 0 < ((upTo 256).filter fun i => !(s.record die i).used).length :=
    List.length_pos_of_mem (List.mem_filter.mpr ⟨mem_upTo.mpr hi, by simp [hu]⟩)
  have hlt := Nat.mod_lt (Config.choice s.nonce) hpos
  have hmem := List.getElem_mem hlt
  rw [List.mem_filter, mem_upTo] at hmem
  exact ⟨_, List.getElem?_eq_getElem hlt, hmem.1, by simpa using hmem.2⟩

theorem enterState_eq_recordReleased (s : State) (x : KernelRec) : enterState s x = recordReleased s x := by
  simp only [enterState, recordReleased, BitVec.ult, decide_eq_true_eq]

theorem recordReleased_gen (s : State) (x : KernelRec) : (recordReleased s x).gen = x.gen := by
  simp only [recordReleased]; split <;> rfl

/-- The lowest flag of a launch record (R68). -/
theorem timedFlag_eq (w : Word) : (bitsAt w 32 32 % 2 == 1) = w.getLsbD 32 := by
  rw [bitsAt_top w rfl, BitVec.getLsbD, Nat.testBit_eq_decide_div_mod_eq]
  rfl

/-- The handle of a record (R307). -/
theorem handle_eq (die ix : Nat) (gen : BitVec 8) : BitVec.ofNat 64 (die * 2 ^ 16 + gen.toNat * 2 ^ 8 + ix) =
    fieldsWord [(die, 16), (gen.toNat, 8), (ix, 0)] := by
  simp only [fieldsWord, fieldsSum_cons, List.map_nil, List.sum_nil, Nat.pow_zero, Nat.mul_one, Nat.add_zero, Nat.add_assoc]

/-- The eight doublewords of a launch record. -/
def recordWords (s : State) (cell : Nat) : List Word := (List.range 8).map fun i => readWord s.mem (cell + 8 * i)

section
variable (s : State) (die ix : Nat) (asid : BitVec 16) (e : KernelEntry) (ea cell : Nat) (start : Option Word) (detach : Bool)

theorem acceptLaunch_now : acceptLaunch s die ix asid e ea (recordWords s cell) start detach none =
    (s.setRecord die ix (recordReleased s (allocated (s.record die ix) asid e ea (recordWords s cell) start detach)),
      fieldsWord [(die, 16), ((allocated (s.record die ix) asid e ea (recordWords s cell) start detach).gen.toNat, 8),
        (ix, 0)]) := by
  simp only [acceptLaunch, timedFlag_eq, enterState_eq_recordReleased, Option.isSome_none, Bool.false_eq_true, if_false,
    recordReleased_gen, handle_eq]
  rfl

theorem acceptLaunch_awaiting (p : Nat) : acceptLaunch s die ix asid e ea (recordWords s cell) start detach (some p) =
    (s.setRecord die ix { allocated (s.record die ix) asid e ea (recordWords s cell) start detach with
        state := .awaiting, await := some p },
      fieldsWord [(die, 16), ((allocated (s.record die ix) asid e ea (recordWords s cell) start detach).gen.toNat, 8),
        (ix, 0)]) := by
  simp only [acceptLaunch, timedFlag_eq, Option.isSome_some, if_true, handle_eq]
  rfl

end

/-- The issuer may not name the context (R316, R476). -/
theorem mayNotName_iff (s : State) (asid : BitVec 16) :
    ((!isSystem (coreOf s.cur)) = true ∧ asid ≠ (s.thr s.cur).asid ∨ (!guestOwns s s.cur asid) = true) ↔
      ¬ ((coreOf s.cur < 1024 → asid = (s.thr s.cur).asid) ∧ guestOwns s s.cur asid = true) := by
  simp only [isSystem, Bool.not_eq_true', decide_eq_false_iff_not, Nat.not_le, ne_eq, not_and_or, Classical.not_imp,
    Bool.not_eq_true]

/-- The die has no place for the kernel, ever (R316). -/
theorem noPlace_iff (s : State) (asid : BitVec 16) (die : Nat) (e : KernelEntry) :
    (s.dieRetired die = true ∨ (!(kernelNodes e).any (nodeInPartition s asid die)) = true) ↔
      ¬ (s.dieRetired die = false ∧ ∃ n ∈ kernelNodes e, nodeInPartition s asid die n = true) := by
  rw [Bool.not_eq_true', ← Bool.not_eq_true, List.any_eq_true, not_and_or, Bool.not_eq_false]

/-- The step of a launch at the pool, refusal by refusal in the order of R316, and then the record. -/
theorem launchStep_launched {s : State} {x y : Word} (start : Option Word) (hx : x.toNat / 2 ^ 52 = 0) :
    launched s x y start (launchStep s s.cur x y start).1 (launchStep s s.cur x y start).2 := by
  have hea : addrOf x = x.toNat := by rw [addrOf, bitsAt_zero]; omega
  have hw : ∀ cell, readWords s.mem cell 8 = recordWords s cell := readWords_eq_map s.mem 8
  have hrec : ∀ cell, ((List.range 8).map fun i => readWord s.mem (cell + 8 * i)) = recordWords s cell := fun _ => rfl
  simp only [launched, launchStep, hea, hw, hrec, bitsAt_zero, show bitsAt y 16 2 = y.toNat / 2 ^ 16 % 4 from rfl, bitsAt_one]
  generalize (if y.toNat % 2 ^ 16 = 0 then (s.thr s.cur).asid else y.extractLsb' 0 16) = asid
  generalize (if y.getLsbD 18 = true then y.toNat / 2 ^ 16 % 4 else dieOf (coreOf s.cur)) = die
  simp only [mayNotName_iff]
  refine ⟨?name, ?full, ?record⟩
  case name =>
    intro h
    rw [if_pos h]
    exact ⟨rfl, rfl⟩
  case full =>
    intro h hfull
    rw [if_neg (not_not.mpr h), freeRecord_full hfull]
    exact ⟨rfl, rfl⟩
  case record =>
    intro h hfree
    obtain ⟨ix, hix, hlt, hu⟩ := freeRecord_free hfree
    rw [if_neg (not_not.mpr h), hix]
    dsimp only
    refine ⟨?absent, ?refuses, ?read⟩
    case absent =>
      rintro (hb | hp)
      · rw [hb]; exact ⟨rfl, rfl⟩
      · rw [hp]
        cases boundRecord s asid x.toNat <;> exact ⟨rfl, rfl⟩
    case refuses =>
      intro bound p hb hp hr
      rw [hb, hp]
      dsimp only
      rw [if_pos (Option.isSome_iff_ne_none.mpr hr)]
      exact ⟨rfl, rfl⟩
    case read =>
      intro bound p hb hp hr
      rw [hb, hp]
      dsimp only
      simp only [hr, Option.isSome_none, Bool.false_eq_true, if_false]
      refine ⟨fun hk => by rw [hk]; exact ⟨rfl, rfl⟩, fun e he => ?_⟩
      rw [he]
      dsimp only
      have hplace := noPlace_iff s asid die e
      refine ⟨fun hn => by rw [if_pos (hplace.mpr hn)]; exact ⟨rfl, rfl⟩, fun hn hf hc => ?_, fun hn hc => ⟨ix, ⟨hlt, hu⟩, ?_⟩⟩
      · rw [if_neg fun h' => hplace.mp h' hn, if_pos hf, hc]
        exact ⟨rfl, rfl⟩
      · rw [if_neg fun h' => hplace.mp h' hn]
        by_cases hf : ((recordWords s p.cell).getD 0 0#64).getLsbD 33 = true
        · obtain ⟨cell, hcell⟩ := Option.ne_none_iff_exists'.mp (hc hf)
          rw [if_pos hf, if_pos hf, hcell]
          dsimp only
          rw [acceptLaunch_awaiting]
          exact ⟨rfl, rfl⟩
        · rw [if_neg hf, if_neg hf, acceptLaunch_now]
          exact ⟨rfl, rfl⟩

/-- START: tlaunch reads it from d at issue, launch has none. -/
def launchStart (s : State) (d : Reg) (timed : Bool) : Option Word := if timed then some (readReg s s.cur d) else none

section
variable {s : State} {i : Instr} {d a b : Reg} {timed : Bool}

theorem launchWith_ready (h : ready i s = true) : launchWith i d a b timed s =
    let x := readReg s s.cur a
    let y := readReg s s.cur b
    if x.toNat / 2 ^ 52 ≠ 0 ∨ x.toNat % 64 ≠ 0 then trapped s kindADDRESS 0 x
    else if y.toNat / 2 ^ 20 ≠ 0 ∨ (1024 ≤ coreOf s.cur ∧ (y.toNat % 2 ^ 16 = 0 ∨ y.getLsbD 18 = false)) then
      trapped s kindADDRESS 0 y
    else afterAccesses s (opened (launchStep s s.cur x y (launchStart s d timed)).1 i d (lookaheadOf i)
      (launchStep s s.cur x y (launchStart s d timed)).2) := by
  rw [launchWith, issue_ready _ h]
  simp only [bitsAt_zero, bitsAt_top _ (show 52 + 12 = 64 from rfl), bitsAt_top _ (show 20 + 44 = 64 from rfl),
    isSystem_iff, Bool.not_eq_true']
  rfl

theorem launchWith_trap (h : ready i s = true) (hf : ¬ launchFits s (readReg s s.cur a) (readReg s s.cur b)) :
    launchWith i d a b timed s = trapped s kindADDRESS 0
      (if (readReg s s.cur a).toNat / 2 ^ 52 ≠ 0 ∨ (readReg s s.cur a).toNat % 64 ≠ 0 then readReg s s.cur a
       else readReg s s.cur b) := by
  rw [launchWith_ready h]
  dsimp only
  by_cases hx : (readReg s s.cur a).toNat / 2 ^ 52 ≠ 0 ∨ (readReg s s.cur a).toNat % 64 ≠ 0
  · rw [if_pos hx, if_pos hx]
  · rw [if_neg hx, if_neg hx, if_pos]
    by_contra hy
    simp only [launchFits] at hf
    simp only [not_or, not_and, ne_eq, not_not, Bool.not_eq_false] at hx hy
    exact hf ⟨hx.1, hx.2, hy.1, hy.2⟩

theorem launchWith_fits (h : ready i s = true) (hf : launchFits s (readReg s s.cur a) (readReg s s.cur b)) :
    launchWith i d a b timed s = afterAccesses s
      (opened (launchStep s s.cur (readReg s s.cur a) (readReg s s.cur b) (launchStart s d timed)).1 i d (lookaheadOf i)
        (launchStep s s.cur (readReg s s.cur a) (readReg s s.cur b) (launchStart s d timed)).2) := by
  obtain ⟨hx, hx', hy, hsys⟩ := hf
  rw [launchWith_ready h]
  dsimp only
  rw [if_neg, if_neg]
  · rintro (h' | ⟨hc, h0 | h18⟩)
    · exact h' hy
    · exact (hsys hc).1 h0
    · exact absurd (h18.symm.trans (hsys hc).2) Bool.false_ne_true
  · rintro (h' | h')
    · exact h' hx
    · exact h' hx'

/-- What both launches do at issue (R316). -/
theorem launchWith_results (h : ready i s = true) :
    let x := readReg s s.cur a
    let y := readReg s s.cur b
    (¬ launchFits s x y → launchWith i d a b timed s = trapped s kindADDRESS 0
      (if x.toNat / 2 ^ 52 ≠ 0 ∨ x.toNat % 64 ≠ 0 then x else y)) ∧
    (launchFits s x y → accessesDone s s.cur = false → launchWith i d a b timed s = .next s) ∧
    (launchFits s x y → accessesDone s s.cur = true → ∃ u v,
      launchWith i d a b timed s = opened u i d (lookaheadOf i) v ∧ launched s x y (launchStart s d timed) u v) :=
  ⟨launchWith_trap h, fun hf hw => by rw [launchWith_fits h hf, afterAccesses_waiting hw],
    fun hf hd => ⟨_, _, by rw [launchWith_fits h hf, afterAccesses_done hd], launchStep_launched _ hf.1⟩⟩

end

theorem launchResults : Stated.LaunchResults := by
  intro s d a b lk x y bad row hrow
  simp only [List.mem_cons, List.not_mem_nil, or_false] at hrow
  rcases hrow with rfl | rfl
  · exact ⟨⟨opOf_wordR .., fnOf_wordR .., lkOf_wordR .., RoundTrip.launch d a b lk rfl⟩,
      launchWith_results (timed := false)⟩
  · exact ⟨⟨opOf_wordR .., fnOf_wordR .., lkOf_wordR .., RoundTrip.tlaunch d a b lk rfl⟩,
      launchWith_results (timed := true)⟩

/-! Binds and unbinds (R71 to R74). -/

/-- The contents that a bind writes leave the binds as they were. -/
theorem writeContext_bound (asid : BitVec 16) (l : List Byte) : ∀ (s : State) (ea : Nat),
    (writeContext asid s ea l).bound = s.bound := by
  induction l with
  | nil => intro s ea; rfl
  | cons b l ih =>
    intro s ea
    simp only [writeContext]
    split
    · rfl
    · rw [ih]
      split
      · rfl
      · rfl

theorem writeSections_bound (asid : BitVec 16) (l : List (List Byte × Option Nat)) (s : State) :
    (l.foldl (fun s x => match x.2 with
      | some a => writeContext asid s a x.1
      | none => s) s).bound = s.bound := by
  refine List.foldlRecOn l _ (motive := fun t : State => t.bound = s.bound) rfl fun t ht x _ => ?_
  split
  · rw [writeContext_bound, ht]
  · exact ht

theorem unmap_bound (asid : BitVec 16) (s : State) (ea : Nat) : (unmap asid s ea).bound = s.bound := by
  simp only [unmap]
  split <;> rfl

theorem unmapAll_bound (asid : BitVec 16) (l : List Nat) (s : State) : (l.foldl (unmap asid) s).bound = s.bound :=
  List.foldlRecOn l _ (motive := fun t : State => t.bound = s.bound) rfl fun t ht x _ => (unmap_bound asid t x).trans ht

/-- The bind that enters (R71): the context's, with an entry for each kernel and a place for each record. -/
theorem bindEnters_bound {m : State} (asid : BitVec 16) (f : List Byte) (globals : List (List Byte × Word))
    (at_ : List (Option Nat)) (area : Nat) (cs : List (List Byte)) :
    ∃ b, (bindEnters m asid f globals at_ area cs).bound = m.bound ++ [b] ∧ b.asid = asid ∧
      b.records.length = (entries f 7 64).length ∧ b.kernels.length = (entries f 6 32).length ∧
      ∀ j < b.records.length, b.records[j]? = some (area + 64 * j) := by
  refine ⟨_, congrArg (· ++ [_]) (writeSections_bound asid (cs.zip at_) m), rfl, ?_, ?_, fun j hj => ?_⟩
  · simp [upTo]
  · simp
  · simp only [List.length_map, upTo, List.length_range'] at hj
    simp [upTo, hj]

/-- What a bind request can end in (R71): it reports a failure, FORMAT where the format fails, or the sheaf enters. -/
def BindAnswered (s : State) (asid : BitVec 16) (f : List Byte) (area : Nat) (u : State) : Prop :=
  (∃ n, 1 ≤ n ∧ n ≤ 7 ∧ (sheafOk f = false → n = 1) ∧ u = bindReports s asid n) ∨
  (sheafOk f = true ∧ ∃ m globals at_ cs, m.bound = s.bound ∧ u = bindEnters m asid f globals at_ area cs)

/-- A failure of a later step than the format's. -/
theorem bindAnswered_fails {s : State} {asid : BitVec 16} {f : List Byte} {area n : Nat} (hf : sheafOk f = true)
    (h1 : 1 ≤ n) (h7 : n ≤ 7) : BindAnswered s asid f area (bindReports s asid n) :=
  .inl ⟨n, h1, h7, fun h => Bool.noConfusion (hf.symm.trans h), rfl⟩

theorem bindRequest_answered (s : State) (asid : BitVec 16) (f : List Byte) (bases : List Nat) (area : Nat)
    (stores : List (Nat × Word)) : BindAnswered s asid f area (bindRequest s asid f bases area stores) := by
  cases hf : sheafOk f with
  | false => exact .inl ⟨bindFORMAT, by decide, by decide, fun _ => rfl, by simp [bindRequest, hf]⟩
  | true =>
    simp only [bindRequest, hf, Bool.not_true, Bool.false_eq_true, if_false]
    split
    · exact bindAnswered_fails (n := bindKEY) hf (by decide) (by decide)
    split
    · exact bindAnswered_fails (n := bindSIGNATURE) hf (by decide) (by decide)
    split
    · exact bindAnswered_fails (n := bindSPACE) hf (by decide) (by decide)
    split
    · exact bindAnswered_fails (n := bindUNRESOLVED) hf (by decide) (by decide)
    split
    · exact bindAnswered_fails (n := bindDUPSYM) hf (by decide) (by decide)
    split
    · exact bindAnswered_fails (n := bindRANGE) hf (by decide) (by decide)
    · refine .inr ⟨hf, _, _, _, _, ?_, rfl⟩
      rfl

/-! What keeps a sheaf bound (R74). -/

theorem inCode_iff (b : Bound) (a : Nat) :
    b.inCode a = true ↔ ∃ x ∈ b.sections, x.1 = 1 ∧ x.2.1 ≤ a ∧ a < x.2.1 + x.2.2 := by
  simp only [Bound.inCode, List.any_eq_true, Bool.and_eq_true, beq_iff_eq, decide_eq_true_eq, and_assoc]

/-- A list of one number, and of two more that stand in it under conditions. -/
theorem exists_mem_pcs (p : Nat → Prop) (a b e : Nat) {c d : Prop} [Decidable c] [Decidable d] :
    (∃ x ∈ a :: ((if c then [b] else []) ++ (if d then [e] else [])), p x) ↔ p a ∨ (c ∧ p b) ∨ (d ∧ p e) := by
  by_cases hc : c <;> by_cases hd : d <;> simp [hc, hd]

theorem exists_heldPcs (p : Nat → Prop) (t : Thread) : (∃ a ∈ heldPcs t, p a) ↔
    p t.pc.toNat ∨ (t.uin = true ∧ p t.upc.toNat) ∨
      ((t.sstate = .trapped ∨ t.sstate = .pagewait) ∧ p t.epc.toNat) := exists_mem_pcs ..

/-- The PCs that a saved thread's record holds (R291). -/
theorem exists_savedPcs (p : Nat → Prop) (s : State) (cell : Nat) : (∃ a ∈ savedPcs s cell, p a) ↔
    p (readWord s.mem (cell + 8)).toNat ∨
      ((readWord s.mem (cell + 0)).toNat / 2 ^ 58 % 8 = 2 ∧ p (readWord s.mem (cell + 0xA8)).toNat) ∨
      ((readWord s.mem (cell + 0x68)).getLsbD 8 = true ∧ p (readWord s.mem (cell + 0x70)).toNat) := exists_mem_pcs ..

/-- The four of R74: a kernel under way, a thread in a slot, a saved thread, another bind that uses a symbol. -/
theorem bindHeld_iff (s : State) (b : Bound) (code : Nat → Prop) (hc : ∀ a, b.inCode a = true ↔ code a) :
    bindHeld s b = true ↔
      (∃ die < 4, ∃ x ∈ (s.die die).pool, x.2.used = true ∧ x.2.asid = b.asid ∧ x.2.record ∈ b.records ∧
        x.2.state ≠ .done ∧ x.2.state ≠ .faulted) ∨
      (∃ x ∈ s.threads, x.2.sstate ≠ .empty ∧ x.2.sstate ≠ .ended ∧ x.2.asid = b.asid ∧
        (code x.2.pc.toNat ∨ (x.2.uin = true ∧ code x.2.upc.toNat) ∨
          ((x.2.sstate = .trapped ∨ x.2.sstate = .pagewait) ∧ code x.2.epc.toNat))) ∨
      (∃ x ∈ savedRecords s b.asid, code (readWord s.mem (x.2.2 + 8)).toNat ∨
        ((readWord s.mem (x.2.2 + 0)).toNat / 2 ^ 58 % 8 = 2 ∧ code (readWord s.mem (x.2.2 + 0xA8)).toNat) ∨
        ((readWord s.mem (x.2.2 + 0x68)).getLsbD 8 = true ∧ code (readWord s.mem (x.2.2 + 0x70)).toNat)) ∨
      ∃ y ∈ s.bound, b.id ∈ y.uses := by
  simp only [bindHeld, Bool.or_eq_true, List.any_eq_true, exists_heldPcs, exists_savedPcs, hc, mem_upTo, Bool.and_eq_true,
    beq_iff_eq, bne_iff_ne, List.contains_iff_mem, Thread.lives, and_assoc, or_assoc, ne_eq]

theorem findFirst_append_cons {α : Type} {p : α → Bool} {pre : List α} {x : α} {post : List α}
    (hpre : ∀ y ∈ pre, p y = false) (hx : p x = true) : findFirst p (pre ++ x :: post) = some x := by
  induction pre with
  | nil => simp [findFirst, hx]
  | cons y pre ih =>
    rw [List.cons_append, findFirst, hpre y List.mem_cons_self, if_neg Bool.false_ne_true]
    exact ih fun z hz => hpre z (List.mem_cons_of_mem y hz)

theorem findFirst_eq_none {α : Type} {p : α → Bool} {l : List α} (h : ∀ y ∈ l, p y = false) : findFirst p l = none := by
  induction l with
  | nil => rfl
  | cons y l ih =>
    rw [findFirst, h y List.mem_cons_self, if_neg Bool.false_ne_true]
    exact ih fun z hz => h z (List.mem_cons_of_mem y hz)

theorem bindsAnswer : Stated.BindsAnswer := by
  intro s asid reports
  refine ⟨fun f bases area stores => ?bind, fun id hno => ?unknown, fun pre b post hb ha hpre => ?unbind⟩
  case bind =>
    refine ⟨bindRequest s asid f bases area stores, ?_⟩
    rcases bindRequest_answered s asid f bases area stores with ⟨n, h1, h7, hf, h⟩ | ⟨hf, m, globals, at_, cs, hm, h⟩
    · exact ⟨n, h7, rfl, by rw [h]; rfl, fun _ => h, hf, fun h0 => absurd h0 (by omega)⟩
    · obtain ⟨b, hb⟩ := bindEnters_bound (m := m) asid f globals at_ area cs
      refine ⟨0, by decide, rfl, by rw [h]; rfl, fun h0 => absurd rfl h0, fun h' => Bool.noConfusion (hf.symm.trans h'),
        fun _ => ⟨b, ?_⟩⟩
      rwa [h, ← hm]
  case unknown =>
    have hnone : findFirst (fun (b : Bound) => b.asid == asid && b.id == id) s.bound = none :=
      findFirst_eq_none fun b hb => by simpa [← Bool.not_eq_true] using hno b hb
    simp only [runEvent, unbindRequest, hnone]
  case unbind =>
    have hsome : findFirst (fun (x : Bound) => x.asid == asid && x.id == b.id) s.bound = some b := by
      rw [hb]
      exact findFirst_append_cons (fun x hx => by simpa [← Bool.not_eq_true] using hpre x hx) (by simp [ha])
    intro e code runs holds word saved used
    have hheld : bindHeld s b = true ↔ runs ∨ holds ∨ saved ∨ used := by
      have h := bindHeld_iff s b code (inCode_iff b)
      rw [ha] at h
      exact h
    refine ⟨fun h => ?_, fun hr hh hs hu => ?_⟩
    · simp only [e, runEvent, unbindRequest, hsome, if_pos (hheld.mpr h)]
      rfl
    · have hfree : ¬ bindHeld s b = true := fun h => by
        rcases hheld.mp h with h | h | h | h
        exacts [hr h, hh h, hs h, hu h]
      refine ⟨_, rfl, ?_⟩
      simp only [unbindRequest, hsome, if_neg hfree]
      refine ⟨rfl, (congrArg _ (unmapAll_bound asid _ s)).trans (List.filter_congr fun y _ => ?_)⟩
      exact Bool.eq_iff_iff.mpr (by simp)

/-! The group table. -/

@[simp] theorem group_setGroup_same (s : State) (g : BitVec 16) (x : Group) : (s.setGroup g x).group g = x := by
  simp [State.setGroup, State.group]

/-- A write of a kernel record leaves the groups. -/
@[simp] theorem group_setRecord (s : State) (die ix : Nat) (x : KernelRec) (g : BitVec 16) :
    (s.setRecord die ix x).group g = s.group g := by
  simp only [State.group, State.setRecord]
  by_cases h : groupDie g = die
  · rw [h, die_setDie_same]
  · rw [die_setDie_other _ _ _ _ h]

/-- Everything that the end of a member may touch: the dies. -/
theorem memberEnds_touches (s : State) (g : BitVec 16) (a : GroupAct) : ∃ di, memberEnds s g a = { s with dies := di } := by
  have record : ∀ (u : State) (die ix : Nat) (x : KernelRec), (∃ di, u = { s with dies := di }) →
      ∃ di, u.setRecord die ix x = { s with dies := di } := by
    rintro _ die ix x ⟨di, rfl⟩; exact ⟨_, rfl⟩
  simp only [memberEnds, setLive]
  split
  · exact ⟨s.dies, rfl⟩
  split
  · exact ⟨_, rfl⟩
  split
  · exact ⟨_, rfl⟩
  split
  · exact record _ _ _ _ ⟨_, rfl⟩
  · exact ⟨_, rfl⟩

/-- LIVE of the group, wherever else the count goes (R322). -/
theorem setLive_group (s : State) (g : BitVec 16) (n : Nat) : (setLive s g n).group g = { s.group g with live := n } := by
  simp only [setLive]
  split
  · exact group_setGroup_same ..
  split
  · rw [group_setRecord, group_setGroup_same]
  · exact group_setGroup_same ..

/-- An ACTIVE group takes the act at its next edge (R323). -/
theorem memberEnds_active {s : State} {g : BitVec 16} (a : GroupAct) (h : s.groupHeld g = true)
    (hs : (s.group g).state = .active) :
    (memberEnds s g a).group g = { s.group g with acts := (s.group g).acts ++ [a] } := by
  simp [memberEnds, h, hs]

/-- Of a DRAINING group LIVE falls at once (R323). -/
theorem memberEnds_draining {s : State} {g : BitVec 16} (a : GroupAct) (h : s.groupHeld g = true)
    (hs : (s.group g).state ≠ .active) :
    (memberEnds s g a).group g = { s.group g with live := (s.group g).live - 1 } := by
  simp [memberEnds, h, hs, setLive_group]

/-! exit (R338). -/

/-- A field that a change of every value leaves reads as before. -/
theorem tabGet_map_field {α β : Type} (dflt : α) (p : α → β) (f : Nat × α → Nat × α)
    (hf : ∀ x, (f x).1 = x.1 ∧ p (f x).2 = p x.2) (t : Tab α) (k : Nat) :
    p (tabGet dflt (t.map f) k) = p (tabGet dflt t k) := by
  induction t with
  | nil => rfl
  | cons x t ih =>
    obtain ⟨hk, hp⟩ := hf x
    simp only [List.map_cons, tabGet, hk]
    split
    · exact hp
    · exact ih

/-- The waiters that a thread's end drops leave the groups as they were. -/
theorem dropWaiters_group (s : State) (k : Nat) (g : BitVec 16) : (dropWaiters s k).group g = s.group g := by
  have h : ((dropWaiters s k).die (groupDie g)).groups = (s.die (groupDie g)).groups := by
    simp only [State.die, dropWaiters]
    refine tabGet_map_field Die.reset Die.groups _ ?_ s.dies (groupDie g)
    exact fun _ => ⟨rfl, rfl⟩
  rw [State.group, State.group, h]

/-- A thread for which no Meadow instruction waits leaves the steps under way. -/
theorem dropWaiters_work {s : State} {k : Nat} (h : ∀ r, .meadowApply r ∈ s.work → r.key ≠ k) :
    (dropWaiters s k).work = s.work := by
  refine (List.map_congr_left fun e he => ?_).trans (List.map_id s.work)
  split
  · next r => simp [leftBy, h r he]
  · rfl

theorem groupHeld_congr {s t : State} {g : BitVec 16} (h : s.group g = t.group g) : s.groupHeld g = t.groupHeld g := by
  rw [State.groupHeld, State.groupHeld, h]

theorem userKey_iff (k : Nat) : userKey k = true ↔ coreOf k < 1024 ∧ k % 8 < 7 := by
  simp only [userKey, isSystem, Bool.and_eq_true, Bool.not_eq_true', decide_eq_false_iff_not, decide_eq_true_eq,
    Nat.not_le]
  rfl

/-- The thread as its exit leaves it. -/
def exited (t : Thread) : Thread :=
  { t with sstate := .ended, windows := [], frozen := [], held := [], posted := [], sleep := none, killed := false }

/-- The machine as the thread's own part of its exit leaves it. -/
def exitedState (s : State) : State := (dropWaiters s s.cur).setThr s.cur (exited (s.thr s.cur))

theorem exitedState_group (s : State) (g : BitVec 16) : (exitedState s).group g = s.group g := dropWaiters_group s s.cur g

theorem exec_exit {s : State} (h : ready .exit s = true) : exec .exit s =
    .next ((if userKey s.cur then memberEnds (exitedState s) (s.thr s.cur).group .exit else exitedState s).later
      (.slotVacate s.cur)) := by
  change issue .exit s _ = _
  rw [issue_ready _ h]
  rfl

theorem exitEnds : Stated.ExitEnds := by
  intro s h k t x member work
  refine ⟨⟨opOf_wordR .., fnOf_wordR .., lkOf_wordR .., RoundTrip.exit rfl⟩, _, exec_exit h, ?_⟩
  have hg : (exitedState s).group t.group = x := exitedState_group s t.group
  have hheld : (exitedState s).groupHeld t.group = s.groupHeld t.group := groupHeld_congr hg
  -- the group aside, the state is that of the thread's own part
  have frame : ∃ di, (if userKey s.cur then memberEnds (exitedState s) t.group .exit else exitedState s) =
      { exitedState s with dies := di } := by
    split
    · exact memberEnds_touches ..
    · exact ⟨_, rfl⟩
  obtain ⟨di, hu⟩ := frame
  refine ⟨?thr, ?others, ?mem, ?work, ?active, ?draining, dropWaiters_work⟩
  case thr => rw [hu]; exact thr_setThr_same ..
  case others => intro j hj; rw [hu]; exact thr_setThr_other _ _ _ _ hj
  case mem => rw [hu]; rfl
  case work => rw [hu]; rfl
  case active =>
    rintro ⟨hc, h7, hgh⟩ hs
    rw [if_pos ((userKey_iff _).mpr ⟨hc, h7⟩)]
    exact (memberEnds_active .exit (hheld.trans hgh) (hg ▸ hs)).trans (by rw [hg])
  case draining =>
    rintro ⟨hc, h7, hgh⟩ hs
    rw [if_pos ((userKey_iff _).mpr ⟨hc, h7⟩)]
    exact (memberEnds_draining .exit (hheld.trans hgh) (hg ▸ hs)).trans (by rw [hg])

/-! kill and gstat (R339, R340). -/

theorem nameOk_eq_nameFits (n : Nat) : nameOk n = nameFits n := by
  refine Bool.eq_iff_iff.mpr ?_
  simp only [nameOk, nameSystem, nameFits, Bool.and_eq_true, Bool.or_eq_true, Bool.not_eq_true', bne_iff_ne, beq_iff_eq,
    beq_eq_false_iff_ne, decide_eq_true_eq, and_assoc, ne_eq, imp_iff_not_or]

/-- The field of operand b that names a context. -/
theorem extract_eq_ofNat (w : Word) (lo n : Nat) : w.extractLsb' lo n = BitVec.ofNat n (w.toNat / 2 ^ lo % 2 ^ n) := by
  apply BitVec.eq_of_toNat_eq
  rw [BitVec.extractLsb'_toNat, BitVec.toNat_ofNat, Nat.mod_mod, Nat.shiftRight_eq_div_pow]

theorem namedAsid_eq_fieldContext (s : State) (w : Word) :
    namedAsid s s.cur (w.extractLsb' 16 16) = fieldContext s (w.toNat / 2 ^ 16 % 2 ^ 16) := by
  have h0 : BitVec.ofNat 16 (w.toNat / 2 ^ 16 % 2 ^ 16) = 0#16 ↔ w.toNat / 2 ^ 16 % 2 ^ 16 = 0 := by
    rw [← BitVec.toNat_inj, BitVec.toNat_ofNat, Nat.mod_mod]; rfl
  simp only [namedAsid, fieldContext, isSystem_iff, extract_eq_ofNat, h0]

theorem extract_zero_eq_setWidth (w : Word) (n : Nat) : w.extractLsb' 0 n = w.setWidth n := by
  rw [extract_eq_ofNat, Nat.pow_zero, Nat.div_one]
  exact BitVec.eq_of_toNat_eq (by simp)

theorem getLsbD_zero_iff (w : Word) : w.getLsbD 0 = true ↔ ¬ w.toNat % 2 = 0 := by
  rw [← bitsAt_one, bitsAt_zero, Nat.pow_one]; omega

/-- A field that reaches to the top is not 0: the word is at least the field's unit. -/
theorem div_two_pow_ne_zero (n lo : Nat) : n / 2 ^ lo ≠ 0 ↔ 2 ^ lo ≤ n := by
  rw [Nat.div_ne_zero_iff]
  exact and_iff_right (Nat.two_pow_pos lo).ne'

/-- A word that is no name (R327): it has bits above the name, or breaks the limits. -/
theorem nameWord_misfits (w : Word) : (2 ^ 22 ≤ w.toNat ∨ nameFits (w.toNat % 2 ^ 22) = false) ↔
    (2 ^ 22 ≤ w.toNat ∨ nameFits w.toNat = false) := by
  by_cases hw : 2 ^ 22 ≤ w.toNat
  · simp only [hw, true_or]
  · rw [Nat.mod_eq_of_lt (Nat.lt_of_not_le hw)]

theorem exec_kill {s : State} {d a b : Reg} (h : ready (.kill d a b) s = true) :
    let x := readReg s s.cur a
    let y := readReg s s.cur b
    exec (.kill d a b) s =
      match fieldContext s (y.toNat / 2 ^ 16 % 2 ^ 16) with
      | none => trapped s kindADDRESS 0 y
      | some asid =>
        if y.toNat / 2 % 2 ^ 15 ≠ 0 ∨ 2 ^ 32 ≤ y.toNat then trapped s kindADDRESS 0 y
        else if y.toNat % 2 = 0 then
          (if 2 ^ 16 ≤ x.toNat then trapped s kindADDRESS 0 x
           else asked s d (.groupKillArrival s.cur d asid (x.setWidth 16)))
        else if 2 ^ 22 ≤ x.toNat ∨ nameFits x.toNat = false then trapped s kindADDRESS 0 x
        else asked s d (.killThreadArrival s.cur d asid (x.setWidth 22)) := by
  intro x y
  change issue (.kill d a b) s _ = _
  rw [issue_ready _ h]
  dsimp only
  rw [namedAsid_eq_fieldContext]
  cases fieldContext s (y.toNat / 2 ^ 16 % 2 ^ 16) with
  | none => rfl
  | some asid =>
    simp only [getLsbD_zero_iff, bitsAt_zero, bitsAt_top _ (show 32 + 32 = 64 from rfl),
      bitsAt_top _ (show 22 + 42 = 64 from rfl), bitsAt_top _ (show 16 + 48 = 64 from rfl), div_two_pow_ne_zero,
      extract_zero_eq_setWidth, nameOk_eq_nameFits, Bool.not_eq_true', nameWord_misfits, ite_not]
    rfl

section
variable {s : State} {d a : Reg}

/-- The group behind a gstat that sets MSGIRQ (R340). -/
def msgirqSet (s : State) (x : Word) : State :=
  let g := (s.thr s.cur).group
  if x.getLsbD 8 = true ∧ s.groupHeld g = true then s.setGroup g { s.group g with msgirq := x.getLsbD 9 } else s

theorem msgirqSet_group (s : State) (x : Word) :
    let g := (s.thr s.cur).group
    (msgirqSet s x).group g = { s.group g with
      msgirq := if x.getLsbD 8 = true ∧ s.groupHeld g = true then x.getLsbD 9 else (s.group g).msgirq } := by
  dsimp only [msgirqSet]
  split
  · exact group_setGroup_same ..
  · rfl

/-- The word of gstat: name and group of the thread, or the group's fields. -/
def gstatWord (t : Thread) (k : Nat) (g : Group) (sel : Nat) : Word :=
  if sel = 0 then fieldsWord [(t.group.toNat, 48), (t.tnum.toNat, 32), ((nameWord k t.gen).toNat, 0)]
  else fieldsWord [(if g.state = .draining then 1 else 0, 60), (g.whole.toNat, 59), (g.msgirq.toNat, 58), (g.dlovf.toNat, 57),
    (g.letters.length, 48), (g.lost % 2 ^ 16, 32), (g.live % 2 ^ 16, 16), (t.group.toNat, 0)]

/-- The model puts the same fields together as one sum. -/
theorem gstatWord_eq (t : Thread) (k : Nat) (g : Group) (sel : Nat) : BitVec.ofNat 64 (if sel = 0 then
      t.group.toNat * 2 ^ 48 + t.tnum.toNat * 2 ^ 32 + (nameWord k t.gen).toNat
    else (g.state == .draining).toNat * 2 ^ 60 + g.whole.toNat * 2 ^ 59 + g.msgirq.toNat * 2 ^ 58 + g.dlovf.toNat * 2 ^ 57 +
      g.letters.length * 2 ^ 48 + g.lost % 2 ^ 16 * 2 ^ 32 + g.live % 2 ^ 16 * 2 ^ 16 + t.group.toNat) =
    gstatWord t k g sel := by
  have hd : (g.state == .draining).toNat = if g.state = .draining then 1 else 0 := by
    by_cases h : g.state = .draining <;> simp [h]
  by_cases h0 : sel = 0
  · simp only [gstatWord, if_pos h0, fieldsWord, fieldsSum_cons, List.map_nil, List.sum_nil]
    refine congrArg (BitVec.ofNat 64) ?_
    omega
  · simp only [gstatWord, if_neg h0, hd, fieldsWord, fieldsSum_cons, List.map_nil, List.sum_nil]
    refine congrArg (BitVec.ofNat 64) ?_
    omega

theorem exec_gstat (h : ready (.gstat d a) s = true) :
    let x := readReg s s.cur a
    exec (.gstat d a) s =
      if 1024 ≤ coreOf s.cur ∨ x.toNat / 16 % 16 ≠ 0 ∨ 2 ^ 10 ≤ x.toNat ∨ 2 ≤ x.toNat % 16 then
        trapped s kindADDRESS 0 x
      else wrote (msgirqSet s x) d
        (gstatWord (s.thr s.cur) s.cur ((msgirqSet s x).group (s.thr s.cur).group) (x.toNat % 16)) := by
  intro x
  change issue (.gstat d a) s _ = _
  rw [issue_ready _ h]
  simp only [isSystem_iff, bitsAt_zero, bitsAt_top _ (show 10 + 54 = 64 from rfl), div_two_pow_ne_zero, Bool.and_eq_true,
    flag_eq, gstatWord_eq]
  by_cases hb : 1024 ≤ coreOf s.cur ∨ x.toNat / 16 % 16 ≠ 0 ∨ 2 ^ 10 ≤ x.toNat ∨ 2 ≤ x.toNat % 16
  · exact (if_pos hb).trans (if_pos hb).symm
  · exact (if_neg hb).trans (if_neg hb).symm

end

theorem groupResults : Stated.GroupResults := by
  intro s d a b x y t kill stat
  refine ⟨⟨opOf_wordR .., fnOf_wordR .., lkOf_wordR .., RoundTrip.kill d a b rfl⟩,
    ⟨opOf_wordR .., fnOf_wordR .., lkOf_wordR .., RoundTrip.gstat d a rfl⟩, exec_kill, fun h => ?_⟩
  intro bad g set u msgirq
  have hu : (msgirqSet s x).group t.group = { g with msgirq := msgirq } := msgirqSet_group s x
  refine ⟨fun hb => ?_, fun hb hx => ?_, fun hb hx => ?_⟩
  · exact (exec_gstat h).trans (if_pos hb)
  · rw [show exec stat s = _ from (exec_gstat h).trans (if_neg hb), gstatWord, if_pos hx]
    rfl
  · have hsel : ¬ x.toNat % 16 = 0 := fun h0 => absurd (hx.symm.trans h0) one_ne_zero
    rw [show exec stat s = _ from (exec_gstat h).trans (if_neg hb), gstatWord, if_neg hsel, hu]
    rfl

/-! spawn (R337): the cores around a core. -/

theorem upTo_eq_range (n : Nat) : upTo n = List.range n := List.range_eq_range'.symm

/-- The numbers of a die, from core r of it on in ascending order, wrapping. -/
theorem rotated_eq (d : Nat) {r : Nat} (hr : r < 256) :
    ((List.range 256).map fun i => d * 256 + (256 * d + r + i) % 256) =
      (((List.range 256).map (256 * d + ·)).filter fun c => decide (256 * d + r ≤ c)) ++
        (((List.range 256).map (256 * d + ·)).filter fun c => decide (c < 256 * d + r)) := by
  have hsplit : List.range 256 = List.range r ++ (List.range (256 - r)).map (r + ·) := by
    rw [← List.range_add, show r + (256 - r) = 256 by omega]
  have hsplit' : List.range 256 = List.range (256 - r) ++ (List.range r).map (256 - r + ·) := by
    rw [← List.range_add, show 256 - r + r = 256 by omega]
  have hge : ((List.range 256).map (256 * d + ·)).filter (fun c => decide (256 * d + r ≤ c)) =
      (List.range (256 - r)).map (256 * d + r + ·) := by
    rw [hsplit, List.map_append, List.filter_append, List.filter_eq_nil_iff.mpr, List.nil_append, List.filter_eq_self.mpr,
      List.map_map]
    · exact List.map_congr_left fun i _ => (Nat.add_assoc ..).symm
    · simp
    · simp
  have hlt : ((List.range 256).map (256 * d + ·)).filter (fun c => decide (c < 256 * d + r)) =
      (List.range r).map (256 * d + ·) := by
    rw [hsplit, List.map_append, List.filter_append, List.filter_eq_self.mpr, List.filter_eq_nil_iff.mpr, List.append_nil]
    · simp
    · simp
  rw [hge, hlt, hsplit', List.map_append, List.map_map]
  refine congrArg₂ _ (List.map_congr_left fun i hi => ?_) (List.map_congr_left fun i hi => ?_)
  · have := List.mem_range.mp hi; omega
  · have := List.mem_range.mp hi; simp only [Function.comp_apply]; omega

/-- The logical cores of a die among its numbers (R12). -/
theorem dieCores_eq_filter (d : Nat) :
    dieCores d = ((List.range 256).map (256 * d + ·)).filter fun c => decide (rowOf c < 14 ∧ colOf c < 16) := by
  rw [dieCores, upTo_eq_range, show (256 : Nat) = 224 + 32 from rfl, List.range_add, List.map_append, List.filter_append,
    List.filter_eq_self.mpr, List.filter_eq_nil_iff.mpr, List.append_nil]
  · intro c hc
    simp only [List.mem_map, List.mem_range] at hc
    obtain ⟨j, ⟨i, hi, rfl⟩, rfl⟩ := hc
    rw [decide_eq_true_eq, rowOf, colOf]
    omega
  · intro c hc
    simp only [List.mem_map, List.mem_range] at hc
    obtain ⟨i, hi, rfl⟩ := hc
    rw [decide_eq_true_eq, rowOf, colOf]
    omega

theorem dieCores_nodup (d : Nat) : (dieCores d).Nodup := by
  rw [dieCores, upTo_eq_range]
  exact List.nodup_range.map fun _ _ h => Nat.add_left_cancel h

theorem mem_dieCores {core : Nat} (hrow : rowOf core < 14) : core ∈ dieCores (dieOf core) := by
  simp only [dieCores, upTo_eq_range, List.mem_map, List.mem_range, dieOf, rowOf] at hrow ⊢
  exact ⟨core % 256, by omega, by omega⟩

/-- The unit of a SCOPE (R9), in ascending order. -/
theorem scopeCores_eq {core scope : Nat} (hrow : rowOf core < 14) (h1 : 1 ≤ scope) (h3 : scope ≤ 3) :
    let unit := (dieCores (dieOf core)).filter fun c => decide ((scope = 1 → c = core) ∧ (scope = 2 → quadOf c = quadOf core))
    scopeCores core scope = (unit.filter fun c => decide (core ≤ c)) ++ (unit.filter fun c => decide (c < core)) := by
  intro unit
  obtain rfl | rfl | rfl : scope = 1 ∨ scope = 2 ∨ scope = 3 := by omega
  · have : unit = [core] := by
      simp only [unit, true_imp_iff, Nat.reduceEqDiff, false_imp_iff, and_true]
      rw [List.filter_eq, List.count_eq_one_of_mem (dieCores_nodup _) (mem_dieCores hrow)]
      rfl
    rw [this]; rfl
  · have : unit = (dieCores (dieOf core)).filter fun c => quadOf c == quadOf core :=
      List.filter_congr fun c _ => by simp [beq_eq_decide]
    rw [this]; rfl
  · have : unit = dieCores (dieOf core) := List.filter_eq_self.mpr fun c _ => by simp
    rw [this]; rfl

theorem scopeCores_eq_scopeFrom {core scope : Nat} (hrow : rowOf core < 14) (h1 : 1 ≤ scope) (h3 : scope ≤ 3) :
    scopeCores core scope = scopeFrom core scope := by
  obtain ⟨r, hr, hcore⟩ : ∃ r, r < 256 ∧ core = 256 * dieOf core + r := ⟨core % 256, by omega, by rw [dieOf]; omega⟩
  rw [scopeCores_eq hrow h1 h3, dieCores_eq_filter, scopeFrom]
  generalize dieOf core = d at hcore
  subst hcore
  rw [rotated_eq d hr, List.filter_append]
  simp only [List.filter_filter]
  refine congrArg₂ _ (List.filter_congr fun c _ => ?_) (List.filter_congr fun c _ => ?_)
  all_goals
    rw [Bool.eq_iff_iff]
    simp only [Bool.and_eq_true, decide_eq_true_eq]
    tauto

theorem scopeFrom_nodup (core scope : Nat) : (scopeFrom core scope).Nodup := by
  refine (List.Nodup.map_on (fun i hi j hj h => ?_) List.nodup_range).filter _
  have := List.mem_range.mp hi
  have := List.mem_range.mp hj
  omega

/-! spawn (R337): the deal. -/

/-- What round r of an unbounded deal takes from the lists. -/
def dealtIn (ls : List (List Nat)) (r : Nat) : List Nat := ls.filterMap fun l => l[r]?

/-- The rounds of an unbounded deal, one after the other. -/
def dealtOver (m : Nat) (ls : List (List Nat)) : List Nat := (List.range m).flatMap (dealtIn ls)

theorem dealtIn_tail (ls : List (List Nat)) (r : Nat) : dealtIn (ls.map List.tail) r = dealtIn ls (r + 1) := by
  simp only [dealtIn, List.filterMap_map]
  exact List.filterMap_congr fun l _ => List.getElem?_tail

theorem dealtOver_succ (m : Nat) (ls : List (List Nat)) :
    dealtOver (m + 1) ls = dealtIn ls 0 ++ dealtOver m (ls.map List.tail) := by
  simp only [dealtOver, List.range_succ_eq_map, List.flatMap_cons, List.flatMap_map, funext (dealtIn_tail ls)]

/-- One round takes the heads, up to n, and where all of them are taken the tails remain. -/
theorem dealRound_spec (n : Nat) (ls : List (List Nat)) :
    (dealRound n ls).1 = (dealtIn ls 0).take n ∧ (dealRound n ls).2.2 = n - (dealtIn ls 0).length ∧
      ((dealtIn ls 0).length ≤ n → (dealRound n ls).2.1 = ls.map List.tail) := by
  induction n, ls using dealRound.induct with
  | case1 n => simp [dealRound, dealtIn]
  | case2 ls h =>
    refine ⟨by simp [dealRound], by simp [dealRound], fun hl => ?_⟩
    have htail : ∀ l ∈ ls, l.tail = id l := fun l hmem => by
      have hnone := List.filterMap_eq_nil_iff.mp (List.length_eq_zero_iff.mp (Nat.le_zero.mp hl)) l hmem
      rw [List.length_eq_zero_iff.mp (Nat.le_zero.mp (List.getElem?_eq_none_iff.mp hnone))]
      rfl
    rw [List.map_congr_left htail, List.map_id]
    simp [dealRound]
  | case3 n ls ih => simpa [dealRound, dealtIn] using ih
  | case4 n k ks ls ih => simpa [dealRound, dealtIn] using ih

theorem dealSlots_zero (fuel : Nat) (ls : List (List Nat)) : dealSlots fuel 0 ls = [] := by
  cases fuel <;> rfl

/-- The model's deal of n slots is the first n of the unbounded one. -/
theorem dealSlots_eq (fuel : Nat) : ∀ (n : Nat) (ls : List (List Nat)),
    dealSlots fuel n ls = (dealtOver fuel ls).take n := by
  induction fuel with
  | zero => intro n ls; simp [dealSlots, dealtOver]
  | succ fuel ih =>
    intro n ls
    by_cases hn : n = 0
    · rw [hn, dealSlots_zero, List.take_zero]
    obtain ⟨htaken, hleft, hrest⟩ := dealRound_spec n ls
    rw [dealSlots, if_neg hn, dealtOver_succ, List.take_append]
    simp only [htaken, hleft]
    by_cases hl : (dealtIn ls 0).length ≤ n
    · rw [hrest hl, ih]
    · rw [show n - (dealtIn ls 0).length = 0 by omega, dealSlots_zero, List.take_zero]

/-- With at most m slots in a list, a round behind m takes none. -/
theorem dealtOver_enough {m : Nat} {ls : List (List Nat)} (h : ∀ l ∈ ls, l.length ≤ m) :
    dealtOver (m + 1) ls = dealtOver m ls := by
  have hnone : dealtIn ls m = [] := List.filterMap_eq_nil_iff.mpr fun l hl => List.getElem?_eq_none (h l hl)
  simp only [dealtOver, List.range_succ, List.flatMap_append, List.flatMap_cons, List.flatMap_nil, hnone, List.append_nil]

theorem heads_and_tails_length (ls : List (List Nat)) :
    (dealtIn ls 0).length + ((ls.map List.tail).map List.length).sum = (ls.map List.length).sum := by
  induction ls with
  | nil => rfl
  | cons l ls ih =>
    cases l with
    | nil => simpa [dealtIn] using ih
    | cons k ks =>
      simp only [dealtIn, List.filterMap_cons, List.getElem?_cons_zero, List.length_cons, List.map_cons, List.sum_cons,
        List.tail_cons] at ih ⊢
      omega

/-- Every slot is taken once. -/
theorem dealtOver_length (m : Nat) : ∀ ls : List (List Nat), (∀ l ∈ ls, l.length ≤ m) →
    (dealtOver m ls).length = (ls.map List.length).sum := by
  induction m with
  | zero =>
    intro ls h
    rw [List.sum_eq_zero_iff.mpr fun n hn => ?_]
    · rfl
    · obtain ⟨l, hl, rfl⟩ := List.mem_map.mp hn
      exact Nat.le_zero.mp (h l hl)
  | succ m ih =>
    intro ls h
    rw [dealtOver_succ, List.length_append, ih, heads_and_tails_length]
    intro l hl
    obtain ⟨l', hl', rfl⟩ := List.mem_map.mp hl
    rw [List.length_tail]
    have := h l' hl'
    omega

theorem emptySlots_length_le (s : State) (core : Nat) : (emptySlots s core).length ≤ 7 := by
  rw [emptySlots, List.length_map]
  exact (List.length_filter_le ..).trans (by simp [upTo])

/-- The slots that a spawn takes are the deal of R337. -/
theorem dealSlots_eq_dealt (s : State) (cores : List Nat) (n : Nat) :
    dealSlots 8 n (cores.map (emptySlots s)) = dealt s cores n := by
  rw [dealSlots_eq, dealtOver_enough (by simp [emptySlots_length_le])]
  rfl

theorem dealt_length (s : State) (cores : List Nat) (n : Nat) :
    (dealt s cores n).length = min n (((cores.map (emptySlots s)).map List.length).sum) := by
  rw [← dealSlots_eq_dealt, dealSlots_eq, List.length_take, dealtOver_length 8]
  intro l hl
  obtain ⟨c, -, rfl⟩ := List.mem_map.mp hl
  exact (emptySlots_length_le s c).trans (by decide)

theorem emptySlots_nodup (s : State) (core : Nat) : (emptySlots s core).Nodup :=
  ((upTo_eq_range 7 ▸ List.nodup_range).filter _).map fun _ _ h => Nat.add_left_cancel h

theorem coreOf_of_mem_emptySlots {s : State} {core k : Nat} (h : k ∈ emptySlots s core) : coreOf k = core := by
  obtain ⟨j, hj, rfl⟩ := List.mem_map.mp h
  have := mem_upTo.mp (List.mem_of_mem_filter hj)
  rw [coreOf]; omega

theorem mem_dealtIn {s : State} {cores : List Nat} {r k : Nat} (h : k ∈ dealtIn (cores.map (emptySlots s)) r) :
    ∃ c ∈ cores, (emptySlots s c)[r]? = some k ∧ coreOf k = c := by
  obtain ⟨l, hl, hk⟩ := List.mem_filterMap.mp h
  obtain ⟨c, hc, rfl⟩ := List.mem_map.mp hl
  exact ⟨c, hc, hk, coreOf_of_mem_emptySlots (List.mem_of_getElem? hk)⟩

/-- The cores are different, and so are the slots that the deal takes. -/
theorem dealt_nodup {s : State} {cores : List Nat} (n : Nat) (h : cores.Nodup) : (dealt s cores n).Nodup := by
  suffices hall : (dealtOver 7 (cores.map (emptySlots s))).Nodup from hall.sublist (List.take_sublist n _)
  refine List.nodup_flatMap.mpr ⟨fun r _ => ?_, List.nodup_range.imp fun {r r'} hne k hk hk' => ?_⟩
  · rw [dealtIn, List.filterMap_map]
    refine h.filterMap fun c c' k hk hk' => ?_
    rw [← coreOf_of_mem_emptySlots (List.mem_of_getElem? hk), coreOf_of_mem_emptySlots (List.mem_of_getElem? hk')]
  · obtain ⟨c, -, hr, rfl⟩ := mem_dealtIn hk
    obtain ⟨c', -, hr', rfl⟩ := mem_dealtIn hk'
    exact hne ((List.getElem?_inj (List.getElem?_eq_some_iff.mp hr).1 (emptySlots_nodup s _)).mp (hr.trans hr'.symm))

/-! spawn (R337): the threads. -/

/-- The operands that the threads of one spawn share: context, group, pinned, pc, p1 to p3, and the FRAME field. -/
structure SpawnOf where
  asid : BitVec 16
  group : BitVec 16
  pinned : Bool
  pc : Word
  args : List Word
  frame : Nat

/-- Thread number t of a spawn in slot k, whose generation was gen (R310, R337). -/
def SpawnOf.thread (x : SpawnOf) (gen : BitVec 8) (t k : Nat) : Thread :=
  { Thread.empty with
    sstate := .run, gen := gen + 1#8, pinned := x.pinned, asid := x.asid, group := x.group, tnum := BitVec.ofNat 16 t
    pc := x.pc, fresh := true
    p := #v[BitVec.ofNat 64 t, x.args.getD 0 0#64, x.args.getD 1 0#64, x.args.getD 2 0#64, 0#64, 0#64, 0#64, 0#64,
      framePointer (coreOf k) (524288 - 64 * x.frame * slotOf k), 0#64] }

/-- The step of the model that creates it. -/
def SpawnOf.start (x : SpawnOf) (s : State) (t k : Nat) : State :=
  startThread s k x.asid x.group (BitVec.ofNat 16 t) x.pinned x.pc (BitVec.ofNat 64 t :: x.args)
    (framePointer (coreOf k) (524288 - 64 * x.frame * slotOf k))

def SpawnOf.all (x : SpawnOf) (s : State) (t : Nat) (ks : List Nat) : State :=
  spawnThreads x.asid x.group x.pinned x.pc x.args x.frame s t ks

namespace SpawnOf
variable (x : SpawnOf) (s : State) (t k : Nat)

theorem all_cons (ks : List Nat) : x.all s t (k :: ks) = x.all (x.start s t k) (t + 1) ks := rfl

theorem start_thr_same : (x.start s t k).thr k = x.thread (s.thr k).gen t k := thr_setThr_same ..

theorem start_thr_other {j : Nat} (h : j ≠ k) : (x.start s t k).thr j = s.thr j := thr_setThr_other _ _ _ _ h

theorem start_residence : ((x.start s t k).core (coreOf k)).residence = .running := by
  rw [start, startThread, core_setCore_same]

/-- A core that runs goes on to run. -/
theorem start_keeps_running {c : Nat} (h : (s.core c).residence = .running) :
    ((x.start s t k).core c).residence = .running := by
  by_cases hc : c = coreOf k
  · rw [hc]; exact x.start_residence s t k
  · rw [start, startThread, core_setCore_other _ _ _ _ hc]; exact h

variable {s t k}

/-- Everything that the creation of threads may touch: threads and cores. -/
theorem all_touches (ks : List Nat) : ∀ s t, ∃ th co, x.all s t ks = { s with threads := th, cores := co } := by
  induction ks with
  | nil => intro s t; exact ⟨s.threads, s.cores, rfl⟩
  | cons k ks ih => intro s t; exact ih (x.start s t k) (t + 1)

theorem all_mem (ks : List Nat) : (x.all s t ks).mem = s.mem := by
  obtain ⟨th, co, h⟩ := x.all_touches ks s t
  rw [h]

theorem all_work (ks : List Nat) : (x.all s t ks).work = s.work := by
  obtain ⟨th, co, h⟩ := x.all_touches ks s t
  rw [h]

theorem all_group (ks : List Nat) (g : BitVec 16) : (x.all s t ks).group g = s.group g := by
  obtain ⟨th, co, h⟩ := x.all_touches ks s t
  rw [h]
  rfl

theorem all_thr_other {j : Nat} (ks : List Nat) : ∀ s t, j ∉ ks → (x.all s t ks).thr j = s.thr j := by
  induction ks with
  | nil => intro s t _; rfl
  | cons k ks ih =>
    intro s t h
    rw [List.mem_cons, not_or] at h
    rw [all_cons, ih _ _ h.2, start_thr_other _ _ _ _ h.1]

theorem all_keeps_running {c : Nat} (ks : List Nat) : ∀ s t, (s.core c).residence = .running →
    ((x.all s t ks).core c).residence = .running := by
  induction ks with
  | nil => intro s t h; exact h
  | cons k ks ih => intro s t h; exact ih _ _ (x.start_keeps_running s t k h)

/-- Each slot of the list holds the thread of its number, and its core runs. -/
theorem all_thr (ks : List Nat) : ∀ s t, ks.Nodup → ∀ j < ks.length,
    (x.all s t ks).thr (ks.getD j 0) = x.thread (s.thr (ks.getD j 0)).gen (t + j) (ks.getD j 0) ∧
      ((x.all s t ks).core (coreOf (ks.getD j 0))).residence = .running := by
  induction ks with
  | nil => intro s t _ j hj; exact absurd hj (Nat.not_lt_zero j)
  | cons k ks ih =>
    intro s t h j hj
    obtain ⟨hk, hks⟩ := List.nodup_cons.mp h
    rw [all_cons]
    cases j with
    | zero => exact ⟨(x.all_thr_other ks _ _ hk).trans (x.start_thr_same s t k),
        x.all_keeps_running ks _ _ (x.start_residence s t k)⟩
    | succ j =>
      rw [List.length_cons, Nat.succ_lt_succ_iff] at hj
      have hne : ks.getD j 0 ≠ k := fun e => hk (e ▸ by rw [List.getD_eq_getElem _ _ hj]; exact List.getElem_mem hj)
      obtain ⟨hthr, hrun⟩ := ih (x.start s t k) (t + 1) hks j hj
      rw [List.getD_cons_succ, show t + (j + 1) = t + 1 + j by omega]
      rw [x.start_thr_other s t k hne] at hthr
      exact ⟨hthr, hrun⟩

end SpawnOf

/-! spawn (R337): the group, and what the instruction answers. -/

/-- The lowest number with a property. -/
theorem findFirst_upTo {p : Nat → Bool} {n i : Nat} (hi : i < n) (hp : p i = true) (hlow : ∀ j < i, p j = false) :
    findFirst p (upTo n) = some i := by
  have hsplit : upTo n = List.range i ++ i :: (List.range (n - i - 1)).map (fun j => i + 1 + j) := by
    rw [upTo_eq_range, show n = i + (1 + (n - i - 1)) by omega, List.range_add, List.range_add]
    simp [Nat.add_assoc]
  rw [hsplit]
  exact findFirst_append_cons (fun j hj => hlow j (List.mem_range.mp hj)) hp

theorem freeGroup_lowest {s : State} {die gi : Nat} (hi : gi < 1024)
    (hfree : (tabGet Group.reset (s.die die).groups gi).state = .free)
    (hlow : ∀ j < gi, (tabGet Group.reset (s.die die).groups j).state ≠ .free) : freeGroup s die = some gi :=
  findFirst_upTo hi (beq_iff_eq.mpr hfree) fun j hj => beq_eq_false_iff_ne.mpr (hlow j hj)

theorem freeGroup_full {s : State} {die : Nat}
    (h : ∀ gi < 1024, (tabGet Group.reset (s.die die).groups gi).state ≠ .free) : freeGroup s die = none :=
  findFirst_eq_none fun i hi => beq_eq_false_iff_ne.mpr (h i (mem_upTo.mp hi))

/-- The number of a group (R321). -/
theorem groupNumber_eq (die gi : Nat) (gen : BitVec 4) :
    groupNumber die gi gen = (fieldsWord [(die, 14), (gen.toNat, 10), (gi, 0)]).setWidth 16 := by
  rw [groupNumber, fieldsWord, BitVec.setWidth_ofNat_of_le (by decide)]
  refine congrArg (BitVec.ofNat 16) ?_
  simp only [fieldsSum_cons, List.map_nil, List.sum_nil]
  omega

/-- The cores of the SCOPE unit that take the context's threads. -/
def spawnCores (s : State) (core scope : Nat) (asid : BitVec 16) : List Nat :=
  (scopeFrom core scope).filter fun c => (s.core c).health = .good ∧ (s.core c).ctxAsid = asid ∧
    ((s.core c).residence = .loaded ∨ (s.core c).residence = .running)

theorem spawnCores_nodup (s : State) (core scope : Nat) (asid : BitVec 16) : (spawnCores s core scope asid).Nodup :=
  (scopeFrom_nodup core scope).filter _

theorem scopeCores_filter_eq_spawnCores (s : State) {core scope : Nat} (asid : BitVec 16) (hrow : rowOf core < 14)
    (h1 : 1 ≤ scope) (h3 : scope ≤ 3) :
    (scopeCores core scope).filter (hostsResidence s asid) = spawnCores s core scope asid := by
  rw [scopeCores_eq_scopeFrom hrow h1 h3]
  refine List.filter_congr fun c _ => Bool.eq_iff_iff.mpr ?_
  simp only [hostsResidence, Bool.and_eq_true, Bool.or_eq_true, beq_iff_eq, decide_eq_true_eq, and_assoc]

section
variable {s : State} {x y : Word}

/-- The slots that a spawn by the current thread takes (R337). -/
def spawnKeys (s : State) (y : Word) : List Nat :=
  dealt s (spawnCores s (coreOf s.cur) (y.toNat / 2 ^ 8 % 2 ^ 3) (s.thr s.cur).asid) (y.toNat / 2 ^ 0 % 2 ^ 6 + 1)

/-- What the spawn's operands give its threads, in group g. -/
def spawnOf (s : State) (x y : Word) (g : BitVec 16) : SpawnOf :=
  { asid := (s.thr s.cur).asid, group := g, pinned := y.getLsbD 25, pc := x
    args := [(s.thr s.cur).p[1], (s.thr s.cur).p[2], (s.thr s.cur).p[3]], frame := y.toNat / 2 ^ 12 % 2 ^ 10 }

theorem spawnGroup_system (h : 1024 ≤ coreOf s.cur) : spawnGroup s s.cur x y = (s, refusedAs 3) := by
  rw [spawnGroup, if_pos ((isSystem_iff _).mpr h)]
  rfl

/-- On a compute core: the slots are the deal of R337, or are too few. -/
theorem spawnGroup_compute (hc : coreOf s.cur < 1024) (hrow : rowOf (coreOf s.cur) < 14) (hf : spawnFits x y) :
    spawnGroup s s.cur x y =
      if (spawnKeys s y).length < y.toNat / 2 ^ 0 % 2 ^ 6 + 1 then (s, refusedAs 2)
      else match freeGroup s (dieOf (coreOf s.cur)) with
        | none => (s, refusedAs 1)
        | some ix =>
          let gen := (tabGet Group.reset (s.die (dieOf (coreOf s.cur))).groups ix).gen
          let g := groupNumber (dieOf (coreOf s.cur)) ix gen
          ((spawnOf s x y g).all (s.setGroup g (newGroup gen (s.thr s.cur).asid (y.getLsbD 24) (y.getLsbD 26)
            (y.toNat / 2 ^ 0 % 2 ^ 6 + 1) (coreOf s.cur) none)) 0 (spawnKeys s y), g.setWidth 64) := by
  obtain ⟨-, -, -, -, -, -, h1, h3⟩ := hf
  have hcores := scopeCores_filter_eq_spawnCores s (s.thr s.cur).asid hrow h1 h3
  have hkeys := dealSlots_eq_dealt s (spawnCores s (coreOf s.cur) (y.toNat / 2 ^ 8 % 2 ^ 3) (s.thr s.cur).asid)
    (y.toNat / 2 ^ 0 % 2 ^ 6 + 1)
  have hlen := dealt_length s (spawnCores s (coreOf s.cur) (y.toNat / 2 ^ 8 % 2 ^ 3) (s.thr s.cur).asid)
    (y.toNat / 2 ^ 0 % 2 ^ 6 + 1)
  rw [spawnGroup, if_neg ((isSystem_iff _).not.mpr (by omega))]
  simp only [bitsAt, hcores, hkeys]
  by_cases hn : (spawnKeys s y).length < y.toNat / 2 ^ 0 % 2 ^ 6 + 1
  · exact (if_pos (by rw [spawnKeys] at hn; omega)).trans (if_pos hn).symm
  · exact (if_neg (by rw [spawnKeys] at hn; omega)).trans (if_neg hn).symm

end

section
variable {s : State} {d a b : Reg} {lk : BitVec 4}

theorem exec_spawn (h : ready (.spawn d a b lk) s = true) :
    let x := readReg s s.cur a
    let y := readReg s s.cur b
    exec (.spawn d a b lk) s =
      if x.toNat / 2 ^ 52 ≠ 0 ∨ x.toNat % 4 ≠ 0 then trapped s kindADDRESS 0 x
      else if ¬ spawnOk y = true then trapped s kindADDRESS 0 y
      else afterAccesses s (opened (spawnGroup s s.cur x y).1 (.spawn d a b lk) d lk (spawnGroup s s.cur x y).2) := by
  intro x y
  change issue (.spawn d a b lk) s _ = _
  rw [issue_ready _ h]
  simp only [bitsAt_zero, bitsAt_top _ (show 52 + 12 = 64 from rfl), Bool.not_eq_true', ← Bool.not_eq_true]
  rfl

theorem spawnOk_iff (x y : Word) (hx : x.toNat / 2 ^ 52 = 0) (hx' : x.toNat % 4 = 0) :
    spawnOk y = true ↔ spawnFits x y := by
  simp only [spawnOk, spawnFits, hx, hx', true_and, Bool.and_eq_true, beq_iff_eq, decide_eq_true_eq, and_assoc]
  rfl

theorem exec_spawn_trap (h : ready (.spawn d a b lk) s = true)
    (hf : ¬ spawnFits (readReg s s.cur a) (readReg s s.cur b)) :
    exec (.spawn d a b lk) s = trapped s kindADDRESS 0
      (if (readReg s s.cur a).toNat / 2 ^ 52 ≠ 0 ∨ (readReg s s.cur a).toNat % 4 ≠ 0 then readReg s s.cur a
       else readReg s s.cur b) := by
  rw [exec_spawn h]
  by_cases hx : (readReg s s.cur a).toNat / 2 ^ 52 ≠ 0 ∨ (readReg s s.cur a).toNat % 4 ≠ 0
  · rw [if_pos hx, if_pos hx]
  · have hx' := hx
    simp only [not_or, ne_eq, not_not] at hx'
    rw [if_neg hx, if_neg hx, if_pos ((spawnOk_iff _ _ hx'.1 hx'.2).not.mpr hf)]

theorem exec_spawn_fits (h : ready (.spawn d a b lk) s = true)
    (hf : spawnFits (readReg s s.cur a) (readReg s s.cur b)) :
    exec (.spawn d a b lk) s = afterAccesses s
      (opened (spawnGroup s s.cur (readReg s s.cur a) (readReg s s.cur b)).1 (.spawn d a b lk) d lk
        (spawnGroup s s.cur (readReg s s.cur a) (readReg s s.cur b)).2) := by
  have hf' := hf
  obtain ⟨hx, hx', -⟩ := hf'
  rw [exec_spawn h, if_neg, if_neg (not_not.mpr ((spawnOk_iff _ _ hx hx').mpr hf))]
  rintro (h' | h')
  · exact h' hx
  · exact h' hx'

end

theorem spawnResults : Stated.SpawnResults := by
  intro s d a b lk x y i f core die t n cand keys group
  refine ⟨⟨opOf_wordR .., fnOf_wordR .., lkOf_wordR .., RoundTrip.spawn d a b lk rfl⟩, fun h => ?_⟩
  refine ⟨exec_spawn_trap h, fun hf hw => (exec_spawn_fits h hf).trans (afterAccesses_waiting hw), fun hf hd => ?_⟩
  have hexec : exec i s = opened (spawnGroup s s.cur x y).1 i d lk (spawnGroup s s.cur x y).2 :=
    (exec_spawn_fits h hf).trans (afterAccesses_done hd)
  refine ⟨fun hc => ?system, fun hc hrow hk => ?few, fun hc hrow hk hfull => ?full,
    fun gi hgi hc hrow hk hfree hlow => ?created⟩
  case system => rw [hexec, spawnGroup_system hc]
  case few => rw [hexec, (spawnGroup_compute hc hrow hf).trans (if_pos hk)]
  case full =>
    rw [hexec, (spawnGroup_compute hc hrow hf).trans (if_neg (Nat.not_lt.mpr hk.ge)), freeGroup_full hfull]
  case created =>
    have hspawn := (spawnGroup_compute (x := x) hc hrow hf).trans (if_neg (Nat.not_lt.mpr hk.ge))
    rw [freeGroup_lowest hgi hfree hlow] at hspawn
    dsimp only at hspawn
    rw [groupNumber_eq] at hspawn
    intro g
    refine ⟨_, by rw [hexec, hspawn], ?group, ?mem, ?work, fun k hout => ?others, fun j hj => ?threads⟩
    case group => exact ((spawnOf s x y g).all_group keys g).trans (group_setGroup_same ..)
    case mem => exact (spawnOf s x y g).all_mem keys
    case work => exact (spawnOf s x y g).all_work keys
    case others => exact (spawnOf s x y g).all_thr_other keys _ _ hout
    case threads =>
      obtain ⟨hthr, hrun⟩ := (spawnOf s x y g).all_thr keys _ 0 (dealt_nodup n (spawnCores_nodup ..)) j (hk ▸ hj)
      rw [Nat.zero_add] at hthr
      exact ⟨hrun, hthr⟩

/-- Settles O50: a bind enters the sheaf or changes the report alone; launch, kwait and spawn open a window with what their
step at issue gives, exit ends the thread and tells its group, and kill asks the unit that its operand names. -/
theorem kernelIssue : Obligations.KernelIssue :=
  ⟨bindsAnswer, launchResults, kernelWords, spawnResults, exitEnds, groupResults⟩

end Sys2Proof.Laws
end

section
/-! PROOFS. The scalar instructions (R106 to R124), wait, yield and pin (R127, R303, R304), and the arrival of a result
(R37, R495). -/

namespace Sys2Proof.Laws

open Sys2Proof Sys2Proof.Machine

/-! The word of an instruction in each format, and what an instruction that may issue answers. -/

section
variable {i : Instr} {s : State} {op : BitVec 7} {fn : BitVec 6} {lk : BitVec 4} {d a b : Reg}

theorem codedR_of_encode (he : encode i = wordR op d a b fn 0#4) (hr : RoundTrip.Statement i) (hw : isWord i = true) :
    codedR i op fn :=
  ⟨he ▸ opOf_wordR .., he ▸ fnOf_wordR .., he ▸ lkOf_wordR .., hr hw⟩

theorem codedL_of_encode (he : encode i = wordR op d a b fn lk) (hr : RoundTrip.Statement i) (hw : isWord i = true) :
    codedL i op fn lk :=
  ⟨he ▸ opOf_wordR .., he ▸ fnOf_wordR .., he ▸ lkOf_wordR .., hr hw⟩

theorem codedM_of_encodeI {imm : BitVec 15} (he : encode i = wordI op d a imm) (hr : RoundTrip.Statement i)
    (hw : isWord i = true) : codedM i op :=
  ⟨he ▸ opOf_wordI .., hr hw⟩

theorem codedM_of_encodeB {disp : BitVec 15} (he : encode i = wordB op a b disp) (hr : RoundTrip.Statement i)
    (hw : isWord i = true) : codedM i op :=
  ⟨he ▸ opOf_wordB .., hr hw⟩

/-- An instruction whose meaning goes through issue, and which may issue, answers its effect. -/
theorem exec_of_issue {f : State → Out} {o : Out} (he : exec i s = issue i s f) (ho : f s = o) (h : ready i s = true) :
    exec i s = o :=
  he.trans ((issue_ready f h).trans ho)

/-- A short-latency instruction whose value in the model, g, is the value v of the rule. -/
theorem exec_wrote {g : State → Word} {v : Word} (he : exec i s = issue i s fun t => finishWrite t d (g t))
    (hv : g s = v) (h : ready i s = true) : exec i s = wrote s d v :=
  exec_of_issue he (congrArg (wrote s d) hv) h

/-- A long-latency instruction opens its window with the value of the rule on its way. -/
theorem exec_opened {g : State → Word} {v : Word} (he : exec i s = issue i s fun t => finishLong t i d (.one (g t)))
    (hl : lookaheadOf i = lk) (hv : g s = v) (h : ready i s = true) : exec i s = opened s i d lk v :=
  exec_of_issue he (hl ▸ congrArg (opened s i d (lookaheadOf i)) hv) h

end

/-! Integer arithmetic (R106). -/

theorem addWord_eq (x y : Word) : addWord x y = BitVec.ofNat 64 ((x.toNat + y.toNat) % 2 ^ 64) :=
  BitVec.eq_of_toNat_eq (by simp [addWord])

theorem subWord_eq (x y : Word) : subWord x y = BitVec.ofInt 64 (x.toInt - y.toInt) :=
  BitVec.eq_of_toInt_eq (by rw [subWord, BitVec.toInt_sub, BitVec.toInt_ofInt])

theorem sllWord_eq (x y : Word) : sllWord x y = BitVec.ofNat 64 (x.toNat * 2 ^ amount y) :=
  BitVec.eq_of_toNat_eq (by rw [sllWord, BitVec.toNat_shiftLeft, BitVec.toNat_ofNat, Nat.shiftLeft_eq, amount])

theorem srlWord_eq (x y : Word) : srlWord x y = BitVec.ofNat 64 (x.toNat / 2 ^ amount y) := by
  rw [← Nat.shiftRight_eq_div_pow, ← BitVec.toNat_ushiftRight, BitVec.ofNat_toNat, BitVec.setWidth_eq]; rfl

theorem sraWord_eq (x y : Word) : sraWord x y = BitVec.ofInt 64 (x.toInt / 2 ^ amount y) := by
  rw [sraWord, BitVec.sshiftRight, Int.shiftRight_eq_div_pow, amount]; push_cast; rfl

theorem minWord_eq (x y : Word) : minWord x y = if x.toInt ≤ y.toInt then x else y := by
  simp only [minWord, BitVec.slt_iff_toInt_lt, ← Int.not_le, ite_not]

theorem minuWord_eq (x y : Word) : minuWord x y = if x.toNat ≤ y.toNat then x else y := by
  simp only [minuWord, BitVec.ult_eq_decide, decide_eq_true_eq, ← Nat.not_le, ite_not]

/-- The rule takes y where the operands are equal, the model x. -/
theorem maxWord_eq (x y : Word) : maxWord x y = if x.toInt ≤ y.toInt then y else x := by
  simp only [maxWord, BitVec.slt_iff_toInt_lt, Int.lt_iff_le_and_ne, ne_eq, BitVec.toInt_inj]
  by_cases h : x = y <;> simp [h]

theorem maxuWord_eq (x y : Word) : maxuWord x y = if x.toNat ≤ y.toNat then y else x := by
  simp only [maxuWord, BitVec.ult_eq_decide, decide_eq_true_eq, Nat.lt_iff_le_and_ne, ne_eq, BitVec.toNat_inj]
  by_cases h : x = y <;> simp [h]

/-- Settles O4: each row's word is the R format's, and the value that the model writes is the row's number. -/
theorem integerResults : Obligations.IntegerResults := by
  intro s d a b
  simp only [integerRows, List.forall_mem_cons, List.not_mem_nil, false_imp_iff, implies_true, and_true]
  exact ⟨⟨codedR_of_encode rfl (RoundTrip.add d a b) rfl, exec_wrote rfl (addWord_eq ..)⟩,
    ⟨codedR_of_encode rfl (RoundTrip.sub d a b) rfl, exec_wrote rfl (subWord_eq ..)⟩,
    ⟨codedR_of_encode rfl (RoundTrip.and d a b) rfl, exec_wrote rfl rfl⟩,
    ⟨codedR_of_encode rfl (RoundTrip.or d a b) rfl, exec_wrote rfl rfl⟩,
    ⟨codedR_of_encode rfl (RoundTrip.xor d a b) rfl, exec_wrote rfl rfl⟩,
    ⟨codedR_of_encode rfl (RoundTrip.sll d a b) rfl, exec_wrote rfl (sllWord_eq ..)⟩,
    ⟨codedR_of_encode rfl (RoundTrip.srl d a b) rfl, exec_wrote rfl (srlWord_eq ..)⟩,
    ⟨codedR_of_encode rfl (RoundTrip.sra d a b) rfl, exec_wrote rfl (sraWord_eq ..)⟩,
    ⟨codedR_of_encode rfl (RoundTrip.min d a b) rfl, exec_wrote rfl (minWord_eq ..)⟩,
    ⟨codedR_of_encode rfl (RoundTrip.max d a b) rfl, exec_wrote rfl (maxWord_eq ..)⟩,
    ⟨codedR_of_encode rfl (RoundTrip.minu d a b) rfl, exec_wrote rfl (minuWord_eq ..)⟩,
    ⟨codedR_of_encode rfl (RoundTrip.maxu d a b) rfl, exec_wrote rfl (maxuWord_eq ..)⟩,
    ⟨codedR_of_encode rfl (RoundTrip.sel d a b) rfl, exec_wrote rfl rfl⟩⟩

/-! Products, quotients and remainders (R107, R108). -/

theorem mulWord_eq (x y : Word) : mulWord x y = BitVec.ofNat 64 (x.toNat * y.toNat % 2 ^ 64) :=
  BitVec.eq_of_toNat_eq (by simp [mulWord])

/-- The rule names the one quotient that does not fit, 2^63; in 64 bits it is -2^63. -/
theorem divWord_eq (x y : Word) : divWord x y =
    if y = 0#64 then 0xFFFFFFFFFFFFFFFF#64
    else if x.toInt = -(2 ^ 63) ∧ y.toInt = -1 then BitVec.ofInt 64 (-(2 ^ 63))
    else BitVec.ofInt 64 (truncated x y) := by
  by_cases h : x.toInt = -(2 ^ 63) ∧ y.toInt = -1
  · obtain ⟨hx, hy⟩ := h
    simp only [divWord, hx, hy, and_self, if_true]; rfl
  · simp only [divWord, if_neg h]; rfl

/-- The remainder beside that quotient is 0. -/
theorem remWord_eq (x y : Word) : remWord x y =
    if y = 0#64 then x
    else if x.toInt = -(2 ^ 63) ∧ y.toInt = -1 then 0#64
    else BitVec.ofInt 64 (x.toInt - y.toInt * truncated x y) := by
  by_cases h : x.toInt = -(2 ^ 63) ∧ y.toInt = -1
  · obtain ⟨hx, hy⟩ := h
    simp only [remWord, hx, hy, and_self, if_true]; rfl
  · simp only [remWord, if_neg h, truncated, Int.tmod_def]

theorem remuWord_eq (x y : Word) : remuWord x y =
    if y = 0#64 then x else BitVec.ofNat 64 (x.toNat - y.toNat * (x.toNat / y.toNat)) := by
  rw [remuWord, Nat.mod_def]

theorem multiplyResults : Stated.MultiplyResults := by
  intro s d a b lk
  simp only [multiplyRows, List.forall_mem_cons, List.not_mem_nil, false_imp_iff, implies_true, and_true]
  exact ⟨⟨codedL_of_encode rfl (RoundTrip.mul d a b lk) rfl, exec_opened rfl rfl (mulWord_eq ..)⟩,
    ⟨codedL_of_encode rfl (RoundTrip.mulh d a b lk) rfl, exec_opened rfl rfl rfl⟩,
    ⟨codedL_of_encode rfl (RoundTrip.mulhu d a b lk) rfl, exec_opened rfl rfl rfl⟩⟩

theorem divideResults : Stated.DivideResults := by
  intro s d a b lk
  simp only [divideRows, List.forall_mem_cons, List.not_mem_nil, false_imp_iff, implies_true, and_true]
  exact ⟨⟨codedL_of_encode rfl (RoundTrip.div d a b lk) rfl, exec_opened rfl rfl (divWord_eq ..)⟩,
    ⟨codedL_of_encode rfl (RoundTrip.divu d a b lk) rfl, exec_opened rfl rfl rfl⟩,
    ⟨codedL_of_encode rfl (RoundTrip.rem d a b lk) rfl, exec_opened rfl rfl (remWord_eq ..)⟩,
    ⟨codedL_of_encode rfl (RoundTrip.remu d a b lk) rfl, exec_opened rfl rfl (remuWord_eq ..)⟩⟩

/-- Settles O22: the value on its way is the row's, by the remainder's definition and, for the one quotient out of range,
by its value. -/
theorem multiplyDivide : Obligations.MultiplyDivide := ⟨multiplyResults, divideResults⟩

/-! Counting bits, packing and spreading them (R109, R110). -/

/-- Of the low i bits the top n are 0, and the next is 1 unless all are 0. -/
theorem leadingZeros_spec (x : Word) : ∀ i, leadingZeros x i ≤ i ∧
    (∀ j, i - leadingZeros x i ≤ j → j < i → x.getLsbD j = false) ∧
    (leadingZeros x i < i → x.getLsbD (i - 1 - leadingZeros x i) = true)
  | 0 => ⟨Nat.le_refl 0, fun j _ h => absurd h (Nat.not_lt_zero j), fun h => absurd h (Nat.not_lt_zero _)⟩
  | i + 1 => by
    obtain ⟨hle, hzero, hone⟩ := leadingZeros_spec x i
    by_cases hb : x.getLsbD i = true
    · rw [show leadingZeros x (i + 1) = 0 from if_pos hb]
      exact ⟨Nat.zero_le _, fun j h1 h2 => by omega, fun _ => hb⟩
    · rw [show leadingZeros x (i + 1) = 1 + leadingZeros x i from if_neg hb]
      refine ⟨by omega, fun j h1 h2 => ?_, fun h => ?_⟩
      · by_cases hj : j = i
        · exact hj ▸ Bool.eq_false_iff.mpr hb
        · exact hzero j (by omega) (by omega)
      · rw [show i + 1 - 1 - (1 + leadingZeros x i) = i - 1 - leadingZeros x i by omega]
        exact hone (by omega)

/-- Of the n bits from i up the lowest t are 0, and the next is 1 unless all are 0. -/
theorem trailingZeros_spec (x : Word) : ∀ n i, trailingZeros x n i ≤ n ∧
    (∀ j, j < trailingZeros x n i → x.getLsbD (i + j) = false) ∧
    (trailingZeros x n i < n → x.getLsbD (i + trailingZeros x n i) = true)
  | 0, _ => ⟨Nat.le_refl 0, fun j h => absurd h (Nat.not_lt_zero j), fun h => absurd h (Nat.not_lt_zero _)⟩
  | n + 1, i => by
    obtain ⟨hle, hzero, hone⟩ := trailingZeros_spec x n (i + 1)
    by_cases hb : x.getLsbD i = true
    · rw [show trailingZeros x (n + 1) i = 0 from if_pos hb]
      exact ⟨Nat.zero_le _, fun j h => absurd h (Nat.not_lt_zero j), fun _ => hb⟩
    · rw [show trailingZeros x (n + 1) i = 1 + trailingZeros x n (i + 1) from if_neg hb]
      refine ⟨by omega, fun j h => ?_, fun h => ?_⟩
      · match j with
        | 0 => exact Bool.eq_false_iff.mpr hb
        | j + 1 =>
          rw [show i + (j + 1) = i + 1 + j by omega]
          exact hzero j (by omega)
      · rw [show i + (1 + trailingZeros x n (i + 1)) = i + 1 + trailingZeros x n (i + 1) by omega]
        exact hone (by omega)

theorem countOnes_eq (x : Word) : ∀ i, countOnes x i = ((List.range i).filter fun j => x.getLsbD j).length
  | 0 => rfl
  | i + 1 => by
    rw [countOnes, countOnes_eq x i, List.range_succ, List.filter_append, List.length_append, Nat.add_comm]
    by_cases hb : x.getLsbD i = true <;> simp [hb]

theorem clz_counts (x : Word) : ∃ n ≤ 64, clzWord x = BitVec.ofNat 64 n ∧
    (∀ j, 64 - n ≤ j → x.getLsbD j = false) ∧ (n < 64 → x.getLsbD (63 - n) = true) := by
  obtain ⟨hle, hzero, hone⟩ := leadingZeros_spec x 64
  refine ⟨_, hle, rfl, fun j h => ?_, hone⟩
  by_cases hj : j < 64
  · exact hzero j h hj
  · exact BitVec.getLsbD_of_ge x j (Nat.le_of_not_lt hj)

theorem ctz_counts (x : Word) : ∃ n ≤ 64, ctzWord x = BitVec.ofNat 64 n ∧
    (∀ j, j < n → x.getLsbD j = false) ∧ (n < 64 → x.getLsbD n = true) := by
  obtain ⟨hle, hzero, hone⟩ := trailingZeros_spec x 64 0
  simp only [Nat.zero_add] at hzero hone
  exact ⟨_, hle, rfl, hzero, hone⟩

theorem bitCounts : Stated.BitCounts := by
  intro s d a x
  refine ⟨codedR_of_encode rfl (RoundTrip.clz d a) rfl, codedR_of_encode rfl (RoundTrip.ctz d a) rfl,
    codedR_of_encode rfl (RoundTrip.pop d a) rfl, fun h => ?clz, fun h => ?ctz, ?pop⟩
  case clz =>
    obtain ⟨n, hn, hv, hbits⟩ := clz_counts x
    exact ⟨n, hn, exec_wrote rfl hv h, hbits⟩
  case ctz =>
    obtain ⟨n, hn, hv, hbits⟩ := ctz_counts x
    exact ⟨n, hn, exec_wrote rfl hv h, hbits⟩
  case pop => exact exec_wrote rfl (congrArg (BitVec.ofNat 64) (countOnes_eq x 64))

/-- What the loop of bext does with bit i (R110); r holds d and k. -/
def bextStep (x y : Word) (r : Nat × Nat) (i : Nat) : Nat × Nat :=
  if y.getLsbD i then (r.1 + (if x.getLsbD i then 2 ^ r.2 else 0), r.2 + 1) else r

/-- The same for bdep. -/
def bdepStep (x y : Word) (r : Nat × Nat) (i : Nat) : Nat × Nat :=
  if y.getLsbD i then (r.1 + (if x.getLsbD r.2 then 2 ^ i else 0), r.2 + 1) else r

/-- The loop over the n bits from i up adds what the model packs from there. -/
theorem foldl_bextStep (x y : Word) : ∀ n i (r : Nat × Nat),
    ((List.range' i n).foldl (bextStep x y) r).1 = r.1 + packBits x y n i r.2
  | 0, _, _ => rfl
  | n + 1, i, r => by
    rw [List.range'_succ, List.foldl_cons, foldl_bextStep x y n (i + 1), bextStep, packBits]
    split
    · exact Nat.add_assoc ..
    · rfl

theorem foldl_bdepStep (x y : Word) : ∀ n i (r : Nat × Nat),
    ((List.range' i n).foldl (bdepStep x y) r).1 = r.1 + spreadBits x y n i r.2
  | 0, _, _ => rfl
  | n + 1, i, r => by
    rw [List.range'_succ, List.foldl_cons, foldl_bdepStep x y n (i + 1), bdepStep, spreadBits]
    split
    · exact Nat.add_assoc ..
    · rfl

theorem bextLoop_eq (x y : Word) : (bextLoop x y).1 = packBits x y 64 0 0 := by
  change ((List.range 64).foldl (bextStep x y) (0, 0)).1 = _
  rw [List.range_eq_range', foldl_bextStep, Nat.zero_add]

theorem bdepLoop_eq (x y : Word) : (bdepLoop x y).1 = spreadBits x y 64 0 0 := by
  change ((List.range 64).foldl (bdepStep x y) (0, 0)).1 = _
  rw [List.range_eq_range', foldl_bdepStep, Nat.zero_add]

theorem bitPacking : Stated.BitPacking := by
  intro s d a b x y
  exact ⟨codedR_of_encode rfl (RoundTrip.bext d a b) rfl, codedR_of_encode rfl (RoundTrip.bdep d a b) rfl,
    exec_wrote rfl (congrArg (BitVec.ofNat 64) (bextLoop_eq x y).symm),
    exec_wrote rfl (congrArg (BitVec.ofNat 64) (bdepLoop_eq x y).symm)⟩

/-- Settles O23: the counts by induction on the bits looked at, the loops by induction on the bits left. -/
theorem bitResults : Obligations.BitResults := ⟨bitCounts, bitPacking⟩

/-! Immediate forms (R111, R112) and pointers (R113 to R115). -/

theorem addWord_signExtend (x : Word) (imm : BitVec 15) :
    addWord x (imm.signExtend 64) = BitVec.ofInt 64 (x.toInt + imm.toInt) := by
  rw [BitVec.ofInt_add, BitVec.ofInt_toInt]; rfl

theorem signExtend_shiftLeft (imm : BitVec 20) :
    imm.signExtend 64 <<< 15 = BitVec.ofInt 64 (imm.toInt * 2 ^ 15) := by
  rw [BitVec.ofInt_mul, BitVec.shiftLeft_eq_mul_twoPow]; rfl

/-- A shift amount of an immediate is below 64. -/
theorem amount_setWidth (n : BitVec 6) : amount (n.setWidth 64) = n.toNat := by
  have := n.isLt
  rw [amount, BitVec.toNat_setWidth]
  omega

theorem targetOk_iff (t : Int) : targetOk t = true ↔ 0 ≤ t ∧ t < 2 ^ 52 := by
  rw [targetOk, Bool.and_eq_true, decide_eq_true_eq, decide_eq_true_eq]

/-- The tag of a pointer with another address (R113): in the model by masks, in the rule by numbers. -/
theorem withAddress_eq_retagged (x : Word) {t : Int} (h : targetOk t = true) : withAddress x t = retagged x t := by
  obtain ⟨h0, h52⟩ := (targetOk_iff t).mp h
  obtain ⟨n, rfl⟩ := Int.eq_ofNat_of_zero_le h0
  have hn : n < 2 ^ 52 := by omega
  have hmask : ∀ j : Fin 64, (0xFFF0000000000000#64).getLsbD j = decide (52 ≤ j.val) := by decide
  apply BitVec.eq_of_getLsbD_eq
  intro j hj
  have hrule := Nat.testBit_two_pow_mul_add (x.toNat / 2 ^ 52) hn j
  have hm : (0xFFF0000000000000#64).getLsbD j = decide (52 ≤ j) := hmask ⟨j, hj⟩
  rw [withAddress, retagged, BitVec.ofInt_natCast, BitVec.getLsbD_or, BitVec.getLsbD_and, hm, BitVec.getLsbD_ofNat,
    BitVec.getLsbD_ofNat, Int.toNat_natCast, Nat.mul_comm, hrule, BitVec.getLsbD]
  by_cases hlow : j < 52
  · simp [hlow, hj, Nat.not_le.mpr hlow]
  · rw [if_neg hlow, Nat.testBit_div_two_pow, Nat.sub_add_cancel (by omega),
      Nat.testBit_lt_two_pow (lt_of_lt_of_le hn (Nat.pow_le_pow_right (by omega) (by omega)))]
    simp [hj, Nat.le_of_not_lt hlow]

/-- padd and pidx, whose address the rule forms, answer the pointer in range and else the trap. -/
theorem finishPointer_range (s : State) (d : Reg) (x : Word) (t : Int) :
    finishPointer s d (if targetOk t then .ok (withAddress x t) else .error x) = inRange s d x t := by
  by_cases h : targetOk t = true
  · rw [if_pos h, inRange, if_pos ((targetOk_iff t).mp h), ← withAddress_eq_retagged x h]; rfl
  · rw [if_neg h, inRange, if_neg ((targetOk_iff t).not.mp h)]; rfl

theorem formEa_eq (x : Word) (off : Int) : formEa x off = (x.toNat % 2 ^ 52 : Nat) + off := by
  rw [formEa, addrOf, bitsAt_zero]

theorem finishPointer_padd (s : State) (d : Reg) (x y : Word) :
    finishPointer s d (paddWord x y) = inRange s d x ((x.toNat % 2 ^ 52 : Nat) + y.toInt) := by
  rw [paddWord, formEa_eq, finishPointer_range]

theorem finishPointer_paddi (s : State) (d : Reg) (x : Word) (imm : BitVec 15) :
    finishPointer s d (paddWord x (imm.signExtend 64)) = inRange s d x ((x.toNat % 2 ^ 52 : Nat) + imm.toInt) := by
  rw [finishPointer_padd, BitVec.toInt_signExtend_of_le (by decide)]

/-- The block-length log of a code, the channel's apart. -/
theorem formatLog_eq_logOf {f : Nat} (h : f ≠ 0x3F) : formatLog f = logOf f := by
  rw [formatLog, logOf, if_neg h]
  by_cases h1 : f = 1
  · rw [if_pos h1, if_pos h1]
  · have hle : f ≤ 8 ↔ f = 0 ∨ 2 ≤ f ∧ f ≤ 8 := by omega
    rw [if_neg h1, if_neg h1, if_congr hle rfl rfl]

theorem logOf_channel : logOf 0x3F = none := rfl

theorem formatLog_channel : formatLog 0x3F = some 0 := rfl

/-- Where the channel may stand in a tag (R115). -/
theorem formatLog_eq_some (f l : Nat) : formatLog f = some l ↔ logOf f = some l ∨ f = 0x3F ∧ l = 0 := by
  by_cases hf : f = 0x3F
  · subst hf
    simp only [formatLog_channel, logOf_channel, Option.some.injEq, reduceCtorEq, true_and, false_or, eq_comm]
  · simp only [formatLog_eq_logOf hf, hf, false_and, or_false]

/-- Where it may not (R101, R114). -/
theorem logOf_eq_some (f l : Nat) : logOf f = some l ↔ f ≠ 0x3F ∧ formatLog f = some l := by
  by_cases hf : f = 0x3F
  · subst hf
    simp only [logOf_channel, reduceCtorEq, ne_eq, not_true_eq_false, false_and]
  · simp only [formatLog_eq_logOf hf, ne_eq, hf, not_false_eq_true, true_and]

theorem elementOffset_eq_offsetOf (f : Nat) (n : Int) : elementOffset f n = offsetOf f n := by
  unfold elementOffset
  split
  case h_6 h1 h8 h4 h5 h6 =>
    rw [offsetOf, if_neg h1, if_neg h8, stepOf, if_neg h4, if_neg h5, if_neg h6, Int.mul_one]
  all_goals rfl

theorem tagOk_iff (x : Word) : tagOk x = true ↔
    (tagFields (x.toNat / 2 ^ 52)).2.2 = 0 ∧
      logOf (tagFields (x.toNat / 2 ^ 52)).1 = some (tagFields (x.toNat / 2 ^ 52)).2.1 := by
  have hcode : bitsAt x 58 6 = (tagFields (x.toNat / 2 ^ 52)).1 := by simp only [bitsAt, tagFields]; omega
  have hlog : bitsAt x 55 3 = (tagFields (x.toNat / 2 ^ 52)).2.1 := by simp only [bitsAt, tagFields]; omega
  have hzero : bitsAt x 52 3 = (tagFields (x.toNat / 2 ^ 52)).2.2 := rfl
  simp only [tagOk, hcode, hlog, hzero, Bool.and_eq_true, bne_iff_ne, beq_iff_eq, logOf_eq_some, and_assoc, and_left_comm]

theorem finishPointer_pidx (s : State) (d : Reg) (x y : Word) :
    finishPointer s d (pidxWord x y) = pidxAnswer s d x y.toInt := by
  have hcode : bitsAt x 58 6 = (tagFields (x.toNat / 2 ^ 52)).1 := by simp only [bitsAt, tagFields]; omega
  by_cases ht : tagOk x = true
  · simp only [pidxWord, ht, Bool.not_true, Bool.false_eq_true, if_false, pidxAnswer, if_pos ((tagOk_iff x).mp ht),
      hcode, elementOffset_eq_offsetOf, formEa_eq]
    cases offsetOf (tagFields (x.toNat / 2 ^ 52)).1 y.toInt with
    | none => rfl
    | some off => exact finishPointer_range s d x _
  · rw [pidxWord, if_pos (by simpa using ht), pidxAnswer, if_neg ((tagOk_iff x).not.mp ht)]; rfl

/-- The new tag in front of the address (R115): in the model by masks, in the rule by numbers. -/
theorem shiftLeft_or_and_eq (x y : Word) (hy : y.toNat < 2 ^ 12) :
    (y <<< 52) ||| (x &&& 0xFFFFFFFFFFFFF#64) = BitVec.ofNat 64 (y.toNat * 2 ^ 52 + x.toNat % 2 ^ 52) := by
  apply BitVec.eq_of_toNat_eq
  have hx : x.toNat % 2 ^ 52 < 2 ^ 52 := Nat.mod_lt _ (by decide)
  have hlow : x.toNat &&& 0xFFFFFFFFFFFFF = x.toNat % 2 ^ 52 := Nat.and_two_pow_sub_one_eq_mod x.toNat 52
  rw [BitVec.toNat_or, BitVec.toNat_and, BitVec.toNat_shiftLeft, BitVec.toNat_ofNat, BitVec.toNat_ofNat,
    Nat.mod_eq_of_lt (show 0xFFFFFFFFFFFFF < 2 ^ 64 by decide), hlow,
    Nat.mod_eq_of_lt (show y.toNat <<< 52 < 2 ^ 64 by rw [Nat.shiftLeft_eq]; omega),
    Nat.mod_eq_of_lt (show y.toNat * 2 ^ 52 + x.toNat % 2 ^ 52 < 2 ^ 64 by omega),
    ← Nat.shiftLeft_add_eq_or_of_lt hx, Nat.shiftLeft_eq]

theorem finishPointer_ptagset (s : State) (d : Reg) (x y : Word) :
    finishPointer s d (ptagsetWord x y) = ptagsetAnswer s d x y := by
  have hcode : bitsAt y 6 6 = (tagFields (y.toNat % 2 ^ 12)).1 := by simp only [bitsAt, tagFields]; omega
  have hlog : bitsAt y 3 3 = (tagFields (y.toNat % 2 ^ 12)).2.1 := by simp only [bitsAt, tagFields]; omega
  have hzero : bitsAt y 0 3 = (tagFields (y.toNat % 2 ^ 12)).2.2 := by simp only [bitsAt, tagFields]; omega
  have hhigh : bitsAt y 12 52 = 0 ↔ y.toNat < 2 ^ 12 := by
    rw [bitsAt_top _ (show 12 + 52 = 64 from rfl), Nat.div_eq_zero_iff_lt (by decide)]
  simp only [ptagsetWord, ptagsetAnswer, hcode, hlog, hzero, ne_eq, hhigh, ← formatLog_eq_some]
  split
  case isTrue hbad => rw [if_neg (by tauto)]; rfl
  case isFalse hok =>
    rw [if_pos (by tauto), ← shiftLeft_or_and_eq x y (by tauto)]; rfl

theorem immTopOf_ne_zero {w : IWord} (h : 64 ≤ (immOf w).toNat) : immTopOf w ≠ 0#9 := by
  intro h0
  have h0' := congrArg BitVec.toNat h0
  simp only [immTopOf, immOf, BitVec.extractLsb'_toNat, BitVec.toNat_ofNat, Nat.shiftRight_eq_div_pow] at h h0'
  omega

theorem decode_shift_none {w : IWord} (ho : opOf w ∈ [0x0C#7, 0x0D#7, 0x0E#7]) (h : immTopOf w ≠ 0#9) :
    decode w = none := by
  simp only [List.mem_cons, List.not_mem_nil, or_false] at ho
  rcases ho with ho | ho | ho
  · rw [decode_0c ho, if_neg h]
  · rw [decode_0d ho, if_neg h]
  · rw [decode_0e ho, if_neg h]

/-- Clearing the lookahead field leaves the major and the top of the immediate. -/
theorem opOf_and_mask (w : IWord) : opOf (w &&& 0xFFFFFFF0#32) = opOf w := by
  rw [opOf, BitVec.extractLsb'_and]
  exact BitVec.and_allOnes

theorem immTopOf_and_mask (w : IWord) : immTopOf (w &&& 0xFFFFFFF0#32) = immTopOf w := by
  rw [immTopOf, BitVec.extractLsb'_and]
  exact BitVec.and_allOnes

/-- The cause of a shift word with a nonzero imm15[14:6] is FIELD: its major is assigned, no unit's, and the word decodes
with no lookahead count either (R50, R111). -/
theorem illegalCause_shift (s : State) (k : Nat) {w : IWord} (ho : opOf w ∈ [0x0C#7, 0x0D#7, 0x0E#7])
    (h : immTopOf w ≠ 0#9) : illegalCause w s k = causeFIELD := by
  have hop : (opOf w).toNat = 0x0C ∨ (opOf w).toNat = 0x0D ∨ (opOf w).toNat = 0x0E := by
    simp only [List.mem_cons, List.not_mem_nil, or_false] at ho
    rcases ho with ho | ho | ho <;> rw [ho]
    · exact .inl rfl
    · exact .inr (.inl rfl)
    · exact .inr (.inr rfl)
  have hmajor : majorAssigned (opOf w).toNat = true := by rcases hop with hop | hop | hop <;> rw [hop] <;> rfl
  have hunit : unitWord w = false := by rcases hop with hop | hop | hop <;> simp [unitWord, hop]
  have hclear : clearLookahead w = w &&& 0xFFFFFFF0#32 := by rw [clearLookahead, if_neg (by omega)]
  have hnone : decode (clearLookahead w) = none := by
    rw [hclear]
    exact decode_shift_none (by rwa [opOf_and_mask]) (by rwa [immTopOf_and_mask])
  simp [illegalCause, hmajor, hunit, hnone]

/-- Settles O5: the value of each form is the row's with the immediate extended, and a shift word with a nonzero top
decodes neither as it is nor with its lookahead field cleared. -/
theorem immediateResults : Obligations.ImmediateResults := by
  refine ⟨fun s d a imm => ?_, fun s d a n => ?_, fun s k w ho h => ?field, fun s d imm => ?lui⟩
  · exact ⟨codedM_of_encodeI rfl (RoundTrip.addi d a imm) rfl, codedM_of_encodeI rfl (RoundTrip.andi d a imm) rfl,
      codedM_of_encodeI rfl (RoundTrip.ori d a imm) rfl, codedM_of_encodeI rfl (RoundTrip.xori d a imm) rfl,
      codedM_of_encodeI rfl (RoundTrip.paddi d a imm) rfl,
      exec_wrote rfl (addWord_signExtend ..), exec_wrote rfl rfl, exec_wrote rfl rfl, exec_wrote rfl rfl,
      exec_of_issue rfl (finishPointer_paddi ..)⟩
  · have hn := amount_setWidth n
    exact ⟨codedM_of_encodeI rfl (RoundTrip.slli d a n) rfl, codedM_of_encodeI rfl (RoundTrip.srli d a n) rfl,
      codedM_of_encodeI rfl (RoundTrip.srai d a n) rfl,
      exec_wrote rfl (hn ▸ sllWord_eq ..), exec_wrote rfl (hn ▸ srlWord_eq ..), exec_wrote rfl (hn ▸ sraWord_eq ..)⟩
  case field =>
    exact ⟨decode_shift_none ho (immTopOf_ne_zero h), illegalCause_shift s k ho (immTopOf_ne_zero h)⟩
  case lui => exact ⟨⟨opOf_wordU .., RoundTrip.lui d imm rfl⟩, exec_wrote rfl (signExtend_shiftLeft imm)⟩

theorem ushiftRight_tag (x : Word) : x >>> 52 = BitVec.ofNat 64 (x.toNat / 2 ^ 52) :=
  BitVec.eq_of_toNat_eq (by
    rw [BitVec.toNat_ushiftRight, Nat.shiftRight_eq_div_pow, BitVec.toNat_ofNat, Nat.mod_eq_of_lt (by omega)])

/-- Settles O6: the model's masks are the rule's numbers, and its checks of the tag the rule's. -/
theorem pointerResults : Obligations.PointerResults := by
  intro s d a b x y
  exact ⟨codedR_of_encode rfl (RoundTrip.padd d a b) rfl, codedR_of_encode rfl (RoundTrip.pidx d a b) rfl,
    codedR_of_encode rfl (RoundTrip.ptag d a) rfl, codedR_of_encode rfl (RoundTrip.ptagset d a b) rfl,
    exec_of_issue rfl (finishPointer_padd s d x y), exec_of_issue rfl (finishPointer_pidx s d x y),
    exec_wrote rfl (ushiftRight_tag x), exec_of_issue rfl (finishPointer_ptagset s d x y)⟩

/-! Branches and jumps (R121 to R124). -/

section
variable {i : Instr} {s : State}

theorem branch_eq_branched (s : State) (c : Bool) (n : Int) : branch s c (4 * n) = branched s c n := by
  simp only [branch, branched, targetOk_iff]
  rfl

/-- A branch whose condition in the model, c, is the condition v of the rule. -/
theorem exec_branched {c : State → Bool} {v : Bool} {n : Int}
    (he : exec i s = issue i s fun t => branch t (c t) (4 * n)) (hv : c s = v) (h : ready i s = true) :
    exec i s = branched s v n :=
  exec_of_issue he (by rw [hv, branch_eq_branched]) h

end

theorem not_slt_eq (x y : Word) : (!x.slt y) = decide (x.toInt ≥ y.toInt) := by
  rw [BitVec.slt_eq_decide, ← decide_not, decide_eq_decide]
  exact Int.not_lt

theorem not_ult_eq (x y : Word) : (!x.ult y) = decide (x.toNat ≥ y.toNat) := by
  rw [BitVec.ult_eq_decide, ← decide_not, decide_eq_decide]
  exact Nat.not_lt

theorem branchResults : Stated.BranchResults := by
  intro s a b disp
  simp only [branchRows, List.forall_mem_cons, List.not_mem_nil, false_imp_iff, implies_true, and_true]
  exact ⟨⟨codedM_of_encodeB rfl (RoundTrip.beq a b disp) rfl, exec_branched rfl rfl⟩,
    ⟨codedM_of_encodeB rfl (RoundTrip.bne a b disp) rfl, exec_branched rfl rfl⟩,
    ⟨codedM_of_encodeB rfl (RoundTrip.blt a b disp) rfl, exec_branched rfl (BitVec.slt_eq_decide ..)⟩,
    ⟨codedM_of_encodeB rfl (RoundTrip.bge a b disp) rfl, exec_branched rfl (not_slt_eq ..)⟩,
    ⟨codedM_of_encodeB rfl (RoundTrip.bltu a b disp) rfl, exec_branched rfl (BitVec.ult_eq_decide ..)⟩,
    ⟨codedM_of_encodeB rfl (RoundTrip.bgeu a b disp) rfl, exec_branched rfl (not_ult_eq ..)⟩,
    ⟨codedM_of_encodeB rfl (RoundTrip.bbs a b disp) rfl, exec_branched rfl rfl⟩,
    ⟨codedM_of_encodeB rfl (RoundTrip.bbc a b disp) rfl, exec_branched rfl rfl⟩⟩

theorem writeReg_cur (s : State) (k : Nat) (r : Reg) (v : Word) : (writeReg s k r v).cur = s.cur := by
  obtain ⟨th, co, h⟩ := writeReg_touches s k r v
  rw [h]

/-- A jump goes on with its link written. -/
theorem wentTo_writeReg (s : State) (d : Reg) (v : Word) (t : Int) : wentTo (writeReg s s.cur d v) t =
    .next (retireTo (writeReg s s.cur d v) s.cur (BitVec.ofInt 64 t) []) := by
  rw [wentTo, writeReg_cur]

theorem exec_jal {s : State} {disp : BitVec 25} (h : ready (.jal disp) s = true) :
    let pc := (s.thr s.cur).pc
    let t : Int := pc.toNat + 4 * disp.toInt
    exec (.jal disp) s = if 0 ≤ t ∧ t < 2 ^ 52 then wentTo (writeReg s s.cur 9#5 (pc + 4#64)) t
      else trapped s kindADDRESS 0 (BitVec.ofInt 64 t) := by
  intro pc t
  change issue (.jal disp) s _ = _
  rw [issue_ready _ h]
  exact if_congr (targetOk_iff t) (wentTo_writeReg ..).symm rfl

theorem exec_jalr {s : State} {d a : Reg} {imm : BitVec 15} (h : ready (.jalr d a imm) s = true) :
    let pc := (s.thr s.cur).pc
    let t : Int := ((readReg s s.cur a).toNat % 2 ^ 52 : Nat) + imm.toInt
    exec (.jalr d a imm) s = if 0 ≤ t ∧ t < 2 ^ 52 ∧ t % 4 = 0 then wentTo (writeReg s s.cur d (pc + 4#64)) t
      else trapped s kindADDRESS 0 (BitVec.ofInt 64 t) := by
  intro pc t
  change issue (.jalr d a imm) s _ = _
  rw [issue_ready _ h]
  have ht : (targetOk t && t % 4 == 0) = true ↔ 0 ≤ t ∧ t < 2 ^ 52 ∧ t % 4 = 0 := by
    rw [Bool.and_eq_true, targetOk_iff, beq_iff_eq, and_assoc]
  simp only [formEa_eq]
  exact if_congr ht (wentTo_writeReg ..).symm rfl

theorem jumpResults : Stated.JumpResults :=
  ⟨fun _ disp => ⟨⟨opOf_wordJ .., RoundTrip.jal disp rfl⟩, exec_jal⟩,
    fun _ d a imm => ⟨codedM_of_encodeI rfl (RoundTrip.jalr d a imm) rfl, exec_jalr⟩⟩

/-- Settles O24: a branch's condition is the rule's, and the test of the target is the rule's range; a jump writes its
link only where that test passes. -/
theorem controlFlow : Obligations.ControlFlow := ⟨branchResults, jumpResults⟩

/-! Scalar floating point (R116 to R120). -/

section
variable {i : Instr} {s : State} {d : Reg} {rm : BitVec 3} {lk : BitVec 4}

/-- The draw of an instruction with a rounding field has the counter's value at issue, which it counts (R88, R120). -/
theorem finishFloat_eq (s : State) (i : Instr) (d : Reg) (rm : BitVec 3) (f : Rounding → Word) :
    finishFloat s i d rm f = opened (drew s rm) i d (lookaheadOf i) (f (roundingOf s rm)) := rfl

theorem exec_rounded {g : State → Rounding → Word} {v : Word}
    (he : exec i s = issue i s fun t => finishFloat t i d rm (g t)) (hl : lookaheadOf i = lk)
    (hv : g s (roundingOf s rm) = v) (h : ready i s = true) :
    exec i s = opened (drew s rm) i d lk v :=
  exec_of_issue he (by rw [finishFloat_eq, hl, hv]) h

end

theorem floatOperand_fp64 (s : State) (r : Reg) : floatOperand s .fp64 r = opD s r :=
  congrArg (Fmt.value .fp64) (Nat.mod_eq_of_lt (readReg s s.cur r).isLt)

theorem floatSingle : Stated.FloatSingle := by
  intro s d a b rm lk r
  simp only [floatRowsS, List.forall_mem_cons, List.not_mem_nil, false_imp_iff, implies_true, and_true]
  refine ⟨?rows, codedL_of_encode rfl (RoundTrip.fminS d a b lk) rfl, codedL_of_encode rfl (RoundTrip.fmaxS d a b lk) rfl,
    exec_opened rfl rfl rfl, exec_opened rfl rfl rfl⟩
  exact ⟨⟨codedL_of_encode rfl (RoundTrip.faddS d a b rm lk) rfl, exec_rounded rfl rfl rfl⟩,
    ⟨codedL_of_encode rfl (RoundTrip.fsubS d a b rm lk) rfl, exec_rounded rfl rfl rfl⟩,
    ⟨codedL_of_encode rfl (RoundTrip.fmulS d a b rm lk) rfl, exec_rounded rfl rfl rfl⟩,
    ⟨codedL_of_encode rfl (RoundTrip.fdivS d a b rm lk) rfl, exec_rounded rfl rfl rfl⟩,
    ⟨codedL_of_encode rfl (RoundTrip.fsqrtS d a rm lk) rfl, exec_rounded rfl rfl rfl⟩,
    ⟨codedL_of_encode rfl (RoundTrip.fmaS d a b rm lk) rfl, exec_rounded rfl rfl rfl⟩,
    ⟨codedL_of_encode rfl (RoundTrip.fmsS d a b rm lk) rfl, exec_rounded rfl rfl rfl⟩,
    ⟨codedL_of_encode rfl (RoundTrip.fnmaS d a b rm lk) rfl, exec_rounded rfl rfl rfl⟩,
    ⟨codedL_of_encode rfl (RoundTrip.fnmsS d a b rm lk) rfl, exec_rounded rfl rfl rfl⟩⟩

/-- The FP64 rows of the table are the FP64 meanings: an operand is all of the register. -/
theorem floatDouble : Stated.FloatDouble := by
  intro s d a b rm lk r
  simp only [floatRowsD, List.forall_mem_cons, List.not_mem_nil, false_imp_iff, implies_true, and_true,
    ← floatOperand_fp64]
  refine ⟨?rows, codedL_of_encode rfl (RoundTrip.fminD d a b lk) rfl, codedL_of_encode rfl (RoundTrip.fmaxD d a b lk) rfl,
    exec_opened rfl rfl rfl, exec_opened rfl rfl rfl⟩
  exact ⟨⟨codedL_of_encode rfl (RoundTrip.faddD d a b rm lk) rfl, exec_rounded rfl rfl rfl⟩,
    ⟨codedL_of_encode rfl (RoundTrip.fsubD d a b rm lk) rfl, exec_rounded rfl rfl rfl⟩,
    ⟨codedL_of_encode rfl (RoundTrip.fmulD d a b rm lk) rfl, exec_rounded rfl rfl rfl⟩,
    ⟨codedL_of_encode rfl (RoundTrip.fdivD d a b rm lk) rfl, exec_rounded rfl rfl rfl⟩,
    ⟨codedL_of_encode rfl (RoundTrip.fsqrtD d a rm lk) rfl, exec_rounded rfl rfl rfl⟩,
    ⟨codedL_of_encode rfl (RoundTrip.fmaD d a b rm lk) rfl, exec_rounded rfl rfl rfl⟩,
    ⟨codedL_of_encode rfl (RoundTrip.fmsD d a b rm lk) rfl, exec_rounded rfl rfl rfl⟩,
    ⟨codedL_of_encode rfl (RoundTrip.fnmaD d a b rm lk) rfl, exec_rounded rfl rfl rfl⟩,
    ⟨codedL_of_encode rfl (RoundTrip.fnmsD d a b rm lk) rfl, exec_rounded rfl rfl rfl⟩⟩

/-- Settles O26: row by row, the exact value is rounded once, in the mode and with the draw that roundingOf gives. -/
theorem floatArithmetic : Obligations.FloatArithmetic := ⟨floatSingle, floatDouble⟩

/-! Comparisons and conversions (R118, R119). -/

theorem isNan_iff (x : Val) : x.isNan = true ↔ x = .nan := by cases x <;> simp [Val.isNan]

/-- No two values are each below the other. -/
theorem ltVal_asymm : ∀ {x y : Val}, ltVal x y = true → ltVal y x = false
  | .nan, _, h => nomatch h
  | .inf p, .inf q, h => by
    obtain ⟨hp, hq⟩ := (Bool.and_eq_true _ _).mp h
    simp [ltVal, hp]
  | .inf p, .fin _ _, h => by simpa [ltVal] using h
  | .fin _ _, .inf q, h => by simpa [ltVal] using h
  | .fin _ _, .fin _ _, h => decide_eq_false (Int.lt_asymm (of_decide_eq_true h))
  | .inf _, .nan, h | .fin _ _, .nan, h => nomatch h

/-- A NaN is below nothing, and nothing is below it. -/
theorem ltVal_not_nan {x y : Val} (h : ltVal x y = true) : x ≠ .nan ∧ y ≠ .nan := by
  constructor
  · rintro rfl
    cases h
  · rintro rfl
    cases x <;> cases h

theorem ltVal_iff (x y : Val) : ltVal x y = true ↔ x ≠ .nan ∧ y ≠ .nan ∧ ltVal x y = true :=
  ⟨fun h => ⟨(ltVal_not_nan h).1, (ltVal_not_nan h).2, h⟩, fun h => h.2.2⟩

theorem eqVal_iff (x y : Val) :
    eqVal x y = true ↔ x ≠ .nan ∧ y ≠ .nan ∧ ltVal x y = false ∧ ltVal y x = false := by
  cases x <;> cases y <;> simp [eqVal]

/-- Below or equal is not above, for two numbers. -/
theorem leVal_iff (x y : Val) : (ltVal x y || eqVal x y) = true ↔ x ≠ .nan ∧ y ≠ .nan ∧ ltVal y x = false := by
  rw [Bool.or_eq_true, eqVal_iff]
  constructor
  · rintro (h | ⟨hx, hy, -, h⟩)
    · exact ⟨(ltVal_not_nan h).1, (ltVal_not_nan h).2, ltVal_asymm h⟩
    · exact ⟨hx, hy, h⟩
  · rintro ⟨hx, hy, h⟩
    cases hl : ltVal x y with
    | true => exact .inl rfl
    | false => exact .inr ⟨hx, hy, rfl, h⟩

theorem isNan_or_iff (x y : Val) : (x.isNan || y.isNan) = true ↔ x = .nan ∨ y = .nan := by
  rw [Bool.or_eq_true, isNan_iff, isNan_iff]

/-- The conditions of fcmp by its code. -/
theorem compareVal_iff (cc : BitVec 3) (x y : Val) : compareVal cc x y = true ↔ condHolds cc x y := by
  unfold compareVal condHolds
  generalize cc.toNat = n
  match n with
  | 0 => exact eqVal_iff x y
  | 1 => exact ltVal_iff x y
  | 2 => exact leVal_iff x y
  | _ + 3 => exact isNan_or_iff x y

theorem exec_fcmp {i : Instr} {s : State} {d : Reg} {lk : BitVec 4} {cc : BitVec 3} {x y : Val} {g : State → Bool}
    (he : exec i s = issue i s fun t => finishLong t i d (.one (if g t then ~~~0#64 else 0#64)))
    (hl : lookaheadOf i = lk) (hg : g s = compareVal cc x y) (h : ready i s = true) :
    (condHolds cc x y → exec i s = opened s i d lk (BitVec.allOnes 64)) ∧
      (¬ condHolds cc x y → exec i s = opened s i d lk 0#64) :=
  ⟨fun hc => exec_opened he hl (if_pos (hg.trans ((compareVal_iff cc x y).mpr hc))) h,
   fun hc => exec_opened he hl (if_neg (hg ▸ (compareVal_iff cc x y).not.mpr hc)) h⟩

/-- Settles O7: the test of each condition code is the rule's condition, and a conversion's value is that of its row. -/
theorem floatCompareConvert : Obligations.FloatCompareConvert := by
  intro s d a b cc rm lk
  simp only [convertRows, List.forall_mem_cons, List.not_mem_nil, false_imp_iff, implies_true, and_true,
    ← floatOperand_fp64]
  refine ⟨codedL_of_encode rfl (RoundTrip.fcmpS d a b cc lk) rfl, codedL_of_encode rfl (RoundTrip.fcmpD d a b cc lk) rfl,
    exec_fcmp rfl rfl rfl, exec_fcmp rfl rfl rfl, ?rows⟩
  exact ⟨⟨codedL_of_encode rfl (RoundTrip.fcvtSD d a rm lk) rfl, exec_rounded rfl rfl rfl⟩,
    ⟨codedL_of_encode rfl (RoundTrip.fcvtDS d a rm lk) rfl, exec_rounded rfl rfl rfl⟩,
    ⟨codedL_of_encode rfl (RoundTrip.fcvtSL d a rm lk) rfl, exec_rounded rfl rfl rfl⟩,
    ⟨codedL_of_encode rfl (RoundTrip.fcvtDL d a rm lk) rfl, exec_rounded rfl rfl rfl⟩,
    ⟨codedL_of_encode rfl (RoundTrip.fcvtLS d a rm lk) rfl, exec_rounded rfl rfl rfl⟩,
    ⟨codedL_of_encode rfl (RoundTrip.fcvtLD d a rm lk) rfl, exec_rounded rfl rfl rfl⟩,
    ⟨codedL_of_encode rfl (RoundTrip.fcvtDLu d a rm lk) rfl, exec_rounded rfl rfl rfl⟩,
    ⟨codedL_of_encode rfl (RoundTrip.fcvtLuD d a rm lk) rfl, exec_rounded rfl rfl rfl⟩⟩

/-! wait, yield and pin (R127, R303, R304). -/

/-- The hit of the model is the rule's: bit 0 comes with the TIME event where the mask asks for it. -/
theorem hitOf_eq (s : State) (t : Thread) (mask : BitVec 5) (x : Word) :
    hitOf s t mask x = hitAt t.latch mask s.time x := by
  simp only [hitOf, hitBits, hitAt, BitVec.ule, Bool.and_eq_true, decide_eq_true_eq]

theorem waitFor_eq_waited (s : State) (d a : Reg) (mask : BitVec 5) (asYield : Bool) :
    waitFor s d a mask asYield = waited s d a mask asYield := by
  simp only [waitFor, waited, hitOf_eq]
  rfl

theorem yieldMask_eq (x : Word) : yieldMask x = x.extractLsb' 0 5 &&& 0b11110#5 := by
  rw [yieldMask, extract_zero_eq_setWidth]

theorem exec_yield {s : State} {d a : Reg} (h : ready (.yield d a) s = true) :
    let y := (readReg s s.cur a).extractLsb' 0 5 &&& 0b11110#5
    exec (.yield d a) s = if y = 0#5 then wrote s d 0#64 else waited s d a y true := by
  intro y
  change issue (.yield d a) s _ = _
  rw [issue_ready _ h]
  simp only [yieldMask_eq, waitFor_eq_waited]
  rfl

/-- A thread that sleeps in wait, with nothing else to wait for, is asleep while its mask finds no hit. -/
theorem asleep_wait {s : State} {k : Nat} {mask : BitVec 5} {x : Reg} (hs : (s.thr k).sleep = some ⟨false, mask, x⟩)
    (hh : (s.thr k).hold = .none) (hw : windowBlocked (s.thr k) = false) :
    asleep s k = true ↔ hitAt (s.thr k).latch mask s.time (readReg s k x) = 0#5 := by
  simp [asleep, hs, hh, hw, sleepsOn, hitOf_eq]

theorem waitYield : Stated.WaitYield := by
  intro s d a mask x y
  exact ⟨codedM_of_encodeI rfl (RoundTrip.wait d a mask) rfl, codedR_of_encode rfl (RoundTrip.yield d a) rfl,
    exec_of_issue rfl (waitFor_eq_waited ..), exec_yield, fun _ _ => asleep_wait⟩

theorem exec_pin {s : State} {d a : Reg} (h : ready (.pin d a) s = true) : exec (.pin d a) s =
    if 1024 ≤ coreOf s.cur then wrote s d 1#64
    else wrote (s.setThr s.cur { s.thr s.cur with pinned := (readReg s s.cur a).getLsbD 0 }) d
      (BitVec.ofNat 64 (s.thr s.cur).pinned.toNat) := by
  have hmark : (if (s.thr s.cur).pinned then 1#64 else 0#64) = BitVec.ofNat 64 (s.thr s.cur).pinned.toNat := by
    cases (s.thr s.cur).pinned <;> rfl
  change issue (.pin d a) s _ = _
  rw [issue_ready _ h]
  simp only [isSystem_iff, hmark]
  rfl

theorem pinMark : Stated.PinMark :=
  fun _ d a => ⟨codedR_of_encode rfl (RoundTrip.pin d a) rfl, exec_pin⟩

/-- Settles O28: the hit of the model is hitAt of the rule, at the instruction and for the sleeping thread. -/
theorem threadYields : Obligations.ThreadYields := ⟨waitYield, pinMark⟩

/-! The arrival of a long-latency result (R37, R39, R495). -/

theorem findFirst_cons_self (w : Window) (ws : List Window) : findFirst (fun x => x.id == w.id) (w :: ws) = some w := by
  simp [findFirst]

/-- The arrival of a window's result, where the window is the first of the thread's. -/
theorem exec_arrival {s : State} {k : Nat} {w : Window} {ws : List Window} {r : Result}
    (hw : (s.thr k).allWindows = w :: ws) (ha : w.arrival = .later r) :
    exec (.longLatencyResultArrival k w.id) s = .next (arrive s k w.id r) := by
  change execLongLatencyResultArrival k w.id s = _
  rw [execLongLatencyResultArrival, hw, findFirst_cons_self]
  simp only [ha]

/-- The result goes into its window and no other. -/
theorem arriveIn_cons {w : Window} {ws : List Window} (r : Result) (hid : ∀ x ∈ ws, x.id ≠ w.id) :
    arriveIn w.id r (w :: ws) = { w with arrival := .ready r } :: ws := by
  rw [arriveIn, List.map_cons, if_pos rfl]
  exact congrArg (_ :: ·) ((List.map_congr_left fun x hx => if_neg (hid x hx)).trans (List.map_id ws))

/-- Where every count is still running nothing closes. -/
theorem closeList_counting (s : State) (k : Nat) {ws : List Window} (h : ∀ x ∈ ws, 1 ≤ x.count) :
    closeList s k ws = (s, ws) := by
  induction ws with
  | nil => rfl
  | cons w ws ih =>
    rw [closeList, if_neg (Nat.ne_of_gt (h w (.head _))), ih fun x hx => h x (.tail _ hx)]

theorem closeWindows_counting (s : State) (k : Nat) (h : ∀ x ∈ (s.thr k).windows, 1 ≤ x.count) :
    closeWindows s k = s.setThr k (s.thr k) := by
  rw [closeWindows, closeList_counting s k h]

/-- The oldest window, whose count has run out and whose result is there, closes alone. -/
theorem closeWindows_oldest {s : State} {k : Nat} {w : Window} {ws : List Window} {v : Word}
    (hw : (s.thr k).windows = w :: ws) (hc : w.count = 0) (ha : w.arrival = .ready (.one v))
    (h : ∀ x ∈ ws, 1 ≤ x.count) :
    closeWindows s k = (closeReg s k w.dest v).setThr k { (closeReg s k w.dest v).thr k with windows := ws } := by
  have hl : closeList s k (w :: ws) = (closeReg s k w.dest v, ws) := by
    rw [closeList, if_pos hc]
    simp only [ha]
    exact closeList_counting _ k h
  rw [closeWindows, hw, hl]

/-- A register after a window's close (R35, R37). -/
theorem readReg_closeReg (s : State) (k : Nat) {d : Reg} (v : Word) (hd : regOk d = true) (hz : d ≠ 10#5) (r : Reg) :
    readReg (closeReg s k d v) k r = if r = d ∧ remains true s k r = true then v else readReg s k r := by
  by_cases hr : r = d
  · subst hr
    by_cases hrem : remains true s k r = true
    · have hne : r.toNat ≠ 10 := fun e => hz (BitVec.eq_of_toNat_eq e)
      have hcode : r.toNat < 10 ∨ r.toNat = 11 ∨ 16 ≤ r.toNat := by
        simp only [regOk, Bool.not_eq_true', Bool.and_eq_false_iff, decide_eq_false_iff_not] at hd
        omega
      rw [if_pos ⟨rfl, hrem⟩, closeReg, readReg_putReg_same true s k r v hcode hrem]
    · -- the write of a higher slot stands in the bank
      have hout : ¬ r.toNat < 16 ∧ (s.core (coreOf k)).outranks s.ck (r.toNat - 16) (writeRank k true) = true := by
        simpa [remains] using hrem
      obtain ⟨hlow, hrank⟩ := hout
      have hs : 16 ≤ r.toNat := Nat.le_of_not_lt hlow
      rw [if_neg fun h => hrem h.2, closeReg, readReg_s _ _ _ hs, readReg_s _ _ _ hs, putReg_s_core true s k r v hs,
        written_outranked _ _ _ _ _ hrank]
  · rw [if_neg fun h => hr h.1, closeReg, readReg_putReg_other true s k r d v hr]

/-- The thread with the result in its window, wherever the window stands. -/
def withArrival (t : Thread) (wid : Nat) (r : Result) : Thread :=
  { t with windows := arriveIn wid r t.windows, frozen := arriveIn wid r t.frozen, held := arriveIn wid r t.held }

theorem arrive_eq_closeWindows (s : State) (k wid : Nat) (r : Result) :
    arrive s k wid r = closeWindows (s.setThr k (withArrival (s.thr k) wid r)) k := rfl

/-- The arrival itself changes no register. -/
theorem readReg_withArrival (s : State) (k wid : Nat) (x : Result) (r : Reg) :
    readReg (s.setThr k (withArrival (s.thr k) wid x)) k r = readReg s k r :=
  readReg_congr k r (by rw [thr_setThr_same]; rfl) (by rw [thr_setThr_same]; rfl) rfl

/-- Nor does a thread's list of windows hold any. -/
theorem readReg_setWindows (s : State) (k : Nat) (ws : List Window) (r : Reg) :
    readReg (s.setThr k { s.thr k with windows := ws }) k r = readReg s k r :=
  readReg_congr k r (by rw [thr_setThr_same]) (by rw [thr_setThr_same]) rfl

section
variable {s : State} {k : Nat} {w : Window} {ws : List Window} {v : Word}

theorem arrive_closes (hw : (s.thr k).windows = w :: ws) (hws : ∀ x ∈ ws, x.id ≠ w.id ∧ 1 ≤ x.count)
    (hd : regOk w.dest = true) (hz : w.dest ≠ 10#5) (hc : w.count = 0) :
    let u := arrive s k w.id (.one v)
    (u.thr k).windows = ws ∧
      ∀ r, readReg u k r = if r = w.dest ∧ remains true s k r = true then v else readReg s k r := by
  intro u
  let a := s.setThr k (withArrival (s.thr k) w.id (.one v))
  have ha : (a.thr k).windows = { w with arrival := .ready (.one v) } :: ws := by
    rw [thr_setThr_same, withArrival, hw, arriveIn_cons _ fun x hx => (hws x hx).1]
  have hu : u = (closeReg a k w.dest v).setThr k { (closeReg a k w.dest v).thr k with windows := ws } :=
    (arrive_eq_closeWindows s k w.id (.one v)).trans
      (closeWindows_oldest (w := { w with arrival := .ready (.one v) }) ha hc rfl fun x hx => (hws x hx).2)
  refine ⟨by rw [hu, thr_setThr_same], fun r => ?_⟩
  rw [hu, readReg_setWindows, readReg_closeReg a k v hd hz, readReg_withArrival]
  rfl

theorem arrive_counting (h : ∀ x ∈ arriveIn w.id (.one v) (s.thr k).windows, 1 ≤ x.count) :
    let u := arrive s k w.id (.one v)
    u.thr k = withArrival (s.thr k) w.id (.one v) ∧ ∀ r, readReg u k r = readReg s k r := by
  intro u
  have hu : u = s.setThr k (withArrival (s.thr k) w.id (.one v)) := by
    refine (arrive_eq_closeWindows ..).trans ((closeWindows_counting _ _ ?_).trans ?_)
    · rw [thr_setThr_same]
      exact h
    · rw [thr_setThr_same, setThr_setThr]
  exact ⟨by rw [hu, thr_setThr_same], fun r => by rw [hu, readReg_withArrival]⟩

end

/-- Settles O9: the result goes into its window; behind it the closing of windows closes that window or none. -/
theorem resultArrives : Obligations.ResultArrives := by
  intro s k w ws v ha
  refine ⟨fun hw hheld hfrozen hws hd hz => ?running, fun hw hheld hfrozen hws => ?held⟩
  case running =>
    have hall : (s.thr k).allWindows = w :: ws := by rw [Thread.allWindows, hheld, hfrozen, hw]; rfl
    refine ⟨_, exec_arrival hall ha, arrive_closes hw hws hd hz, fun hc => ?_⟩
    have hin : arriveIn w.id (.one v) (s.thr k).windows = { w with arrival := .ready (.one v) } :: ws := by
      rw [hw, arriveIn_cons _ fun x hx => (hws x hx).1]
    obtain ⟨hthr, hreg⟩ := arrive_counting (s := s) (k := k) (w := w) (v := v) (by
      rw [hin]
      exact List.forall_mem_cons.mpr ⟨Nat.pos_of_ne_zero hc, fun x hx => (hws x hx).2⟩)
    exact ⟨by rw [hthr]; exact hin, hreg⟩
  case held =>
    have hall : (s.thr k).allWindows = w :: ws := by rw [Thread.allWindows, hheld, hfrozen, hw]; simp
    obtain ⟨hthr, hreg⟩ := arrive_counting (s := s) (k := k) (w := w) (v := v) (by
      rw [hw]
      exact nofun)
    refine ⟨_, exec_arrival hall ha, ?_, ?_, hreg⟩
    · rw [hthr, withArrival, hw]; rfl
    · rw [hthr, withArrival, hheld, arriveIn_cons _ hws]

end Sys2Proof.Laws
end

section
/-! PROOFS. The checks of an effective address (R132, R140, R141). -/

namespace Sys2Proof.Laws

open Sys2Proof Sys2Proof.Machine

/-! The checks that all modes share. -/

section
variable {s : State} {k : Nat} {a : Word} {off : Int} {size : Nat} {mode : BitVec 2} {kind : Nat} {w : IWord}

theorem reachMode_badTag (h : ¬ tagOk a = true) : reachMode s k a off size mode kind w = .trap kindADDRESS 0 a := by
  simp only [reachMode, h, Bool.not_false, if_true]

/-- Behind the tag: an address out of range, or not aligned to the access. -/
theorem reachMode_misplaced (ht : tagOk a = true)
    (h : formEa a off < 0 ∨ 2 ^ 52 ≤ formEa a off ∨ formEa a off % size ≠ 0) :
    reachMode s k a off size mode kind w = .trap kindADDRESS 0 (BitVec.ofInt 64 (formEa a off)) := by
  simp only [reachMode, ht, Bool.not_true, Bool.false_eq_true, if_false]
  by_cases hr : formEa a off < 0 ∨ (2 : Int) ^ 52 ≤ formEa a off
  · rw [if_pos hr]
  · rw [if_neg hr, if_pos]
    have hm : formEa a off % size ≠ 0 := by tauto
    have hn : ((formEa a off).toNat : Int) = formEa a off := by omega
    intro hz
    exact hm (by rw [← hn]; exact_mod_cast hz)

/-- An address in range and aligned passes the checks that all modes share. -/
theorem reachMode_inRange (ht : tagOk a = true) {n : Nat} (hn : formEa a off = n) (h52 : n < 2 ^ 52) (hs : n % size = 0) :
    (mode.toNat < 2 → reachMode s k a off size mode kind w =
      if n / 2 ^ 51 = 1 then .trap kindADDRESS 0 (BitVec.ofNat 64 n)
      else translated s (coreOf k) (s.thr k).asid n kind (some (mode.toNat == 1))) ∧
    (mode = 2#2 → reachMode s k a off size mode kind w =
      globReach s (coreOf k) (s.thr k).asid n (kind != kindLOAD) w) ∧
    (mode = 3#2 → reachMode s k a off size mode kind w = hereReach (coreOf k) n (kind != kindLOAD)) := by
  have hv : BitVec.ofInt 64 (n : Int) = BitVec.ofNat 64 n := BitVec.ofInt_natCast ..
  simp only [reachMode, ht, hn, hv, hs, Int.toNat_natCast, Bool.not_true, Bool.false_eq_true, if_false, ne_eq,
    not_true_eq_false, show ¬ ((n : Int) < 0 ∨ (2 : Int) ^ 52 ≤ n) by omega]
  refine ⟨fun hm => ?_, fun hm => by subst hm; rfl, fun hm => by subst hm; rfl⟩
  obtain h | h : mode.toNat = 0 ∨ mode.toNat = 1 := by omega
  · rw [h]; rfl
  · rw [h]; rfl

end

/-- A write flag of an access kind: every kind but LOAD is refused by W and C (R132). -/
theorem writes_refused_iff (kind buffer : Nat) :
    (kind != kindLOAD && buffer != 1) = true ↔ kind ≠ kindLOAD ∧ buffer ≠ 1 := by
  simp only [Bool.and_eq_true, bne_iff_ne]

theorem hereReach_bad {core n : Nat} {write : Bool}
    (h : 2 ^ 22 ≤ n ∨ n / 2 ^ 20 % 4 = 3 ∨ bufferSize core (n / 2 ^ 20 % 4) ≤ n % 2 ^ 20) :
    hereReach core n write = .trap kindADDRESS 0 (BitVec.ofNat 64 n) := by
  simp only [hereReach]
  by_cases h' : n / 2 ^ 22 ≠ 0 ∨ n / 2 ^ 20 % 4 = 3
  · rw [if_pos h']
  · rw [if_neg h', if_pos (by omega)]

theorem hereReach_good {core n : Nat} {write : Bool} (h : n < 2 ^ 22) (hb : n / 2 ^ 20 % 4 ≠ 3)
    (ho : n % 2 ^ 20 < bufferSize core (n / 2 ^ 20 % 4)) : hereReach core n write =
      if (write && n / 2 ^ 20 % 4 != 1) = true then .trap kindBUFPERM (n / 2 ^ 20 % 4) (BitVec.ofNat 64 n)
      else .at ⟨bufferCell core (n / 2 ^ 20 % 4) (n % 2 ^ 20), core, false, true, 3#2⟩ := by
  simp only [hereReach]
  rw [if_neg (by omega), if_neg (by omega)]

/-- The core that a glob address names (R15). -/
def globHome (n : Nat) : Nat := 256 * (n / 2 ^ 49 % 4) + 16 * (n / 2 ^ 45 % 16) + n / 2 ^ 40 % 32

/-- A glob address names a buffer by its top bit and its buffer field. -/
theorem globReach_unnamed {s : State} {core n : Nat} {asid : BitVec 16} {write : Bool} {w : IWord} (h52 : n < 2 ^ 52)
    (h : n < 2 ^ 51 ∨ n / 2 ^ 38 % 4 = 3) :
    globReach s core asid n write w = .trap kindADDRESS 0 (BitVec.ofNat 64 n) := by
  simp only [globReach]
  rw [if_pos (by omega)]

section
variable {s : State} {core n : Nat} {asid : BitVec 16} {write : Bool} {w : IWord} (h51 : 2 ^ 51 ≤ n)
  (hb : n / 2 ^ 38 % 4 ≠ 3)
include h51 hb

theorem globReach_system (hc : 1024 ≤ core) : globReach s core asid n write w = .trap kindILLEGAL 6 (w.setWidth 64) := by
  simp only [globReach]
  rw [if_neg (by omega), if_pos ((isSystem_iff core).mpr hc)]

theorem globReach_noCore (hc : core < 1024)
    (h : 14 ≤ n / 2 ^ 45 % 16 ∨ 16 ≤ n / 2 ^ 40 % 32 ∨ s.dieRetired (n / 2 ^ 49 % 4) = true) :
    globReach s core asid n write w = .trap kindADDRESS 0 (BitVec.ofNat 64 n) := by
  simp only [globReach]
  rw [if_neg (by omega), if_neg (by rw [isSystem_iff]; omega), if_pos h]

/-- Where a core is named: the size of its buffer, then what forbids the access. -/
theorem globReach_core (hc : core < 1024) (hr : n / 2 ^ 45 % 16 < 14) (hl : n / 2 ^ 40 % 32 < 16)
    (hd : s.dieRetired (n / 2 ^ 49 % 4) = false) : globReach s core asid n write w =
      if bufferSize (globHome n) (n / 2 ^ 38 % 4) ≤ n % 2 ^ 38 then .trap kindADDRESS 0 (BitVec.ofNat 64 n)
      else if inPartition s asid (globHome n) = false ∨ (write && n / 2 ^ 38 % 4 != 1) = true then
        .trap kindBUFPERM (n / 2 ^ 38 % 4) (BitVec.ofNat 64 n)
      else .at ⟨bufferCell (globHome n) (n / 2 ^ 38 % 4) (n % 2 ^ 38), globHome n, true, globHome n == core, 2#2⟩ := by
  simp only [globReach]
  rw [if_neg (by omega), if_neg (by rw [isSystem_iff]; omega),
    if_neg (by rintro (h | h | h); exacts [by omega, by omega, Bool.false_ne_true (hd.symm.trans h)])]
  simp only [ite_or, Bool.not_eq_true']
  rfl

end

/-- Settles O12: the checks that all modes share come first, then those of the mode, each lemma in the order of R140. -/
theorem addressChecks : Obligations.AddressChecks := by
  intro s k a off size mode kind w _
  dsimp only
  rw [← tagOk_iff, ← formEa_eq]
  refine ⟨reachMode_badTag, ?_, ?_⟩
  · rintro ht h
    exact reachMode_misplaced ht h
  intro ht h0 h52 hs
  obtain ⟨n, hn⟩ := Int.eq_ofNat_of_zero_le h0
  have hsn : n % size = 0 := by rw [hn] at hs; exact_mod_cast hs
  obtain ⟨hlin, hglob, hhere⟩ := reachMode_inRange (s := s) (k := k) (mode := mode) (kind := kind) (w := w) ht hn
    (by omega) hsn
  have hv : BitVec.ofInt 64 (n : Int) = BitVec.ofNat 64 n := BitVec.ofInt_natCast ..
  simp only [hn, Int.toNat_natCast, hv] at h52 ⊢
  refine ⟨?translated, ?hereBad, ?here, ?unnamed, ?system, ?noCore, ?offset, ?glob⟩
  case translated =>
    intro hm h
    rw [hlin hm, if_pos (by omega)]
  case hereBad =>
    intro hm h
    rw [hhere hm, hereReach_bad (by omega)]
  case here =>
    intro hm h hb ho
    rw [hhere hm, hereReach_good (by omega) hb ho]
    simp only [writes_refused_iff]
    exact ⟨fun hk hw => if_pos ⟨hk, hw⟩, fun hk => if_neg fun h => hk.elim h.1 h.2⟩
  case unnamed =>
    intro hm h
    rw [hglob hm, globReach_unnamed (by omega) (by omega)]
  case system =>
    intro hm h hb hc
    rw [hglob hm, globReach_system (by omega) hb hc]
  case noCore =>
    intro hm h hb hc hx
    rw [hglob hm, globReach_noCore (by omega) hb hc hx]
  case offset =>
    intro hm h hb hc hr hl hd ho
    rw [hglob hm, globReach_core (by omega) hb hc hr hl hd, if_pos (by exact ho)]
  case glob =>
    intro hm h hb hc hr hl hd ho
    rw [hglob hm, globReach_core (by omega) hb hc hr hl hd, if_neg (by exact Nat.not_le.mpr ho)]
    simp only [writes_refused_iff]
    refine ⟨fun h => if_pos h, fun hp hk => if_neg ?_⟩
    rintro (h | ⟨hl, hw⟩)
    · exact Bool.false_ne_true (h.symm.trans hp)
    · exact hk.elim hl hw

end Sys2Proof.Laws
end

section
/-! PROOFS. Loads and stores at issue (R143 to R148, R158). -/

namespace Sys2Proof.Laws

open Sys2Proof Sys2Proof.Machine

/-! The issue of an access (R143, R147, R148, R158). -/

theorem takesBanks_touches (s : State) (core cell n : Nat) : ∃ co, takesBanks s core cell n = { s with cores := co } := by
  simp only [takesBanks]
  split
  · exact ⟨s.cores, rfl⟩
  · exact ⟨_, rfl⟩

/-- The banks of an access over the here path (R134): forfeited, or taken. -/
theorem hereBanks_taken {s : State} {core cell n : Nat} (h : bankTaken s core cell n) : hereBanks s core cell n = none := by
  obtain ⟨hq, hc, hb⟩ := h
  have hm : banksOf core cell n ≠ 0#16 := by
    rintro hm
    exact hb (by rw [hm]; exact BitVec.and_zero)
  simp only [hereBanks, banksNow, hq, hc, if_neg hm, if_true]
  rw [if_pos (by simpa using hb)]

theorem hereBanks_free {s : State} {core cell n : Nat} (h : ¬ bankTaken s core cell n) :
    hereBanks s core cell n = some (takesBanks s core cell n) := by
  simp only [hereBanks, takesBanks]
  split
  · rfl
  · by_cases hc : (s.core core).banks.ck = s.ck
    · have hb : ¬ (!(s.core core).quietOn && (banksNow s core).engine &&& banksOf core cell n != 0#16) = true := by
        simp only [banksNow, hc, if_true, Bool.and_eq_true, Bool.not_eq_true', bne_iff_ne]
        exact fun hq => h ⟨hq.1, hc, hq.2⟩
      rw [if_neg hb]
      simp only [banksNow, hc, if_true]
    · simp [banksNow, hc]

theorem underLimit_iff (t : Thread) (relaxed : Bool) : underLimit t relaxed = true ↔
    ¬ (if relaxed = true then 8 else 1) ≤ (t.outst.filter fun o => o.relaxed == relaxed).length := by
  cases relaxed
  · simp [underLimit]
  · simp [underLimit]

theorem journalFree_lowest {c : Core} {e : Nat} (hfree : (journalAt c e).busy = false) (he : e < 64)
    (hlow : ∀ f < e, (journalAt c f).busy = true) : journalFree c = some e :=
  findFirst_upTo he (by rw [hfree]; rfl) fun f hf => by rw [hlow f hf]; rfl

theorem journalFree_full {c : Core} (h : ∀ e < 64, (journalAt c e).busy = true) : journalFree c = none :=
  findFirst_eq_none fun e he => by rw [h e (mem_upTo.mp he)]; rfl

/-- The windows that an access opens: one for d, or none. -/
def windowsOf (s : State) (i : Instr) (holds : Bool) (d : Option Reg) : List Window :=
  d.toList.map fun d => accessWindow s i d (lookaheadOf i) holds

/-- The access is under way, in the model's spelling and the rule's. -/
theorem launchAccess_eq_sent (s : State) (x : AccessKind) (p : Place) (window : Bool) (jent : Option Nat) :
    launchAccess s s.cur x p window jent = sent s x p window (journalKind x.op) jent := by
  simp only [launchAccess, addrOf, bitsAt_zero]
  cases jent <;> rfl

theorem sendAccess_forfeits {s : State} {i : Instr} {x : AccessKind} {d : Option Reg} {p : Place}
    (h : cannotIssue s x p) : sendAccess s i x d p = .next s := by
  simp only [sendAccess, forfeit]
  by_cases hu : underLimit (s.thr s.cur) x.relaxed = true
  · rw [if_neg (by simp [hu])]
    rcases h with h | ⟨hp, hj⟩ | ⟨hp, hb⟩
    · exact absurd h ((underLimit_iff _ _).mp hu)
    · simp [hp, journalFree_full hj]
    · simp only [hp, hereBanks_taken hb, Bool.false_eq_true, if_false, ite_self]
  · simp [hu]

/-- An access that may issue is under way, with the entry e of the journal where it is remote. -/
theorem sendAccess_sends {s : State} {i : Instr} {x : AccessKind} {d : Option Reg} {p : Place} {e : Option Nat}
    (h : ¬ cannotIssue s x p) (he : (if p.home = coreOf s.cur then none else journalFree (s.core (coreOf s.cur))) = e)
    (hj : p.home ≠ coreOf s.cur → e ≠ none) : sendAccess s i x d p =
      .next (retireTo (sent (if p.port then s else takesBanks s (coreOf s.cur) p.cell x.size) x p
        (decide (windowsOf s i x.holds d ≠ [])) (journalKind x.op) e) s.cur ((s.thr s.cur).pc + 4#64)
        (windowsOf s i x.holds d)) := by
  have hu : underLimit (s.thr s.cur) x.relaxed = true := (underLimit_iff _ _).mpr fun hu => h (.inl hu)
  have hbanks : (if p.port = true then some s else hereBanks s (coreOf s.cur) p.cell x.size) =
      some (if p.port = true then s else takesBanks s (coreOf s.cur) p.cell x.size) := by
    by_cases hp : p.port = true
    · rw [if_pos hp, if_pos hp]
    · rw [if_neg hp, if_neg hp]
      exact hereBanks_free fun hb => h (.inr (.inr ⟨by simpa using hp, hb⟩))
  obtain ⟨co, hco⟩ : ∃ co, (if p.port = true then s else takesBanks s (coreOf s.cur) p.cell x.size) = { s with cores := co } := by
    split
    · exact ⟨s.cores, rfl⟩
    · exact takesBanks_touches ..
  simp only [sendAccess, hu, he, hbanks, hco]
  rw [if_neg (by simp), if_neg (fun hn => hj hn.1 hn.2)]
  have hl : ∀ window, launchAccess { s with cores := co } s.cur x p window e =
      sent { s with cores := co } x p window (journalKind x.op) e := fun _ => launchAccess_eq_sent ..
  cases d with
  | none => simp only [hl]; rfl
  | some d => simp only [hl]; rfl

/-- An instruction whose access reaches place p issues or forfeits as the rule says. -/
theorem accessIssues_of_send {s : State} {i : Instr} {x : AccessKind} {d : Option Reg} {p : Place}
    (h : exec i s = sendAccess s i x d p) : accessIssues s i x p (windowsOf s i x.holds d) (journalKind x.op) := by
  refine ⟨fun hc => h.trans (sendAccess_forfeits hc), fun hc hp => ?_, fun e hc hp hfree he hlow => ?_⟩
  · exact h.trans (sendAccess_sends hc (if_pos hp) fun hn => absurd hp hn)
  · exact h.trans (sendAccess_sends hc ((if_neg hp).trans (journalFree_lowest hfree he hlow)) fun _ => Option.some_ne_none e)

/-! The address first, then the access (R140, R144). -/

theorem accessStops_of_reach {s : State} {i : Instr} {kind : Nat} {ea : Word} {r : Reach} {go : Place → Out}
    (h : exec i s = withReach s kind ea r go) : accessStops s i r ea kind := by
  refine ⟨?_, ?_, ?_⟩
  · rintro k d v rfl
    exact h
  · rintro reason rfl
    exact h
  · rintro rfl
    exact h

theorem exec_of_reach_at {s : State} {i : Instr} {kind : Nat} {ea : Word} {r : Reach} {go : Place → Out} {p : Place}
    (h : exec i s = withReach s kind ea r go) (hp : r = .at p) : exec i s = go p := by
  subst hp
  exact h

/-- The address of an M-format access. -/
theorem formEa_eq_eaOf (s : State) (a : Reg) (off : BitVec 8) (size : Nat) :
    formEa (readReg s s.cur a) (off.toInt * size) = eaOf s a off size := formEa_eq ..

/-- An M-format access that reaches its place (R144): it takes the thread to the die of its home, or it is sent from here. -/
def modeGoesOn (s : State) (i : Instr) (mode : BitVec 2) (x : AccessKind) (d : Option Reg) (p : Place) : Out :=
  match (if mode.toNat < 2 then migrationTarget s s.cur p.home else none) with
  | some dst => .next (beginMigration s s.cur dst .access)
  | none => sendAccess s i x d p

theorem modeAccess_eq (s : State) (i : Instr) (a : Reg) (mode : BitVec 2) (off : BitVec 8) (kind : Nat) (x : AccessKind)
    (d : Option Reg) : modeAccess s i a mode off kind x d =
      withReach s kind (BitVec.ofInt 64 (eaOf s a off x.size))
        (reachMode s s.cur (readReg s s.cur a) (off.toInt * x.size) x.size mode kind (encode i))
        (modeGoesOn s i mode { x with ea := BitVec.ofInt 64 (eaOf s a off x.size) } d) := by
  rw [← formEa_eq_eaOf]
  rfl

theorem modeGoesOn_moves {s : State} {i : Instr} {mode : BitVec 2} {x : AccessKind} {d : Option Reg} {p : Place} {dst : Nat}
    (hm : mode.toNat < 2) (ht : migrationTarget s s.cur p.home = some dst) : modeGoesOn s i mode x d p =
      .next ((s.setThr s.cur { s.thr s.cur with hold := .migrating }).later (.migrationSend s.cur dst .access)) := by
  rw [modeGoesOn, if_pos hm, ht]
  rfl

theorem modeGoesOn_stays {s : State} {i : Instr} {mode : BitVec 2} {x : AccessKind} {d : Option Reg} {p : Place}
    (h : 2 ≤ mode.toNat ∨ migrationTarget s s.cur p.home = none) : modeGoesOn s i mode x d p = sendAccess s i x d p := by
  have hnone : (if mode.toNat < 2 then migrationTarget s s.cur p.home else none) = none := by
    split
    · exact h.resolve_left (by omega)
    · rfl
  rw [modeGoesOn, hnone]

/-- What an M-format access comes to (R140, R144): the reach r of its address stops it; or it takes the thread to the die of its
home; or it is sent from here. -/
def modeIssues (s : State) (i : Instr) (mode : BitVec 2) (kind : Nat) (x : AccessKind) (ws : List Window) (jk : Nat)
    (r : Reach) : Prop :=
  accessStops s i r x.ea kind ∧ ∀ p, r = .at p →
    (∀ dst, mode.toNat < 2 → migrationTarget s s.cur p.home = some dst →
      exec i s = .next ((s.setThr s.cur { s.thr s.cur with hold := .migrating }).later (.migrationSend s.cur dst .access))) ∧
    ((2 ≤ mode.toNat ∨ migrationTarget s s.cur p.home = none) → accessIssues s i x p ws jk)

theorem modeAccess_issues {s : State} {i : Instr} {a : Reg} {mode : BitVec 2} {off : BitVec 8} {kind size : Nat} {op : MemOp}
    {relaxed holds : Bool} {data cmp : Word} {d : Option Reg}
    (h : exec i s = modeAccess s i a mode off kind (accessKind op size relaxed holds data cmp) d) :
    modeIssues s i mode kind ⟨op, size, relaxed, holds, BitVec.ofInt 64 (eaOf s a off size), data, cmp⟩
      (windowsOf s i holds d) (journalKind op)
      (reachMode s s.cur (readReg s s.cur a) (off.toInt * size) size mode kind (encode i)) := by
  rw [modeAccess_eq] at h
  refine ⟨accessStops_of_reach h, fun p hp => ?_⟩
  have hgo := exec_of_reach_at h hp
  exact ⟨fun dst hm ht => hgo.trans (modeGoesOn_moves hm ht),
    fun hm => accessIssues_of_send (hgo.trans (modeGoesOn_stays hm))⟩

/-- What an R-format access comes to (R140): the reach r of its address stops it, or it is sent. -/
def plainIssues (s : State) (i : Instr) (kind : Nat) (x : AccessKind) (ws : List Window) (jk : Nat) (r : Reach) : Prop :=
  accessStops s i r x.ea kind ∧ ∀ p, r = .at p → accessIssues s i x p ws jk

theorem plainAccess_issues {s : State} {i : Instr} {a : Reg} {kind size : Nat} {op : MemOp} {relaxed holds : Bool}
    {data cmp : Word} {d : Option Reg}
    (h : exec i s = plainAccess s i a kind (accessKind op size relaxed holds data cmp) d) :
    plainIssues s i kind ⟨op, size, relaxed, holds, BitVec.ofNat 64 ((readReg s s.cur a).toNat % 2 ^ 52), data, cmp⟩
      (windowsOf s i holds d) (journalKind op) (reachPlain s s.cur (readReg s s.cur a) size kind (encode i)) := by
  simp only [plainAccess, accessKind, addrOf, bitsAt_zero] at h
  exact ⟨accessStops_of_reach h, fun p hp => accessIssues_of_send (exec_of_reach_at h hp)⟩

/-! Loads and stores (R145, R146). -/

theorem codedM_of_encodeM {i : Instr} {op : BitVec 7} {d a : Reg} {mode : BitVec 2} {rx : BitVec 1} {off : BitVec 8}
    {lk : BitVec 4} (he : encode i = wordM op d a mode rx off lk) (hr : RoundTrip.Statement i) (hw : isWord i = true) :
    codedM i op := ⟨he ▸ opOf_wordM .., hr hw⟩

theorem load_issues {s : State} {i : Instr} {d a : Reg} {mode : BitVec 2} {rx : BitVec 1} {off : BitVec 8} {lk : BitVec 4}
    {size : Nat} {signed : Bool} (he : exec i s = issue i s fun s => loadAccess s i d a mode rx off size signed)
    (hl : lookaheadOf i = lk) (h : ready i s = true) :
    modeIssues s i mode kindLOAD
      ⟨.load signed, size, rx == 1#1, false, BitVec.ofInt 64 (eaOf s a off size), 0#64, 0#64⟩ [accessWindow s i d lk false] 1
      (reachMode s s.cur (readReg s s.cur a) (off.toInt * size) size mode kindLOAD (encode i)) := by
  subst hl
  have hx : exec i s = modeAccess s i a mode off kindLOAD
      (accessKind (.load signed) size (rx == 1#1) false 0#64 0#64) (some d) := exec_of_issue he rfl h
  exact (modeAccess_issues hx :)

theorem store_issues {s : State} {i : Instr} {d a : Reg} {mode : BitVec 2} {rx : BitVec 1} {off : BitVec 8} {size : Nat}
    (he : exec i s = issue i s fun s => storeAccess s i d a mode rx off size) (h : ready i s = true) :
    modeIssues s i mode kindSTORE
      ⟨.store, size, rx == 1#1, false, BitVec.ofInt 64 (eaOf s a off size), readReg s s.cur d, 0#64⟩ [] 0
      (reachMode s s.cur (readReg s s.cur a) (off.toInt * size) size mode kindSTORE (encode i)) := by
  have hx : exec i s = modeAccess s i a mode off kindSTORE
      (accessKind .store size (rx == 1#1) false (readReg s s.cur d) 0#64) none := exec_of_issue he rfl h
  exact (modeAccess_issues hx :)

/-- Settles O13: the reach of the address decides what stops the access; an access that reaches its place migrates the
thread, forfeits, or is sent. -/
theorem loadStoreIssue : Obligations.LoadStoreIssue := by
  intro s d a mode rx off lk
  simp only [loadRows, storeRows, List.forall_mem_cons, List.not_mem_nil, false_imp_iff, implies_true, and_true]
  exact ⟨⟨⟨codedM_of_encodeM rfl (RoundTrip.ldB d a mode rx off lk) rfl, load_issues rfl rfl⟩,
      ⟨codedM_of_encodeM rfl (RoundTrip.ldH d a mode rx off lk) rfl, load_issues rfl rfl⟩,
      ⟨codedM_of_encodeM rfl (RoundTrip.ldW d a mode rx off lk) rfl, load_issues rfl rfl⟩,
      ⟨codedM_of_encodeM rfl (RoundTrip.ldD d a mode rx off lk) rfl, load_issues rfl rfl⟩,
      ⟨codedM_of_encodeM rfl (RoundTrip.ldBu d a mode rx off lk) rfl, load_issues rfl rfl⟩,
      ⟨codedM_of_encodeM rfl (RoundTrip.ldHu d a mode rx off lk) rfl, load_issues rfl rfl⟩,
      ⟨codedM_of_encodeM rfl (RoundTrip.ldWu d a mode rx off lk) rfl, load_issues rfl rfl⟩⟩,
    ⟨codedM_of_encodeM rfl (RoundTrip.stB d a mode rx off) rfl, store_issues rfl⟩,
    ⟨codedM_of_encodeM rfl (RoundTrip.stH d a mode rx off) rfl, store_issues rfl⟩,
    ⟨codedM_of_encodeM rfl (RoundTrip.stW d a mode rx off) rfl, store_issues rfl⟩,
    ⟨codedM_of_encodeM rfl (RoundTrip.stD d a mode rx off) rfl, store_issues rfl⟩⟩

end Sys2Proof.Laws
end

section
/-! PROOFS. Atomics, remote updates, sc and lrw at issue (R153, R154, R156, R157). -/

namespace Sys2Proof.Laws

open Sys2Proof Sys2Proof.Machine

/-! Atomics, remote updates, sc and lrw (R153, R154, R156, R157). -/

theorem codedM_of_encodeR {i : Instr} {op : BitVec 7} {d a b : Reg} {fn : BitVec 6} {lk : BitVec 4}
    (he : encode i = wordR op d a b fn lk) (hr : RoundTrip.Statement i) (hw : isWord i = true) : codedM i op :=
  ⟨he ▸ opOf_wordR .., hr hw⟩

section
variable {s : State} {i : Instr} {d a b : Reg} {lk : BitVec 4} {op : MemOp} {size : Nat}

theorem amo_issues (he : exec i s = issue i s fun s => amoAccess s i op d a b size) (hl : lookaheadOf i = lk) (h : ready i s = true) :
    plainIssues s i kindRMW ⟨op, size, false, false, BitVec.ofNat 64 ((readReg s s.cur a).toNat % 2 ^ 52),
      readReg s s.cur b, readReg s s.cur d⟩ [accessWindow s i d lk false] (journalKind op)
      (reachPlain s s.cur (readReg s s.cur a) size kindRMW (encode i)) := by
  subst hl
  have hx : exec i s = plainAccess s i a kindRMW (accessKind op size false false (readReg s s.cur b) (readReg s s.cur d))
      (some d) := exec_of_issue he rfl h
  exact (plainAccess_issues hx :)

theorem rup_issues (he : exec i s = issue i s fun s =>
      plainAccess s i a kindSTORE (accessKind op 8 true false (readReg s s.cur b) 0#64) none) (h : ready i s = true) :
    plainIssues s i kindSTORE ⟨op, 8, true, false, BitVec.ofNat 64 ((readReg s s.cur a).toNat % 2 ^ 52),
      readReg s s.cur b, 0#64⟩ [] (journalKind op)
      (reachPlain s s.cur (readReg s s.cur a) 8 kindSTORE (encode i)) := by
  have hx : exec i s = plainAccess s i a kindSTORE (accessKind op 8 true false (readReg s s.cur b) 0#64) none :=
    exec_of_issue he rfl h
  exact (plainAccess_issues hx :)

/-- sc waits for the thread's accesses, and is then an R-format access. -/
theorem sc_issues (h : ready (.sc d a b lk) s = true) :
    (accessesDone s s.cur = false → exec (.sc d a b lk) s = .next s) ∧
    (accessesDone s s.cur = true →
      plainIssues s (.sc d a b lk) kindRMW ⟨.sc, 8, false, false, BitVec.ofNat 64 ((readReg s s.cur a).toNat % 2 ^ 52),
        readReg s s.cur b, 0#64⟩ [accessWindow s (.sc d a b lk) d lk false] 4
        (reachPlain s s.cur (readReg s s.cur a) 8 kindRMW (encode (.sc d a b lk)))) := by
  have he : exec (.sc d a b lk) s = afterAccesses s (plainAccess s (.sc d a b lk) a kindRMW
      (accessKind .sc 8 false false (readReg s s.cur b) 0#64) (some d)) := exec_of_issue rfl rfl h
  refine ⟨fun hd => he.trans (afterAccesses_waiting hd), fun hd => ?_⟩
  exact (plainAccess_issues (he.trans (afterAccesses_done hd)) :)

end

/-- An instruction that forfeits where its access may not issue. -/
theorem accessIssues_of_forfeit {s : State} {i : Instr} {x : AccessKind} {p : Place} {ws : List Window} {jk : Nat}
    (hc : cannotIssue s x p) (h : exec i s = .next s) : accessIssues s i x p ws jk :=
  ⟨fun _ => h, fun hn => absurd hc hn, fun _ hn => absurd hc hn⟩

/-- Where a lock word may lie (R153): no here address, no glob W or C location. -/
theorem lockable_iff (p : Place) : lockable p = true ↔ p.mode.toNat < 2 ∨ (p.mode = 2#2 ∧ p.cell / 2 ^ 38 % 4 = 1) := by
  simp only [lockable, Bool.or_eq_true, decide_eq_true_eq, Bool.and_eq_true, beq_iff_eq]

theorem not_lockable {p : Place} (h : p.mode = 3#2 ∨ (p.mode = 2#2 ∧ p.cell / 2 ^ 38 % 4 ≠ 1)) : lockable p = false := by
  rw [← Bool.not_eq_true, lockable_iff]
  rcases h with h | ⟨h, hc⟩ <;> simp [h]
  exact hc

/-- A thread has a non-relaxed access under way, so that it may not have another (R148). -/
theorem underLimit_strict (t : Thread) : underLimit t false = false ↔ ∃ o ∈ t.outst, o.relaxed = false := by
  simp [underLimit]

section
variable {s : State} {d a : Reg} {mode : BitVec 2} {off : BitVec 8} {lk : BitVec 4}

/-- The effect of an lrw that reaches its place (R152, R153): three checks, and then the access. -/
theorem exec_lrw (h : ready (.lrw d a mode off lk) s = true) : exec (.lrw d a mode off lk) s =
    withReach s kindLOAD (BitVec.ofInt 64 (eaOf s a off 8))
      (reachMode s s.cur (readReg s s.cur a) (off.toInt * 8) 8 mode kindLOAD (encode (.lrw d a mode off lk))) fun p =>
        if !lockable p then trapped s kindADDRESS 0 (BitVec.ofInt 64 (eaOf s a off 8))
        else if !underLimit (s.thr s.cur) false then .next s
        else if decide (4 ≤ reservationsOf s s.cur) then trapped s kindADDRESS 1 (BitVec.ofInt 64 (eaOf s a off 8))
        else modeGoesOn s (.lrw d a mode off lk) mode ⟨.lrw, 8, false, true, BitVec.ofInt 64 (eaOf s a off 8), 0#64, 0#64⟩
          (some d) p := by
  refine (exec_of_issue rfl rfl h).trans ?_
  have hea : formEa (readReg s s.cur a) (off.toInt * 8) = eaOf s a off 8 := formEa_eq_eaOf s a off 8
  simp only [modeAccess_eq, accessKind, Nat.cast_ofNat, hea]
  -- off the place both sides are the trap, the page fault or the walk
  cases reachMode s s.cur (readReg s s.cur a) (off.toInt * 8) 8 mode kindLOAD (encode (.lrw d a mode off lk)) <;> rfl

end

/-- lrw: the checks of R153 at the place, then an access that acquires. -/
theorem lrw_issues {s : State} {d a : Reg} {mode : BitVec 2} {off : BitVec 8} {lk : BitVec 4} {i : Instr} {va : Word}
    (hi : i = .lrw d a mode off lk) (hva : va = BitVec.ofInt 64 (eaOf s a off 8)) (h : ready i s = true) :
    let r := reachMode s s.cur (readReg s s.cur a) (off.toInt * 8) 8 mode kindLOAD (encode i)
    accessStops s i r va kindLOAD ∧ ∀ p, r = .at p →
      (lockable p = false → exec i s = trapped s kindADDRESS 0 va) ∧
      (lockable p = true →
        (underLimit (s.thr s.cur) false = false → exec i s = .next s) ∧
        (underLimit (s.thr s.cur) false = true → 4 ≤ reservationsOf s s.cur → exec i s = trapped s kindADDRESS 1 va) ∧
        (reservationsOf s s.cur < 4 → (2 ≤ mode.toNat ∨ migrationTarget s s.cur p.home = none) →
          accessIssues s i ⟨.lrw, 8, false, true, va, 0#64, 0#64⟩ p [accessWindow s i d lk true] 1)) := by
  subst hi hva
  refine ⟨accessStops_of_reach (exec_lrw h), fun p hp => ?_⟩
  have hgo := exec_of_reach_at (exec_lrw h) hp
  refine ⟨fun hl => ?_, fun hl => ⟨fun hu => ?_, fun hu hr => ?_, fun hr hm => ?_⟩⟩
  · simp only [hgo, hl, Bool.not_false, if_true]
  · simp [hgo, hl, hu]
  · simp [hgo, hl, hu, hr]
  · by_cases hu : underLimit (s.thr s.cur) false = true
    · refine (accessIssues_of_send (d := some d) (hgo.trans ?_) :)
      simp [hl, hu, show ¬ 4 ≤ reservationsOf s s.cur by omega, modeGoesOn_stays hm]
    · refine accessIssues_of_forfeit (.inl ?_) (by simp [hgo, hl, hu])
      exact not_not.mp fun hn => hu ((underLimit_iff _ _).mpr hn)

/-- Settles O14: the reach of the address decides what stops the access; sc waits first, and lrw has its own checks at the
place. -/
theorem atomicIssue : Obligations.AtomicIssue := by
  intro s d a b sc lk mode off
  simp only [atomicRows, updateRows, List.forall_mem_cons, List.not_mem_nil, false_imp_iff, implies_true, and_true]
  refine ⟨⟨⟨codedM_of_encodeR rfl (RoundTrip.amoAddD d a b sc lk) rfl, amo_issues rfl rfl⟩,
      ⟨codedM_of_encodeR rfl (RoundTrip.amoMinD d a b sc lk) rfl, amo_issues rfl rfl⟩,
      ⟨codedM_of_encodeR rfl (RoundTrip.amoMaxD d a b sc lk) rfl, amo_issues rfl rfl⟩,
      ⟨codedM_of_encodeR rfl (RoundTrip.amoXchgD d a b sc lk) rfl, amo_issues rfl rfl⟩,
      ⟨codedM_of_encodeR rfl (RoundTrip.amoCasD d a b sc lk) rfl, amo_issues rfl rfl⟩,
      ⟨codedM_of_encodeR rfl (RoundTrip.amoMinuD d a b sc lk) rfl, amo_issues rfl rfl⟩,
      ⟨codedM_of_encodeR rfl (RoundTrip.amoMaxuD d a b sc lk) rfl, amo_issues rfl rfl⟩,
      ⟨codedM_of_encodeR rfl (RoundTrip.amoAddW d a b sc lk) rfl, amo_issues rfl rfl⟩,
      ⟨codedM_of_encodeR rfl (RoundTrip.amoMinW d a b sc lk) rfl, amo_issues rfl rfl⟩,
      ⟨codedM_of_encodeR rfl (RoundTrip.amoMaxW d a b sc lk) rfl, amo_issues rfl rfl⟩,
      ⟨codedM_of_encodeR rfl (RoundTrip.amoXchgW d a b sc lk) rfl, amo_issues rfl rfl⟩,
      ⟨codedM_of_encodeR rfl (RoundTrip.amoCasW d a b sc lk) rfl, amo_issues rfl rfl⟩,
      ⟨codedM_of_encodeR rfl (RoundTrip.amoMinuW d a b sc lk) rfl, amo_issues rfl rfl⟩,
      ⟨codedM_of_encodeR rfl (RoundTrip.amoMaxuW d a b sc lk) rfl, amo_issues rfl rfl⟩⟩,
    ⟨⟨codedM_of_encodeR rfl (RoundTrip.rupAdd a b sc) rfl, rup_issues rfl⟩,
      ⟨codedM_of_encodeR rfl (RoundTrip.rupMin a b sc) rfl, rup_issues rfl⟩,
      ⟨codedM_of_encodeR rfl (RoundTrip.rupMax a b sc) rfl, rup_issues rfl⟩,
      ⟨codedM_of_encodeR rfl (RoundTrip.rupOr a b sc) rfl, rup_issues rfl⟩,
      ⟨codedM_of_encodeR rfl (RoundTrip.rupAnd a b sc) rfl, rup_issues rfl⟩,
      ⟨codedM_of_encodeR rfl (RoundTrip.rupXor a b sc) rfl, rup_issues rfl⟩⟩,
    sc_issues, fun h => ?_⟩
  obtain ⟨hstop, hat⟩ := lrw_issues rfl rfl h
  refine ⟨hstop, fun p hp => ?_⟩
  obtain ⟨hno, hgo⟩ := hat p hp
  refine ⟨fun hl => hno (not_lockable hl), fun hl => ?_⟩
  obtain ⟨hbusy, hmany, hsend⟩ := hgo ((lockable_iff p).mpr hl)
  refine ⟨fun ho => hbusy ((underLimit_strict _).mpr ho), fun hr ho => hmany ?_ hr, hsend⟩
  rw [← Bool.not_eq_false, underLimit_strict]
  rintro ⟨o, hm, hf⟩
  exact Bool.false_ne_true (hf.symm.trans (ho o hm))

end Sys2Proof.Laws
end

section
/-! PROOFS. Acquire, release and the fences (R142, R150, R151, R494). -/

namespace Sys2Proof.Laws

open Sys2Proof Sys2Proof.Machine

/-! Fences (R142, R151): the windows that close meanwhile end no wait. -/

/-- Between s and t thread k stays on hold, and its accesses and the steps under way are only added to. -/
def StaysOnHold (k : Nat) (s t : State) : Prop :=
  (t.thr k).hold = (s.thr k).hold ∧ (s.thr k).outst <+: (t.thr k).outst ∧ s.work <+: t.work

theorem StaysOnHold.refl (k : Nat) (s : State) : StaysOnHold k s s := ⟨rfl, List.prefix_rfl, List.prefix_rfl⟩

theorem StaysOnHold.trans {k : Nat} {s t u : State} (h : StaysOnHold k s t) (h' : StaysOnHold k t u) : StaysOnHold k s u :=
  ⟨h'.1.trans h.1, h.2.1.trans h'.2.1, h.2.2.trans h'.2.2⟩

/-- A change of the thread's record that leaves its hold and its accesses. -/
theorem StaysOnHold.setThr {k : Nat} {s : State} {t : Thread} (hh : t.hold = (s.thr k).hold)
    (ho : (s.thr k).outst <+: t.outst) : StaysOnHold k s (s.setThr k t) := by
  refine ⟨?_, ?_, List.prefix_rfl⟩
  · rw [thr_setThr_same, hh]
  · rw [thr_setThr_same]; exact ho

theorem closeReg_staysOnHold (s : State) (k : Nat) (r : Reg) (v : Word) : StaysOnHold k s (closeReg s k r v) := by
  rw [closeReg]
  by_cases hp : r.toNat < 10
  · rw [putReg_p true s k r v hp]
    exact .setThr rfl List.prefix_rfl
  by_cases hq : r.toNat = 11
  · obtain rfl : r = 11#5 := BitVec.eq_of_toNat_eq hq
    rw [putReg_q]
    exact .setThr rfl List.prefix_rfl
  by_cases hs : 16 ≤ r.toNat
  · obtain ⟨th, co, h⟩ := putReg_touches true s k r v
    refine ⟨?_, ?_, ?_⟩
    · rw [putReg_s_thr true s k r v hs]
    · rw [putReg_s_thr true s k r v hs]
    · rw [h]
  · rw [putReg, if_neg hp, if_neg hq, if_neg hs]
    exact .refl k s

theorem closeResult_staysOnHold (s : State) (k : Nat) (d : Reg) (r : Result) : StaysOnHold k s (closeResult s k d r) := by
  cases r with
  | one v => exact closeReg_staysOnHold s k d v
  | two v w => exact (closeReg_staysOnHold s k d v).trans (closeReg_staysOnHold _ k _ w)
  | buffer v l =>
    refine .trans ?_ (closeReg_staysOnHold _ k d v)
    simp only [leaveStores]
    split
    · exact .refl k s
    · refine ⟨?_, ?_, ?_⟩
      · simp
      · simp
      · simp
  | object c => exact closeReg_staysOnHold s k d _
  | kernel h a =>
    refine .trans ?_ (closeReg_staysOnHold _ k d _)
    obtain ⟨di, e⟩ := freeEnded_touches s h a
    rw [e]
    exact .refl k s
  | mstatus c =>
    refine .trans ?_ (closeReg_staysOnHold _ k d _)
    cases c with
    | false => exact .refl k s
    | true => exact .setThr rfl List.prefix_rfl
  | nothing => exact .refl k s
  | refused j => exact .setThr rfl List.prefix_rfl

theorem closeList_staysOnHold (k : Nat) (l : List Window) : ∀ s : State, StaysOnHold k s (closeList s k l).1 := by
  induction l with
  | nil => exact .refl k
  | cons w l ih =>
    intro s
    simp only [closeList]
    split
    · split
      · exact (closeResult_staysOnHold s k w.dest _).trans (ih _)
      · exact .refl k s
    · exact ih s

theorem closeWindows_staysOnHold (s : State) (k : Nat) : StaysOnHold k s (closeWindows s k) :=
  (closeList_staysOnHold k _ s).trans (.setThr rfl List.prefix_rfl)

/-- An access that has not been performed is still under way. -/
theorem StaysOnHold.accessesOver {k : Nat} {s t : State} (h : StaysOnHold k s t) (hs : accessesOver s k = false) :
    accessesOver t k = false := by
  obtain ⟨-, ⟨l, hl⟩, ⟨wk, hw⟩⟩ := h
  simp only [Machine.accessesOver, ← hl, ← hw, List.all_append, Bool.and_eq_false_iff] at hs ⊢
  rcases hs with hs | hs
  · refine .inl ?_
    rw [beq_eq_false_iff_ne] at hs ⊢
    exact fun e => hs (List.append_eq_nil_iff.mp e).1
  · exact .inr (.inl hs)

theorem StaysOnHold.ownAccess {k : Nat} {s t : State} (h : StaysOnHold k s t) (hs : ∃ o ∈ (s.thr k).outst, o.own = true) :
    ∃ o ∈ (t.thr k).outst, o.own = true := by
  obtain ⟨o, ho, hown⟩ := hs
  exact ⟨o, h.2.1.subset ho, hown⟩

/-- A thread on hold issues nothing (R283). -/
theorem turnOf_ne_issue {s : State} {k : Nat} (h : (s.thr k).hold ≠ .none) : turnOf s k ≠ .issue := by
  simp only [turnOf, bne_iff_ne.mpr h, if_true]
  split_ifs <;> nofun

theorem settleHold_fence {s : State} {k : Nat} (hh : (s.thr k).hold = .fence) (ho : accessesOver s k = false) :
    ((settleHold s k).thr k).hold = .fence := by
  have hc := closeWindows_staysOnHold s k
  have hhold : ((closeWindows s k).thr k).hold = .fence := hc.1.trans hh
  simp only [settleHold, hhold, hc.accessesOver ho, Bool.false_eq_true, if_false]

theorem settleHold_loop {s : State} {k : Nat} (hh : (s.thr k).hold = .loop) (ho : ∃ o ∈ (s.thr k).outst, o.own = true) :
    ((settleHold s k).thr k).hold = .loop := by
  have hc := closeWindows_staysOnHold s k
  have hhold : ((closeWindows s k).thr k).hold = .loop := hc.1.trans hh
  obtain ⟨o, hm, hown⟩ := hc.ownAccess ho
  have hall : (((closeWindows s k).thr k).outst.all fun o => !o.own) = false := by
    rw [List.all_eq_false]
    exact ⟨o, hm, by simp [hown]⟩
  simp only [settleHold, hhold, hall, Bool.false_eq_true, if_false]

theorem finishHold_eq (s : State) (x : Hold) : finishHold s x =
    .next ((retire s s.cur).setThr s.cur { (retire s s.cur).thr s.cur with hold := x }) := by
  have hc : (retire s s.cur).cur = s.cur := by
    obtain ⟨th, co, di, wk, h⟩ := retire_touches s s.cur
    rw [h]
  simp only [finishHold, hc]

/-- An instruction after which the thread waits (R44). -/
theorem exec_hold {s : State} {i : Instr} {x : Hold} (he : exec i s = issue i s fun s => finishHold s x)
    (h : ready i s = true) : exec i s =
      .next ((retire s s.cur).setThr s.cur { (retire s s.cur).thr s.cur with hold := x }) :=
  exec_of_issue he (finishHold_eq s x) h

theorem acquireReleaseFence : Stated.AcquireReleaseFence := by
  intro s d a mode off lk sc
  refine ⟨codedM_of_encodeM rfl (RoundTrip.ldAcq d a mode off lk) rfl, codedM_of_encodeM rfl (RoundTrip.stRel d a mode off) rfl,
    ?acquire, ?release, ?fence, ?loop⟩
  case acquire =>
    intro h
    have he : exec (.ldAcq d a mode off lk) s = modeAccess s (.ldAcq d a mode off lk) a mode off kindLOAD
        (accessKind (.load false) 8 false true 0#64 0#64) (some d) := exec_of_issue rfl rfl h
    obtain ⟨hstop, hat⟩ := (modeAccess_issues he :)
    exact ⟨hstop, fun p hp => (hat p hp).2⟩
  case release =>
    intro h
    have he : exec (.stRel d a mode off) s = afterAccesses s (modeAccess s (.stRel d a mode off) a mode off kindSTORE
        (accessKind .store 8 false false (readReg s s.cur d) 0#64) none) := exec_of_issue rfl rfl h
    refine ⟨fun hd => he.trans (afterAccesses_waiting hd), fun hd => ?_⟩
    obtain ⟨hstop, hat⟩ := (modeAccess_issues (he.trans (afterAccesses_done hd)) :)
    exact ⟨hstop, fun p hp => (hat p hp).2⟩
  case fence =>
    intro h
    refine ⟨_, exec_hold rfl h, rfl, fun ho => turnOf_ne_issue ?_⟩
    rw [settleHold_fence (by simp) (by rw [accessesOver_eq]; exact ho)]
    exact Hold.noConfusion
  case loop =>
    intro h
    refine ⟨_, exec_hold rfl h, rfl, fun ho => turnOf_ne_issue ?_⟩
    rw [settleHold_loop (by simp) ho]
    exact Hold.noConfusion

/-- The instructions on registers may trap before their issue (R194, R195, R205). -/
def checksFirst : Instr → Bool
  | .sysr _ _ | .sysw _ _ | .tsr _ _ | .ewr _ _ _ => true
  | _ => false

/-- Every other instruction with a word goes through issue. -/
theorem exec_eq_issue {i : Instr} (s : State) (h : isWord i = true) (hc : checksFirst i = false) :
    ∃ f, exec i s = issue i s f := by
  cases i with
  | sysr _ _ | sysw _ _ | tsr _ _ | ewr _ _ _ => exact absurd hc.symm Bool.false_ne_true
  | _ => first | exact ⟨_, rfl⟩ | exact absurd h Bool.false_ne_true

/-- They access no memory. -/
theorem checksFirst_of_memoryInstr {i : Instr} (h : memoryInstr i = true) : checksFirst i = false := by
  cases i with
  | sysr d sr | sysw d sr | tsr d sr | ewr d eng sr =>
    simp [memoryInstr, encode] at h
  | _ => rfl

theorem acquireHoldsBack : Stated.AcquireHoldsBack := by
  intro i s w hw hm hc hmem hholds hwaits
  obtain ⟨f, he⟩ := exec_eq_issue s hw (checksFirst_of_memoryInstr hm)
  have hh : heldBack (s.thr s.cur) = true := List.any_eq_true.mpr ⟨w, hmem, by rw [hholds, hwaits]; rfl⟩
  exact he.trans (issue_held f hc hm hh)

/-- Settles O38: ld.acq and st.rel are accesses; a thread on hold stays so while what it waits for is under way; every memory
instruction goes through issue, which holds it back. -/
theorem ordering : Obligations.Ordering := ⟨acquireReleaseFence, acquireHoldsBack⟩

end Sys2Proof.Laws
end

section
/-! PROOFS. Reservation queues and store-conditional at the home (R152 to R155). -/

namespace Sys2Proof.Laws

open Sys2Proof Sys2Proof.Machine

/-! An answer leaves the reservation tables: of a core it touches the journal and the shared registers. -/

/-- The reservation tables of s and t agree. -/
def SameTables (s t : State) : Prop := ∀ c, (t.core c).resv = (s.core c).resv ∧ (t.core c).resvHeld = (s.core c).resvHeld

theorem SameTables.refl (s : State) : SameTables s s := fun _ => ⟨rfl, rfl⟩

theorem SameTables.trans {s t u : State} (h : SameTables s t) (h' : SameTables t u) : SameTables s u :=
  fun c => ⟨(h' c).1.trans (h c).1, (h' c).2.trans (h c).2⟩

theorem SameTables.setCore {s : State} {c : Nat} {x : Core} (hr : x.resv = (s.core c).resv)
    (hh : x.resvHeld = (s.core c).resvHeld) : SameTables s (s.setCore c x) := by
  intro j
  by_cases hj : j = c
  · subst hj
    rw [core_setCore_same]
    exact ⟨hr, hh⟩
  · rw [core_setCore_other _ _ _ _ hj]
    exact ⟨rfl, rfl⟩

theorem latchOthers_sameTables (s : State) (k : Nat) (l : List Nat) : SameTables s (latchOthers s k l) := by
  obtain ⟨th, h⟩ := latchOthers_touches k l s
  rw [h]
  exact .refl s

theorem putReg_sameTables (close : Bool) (s : State) (k : Nat) (r : Reg) (v : Word) : SameTables s (putReg close s k r v) := by
  simp only [putReg]
  split
  · exact .refl s
  split
  · exact .refl s
  split
  · obtain ⟨b, l, h⟩ := written_touches (s.core (coreOf k)) s.ck (r.toNat - 16) (writeRank k close) v
    exact .trans (.setCore (by rw [h]) (by rw [h])) (latchOthers_sameTables _ k _)
  · exact .refl s

theorem closeResult_sameTables (s : State) (k : Nat) (d : Reg) (r : Result) : SameTables s (closeResult s k d r) := by
  cases r with
  | one v => exact putReg_sameTables true s k d v
  | two v w => exact (putReg_sameTables true s k d v).trans (putReg_sameTables true _ k _ w)
  | buffer v l =>
    obtain ⟨th, wk, e⟩ := leaveStores_touches s k l
    rw [closeResult, e]
    exact putReg_sameTables true { s with threads := th, work := wk } k d v
  | object c => exact putReg_sameTables true s k d _
  | kernel h a =>
    obtain ⟨di, e⟩ := freeEnded_touches s h a
    rw [closeResult, e]
    exact putReg_sameTables true { s with dies := di } k d _
  | mstatus c =>
    cases c with
    | false => exact putReg_sameTables true s k d _
    | true => exact putReg_sameTables true (s.setThr k _) k d _
  | nothing => exact .refl s
  | refused j => exact .refl s

theorem closeList_sameTables (k : Nat) (l : List Window) : ∀ s : State, SameTables s (closeList s k l).1 := by
  induction l with
  | nil => exact .refl
  | cons w l ih =>
    intro s
    simp only [closeList]
    split
    · split
      · exact (closeResult_sameTables s k w.dest _).trans (ih _)
      · exact .refl s
    · exact ih s

theorem arrive_sameTables (s : State) (k wid : Nat) (r : Result) : SameTables s (arrive s k wid r) :=
  closeList_sameTables k _ (s.setThr k _)

theorem reply_sameTables (s : State) (r : Request) (v : Word) : SameTables s (reply s r (.value v)) := by
  simp only [reply]
  split
  · simp only [receive, respond]
    have hj : ∀ (u : State) (e : Nat), SameTables u (setJournal u (coreOf r.key) e freeEntry) := fun u e => .setCore rfl rfl
    cases r.jent with
    | none =>
      cases r.wid with
      | none => exact .refl s
      | some w => exact arrive_sameTables (s.setThr r.key _) r.key w _
    | some e =>
      cases r.wid with
      | none => exact hj _ e
      | some w => exact (hj _ e).trans (arrive_sameTables _ r.key w _)
  · exact .refl s

/-! lrw (R152, R153, R155). -/

/-- No entry is free for a request, or older ones wait for one (R152). -/
def tableFull (c : Core) : Bool := decide (256 ≤ c.resv.length) || c.resvHeld != []

theorem tableFull_iff (c : Core) : tableFull c = true ↔ 256 ≤ c.resv.length ∨ c.resvHeld ≠ [] := by
  simp only [tableFull, Bool.or_eq_true, decide_eq_true_eq, bne_iff_ne]

theorem exec_lrwArrives {s : State} {r : Request} (hb : arrivalBanks s r = true) (hr : refusal s r = none)
    (h : r.op = .lrw) : exec (.remoteRequestArrival r) s = .next (joinQueue s r (tableFull (s.core r.home))) := by
  rw [exec_request_performed hb hr]
  simp only [perform, h]
  rfl

theorem joinQueue_none_full {s : State} {r : Request} (h : resvHead (s.core r.home) r.cell = none) :
    joinQueue s r true = holdBack s r := by
  simp only [joinQueue, h, if_true]

theorem joinQueue_none_granted {s : State} {r : Request} (h : resvHead (s.core r.home) r.cell = none) :
    joinQueue s r false = reply (s.setCore r.home { s.core r.home with
      resv := (s.core r.home).resv ++ [reservationOf r s.nonce none] }).tick r (.value (readWord s.mem r.cell)) := by
  simp only [joinQueue, h, Bool.false_eq_true, if_false]

/-- Behind another thread's reservation. -/
theorem joinQueue_behind {s : State} {r : Request} {x : Reservation} {full : Bool}
    (h : resvHead (s.core r.home) r.cell = some x) (ho : x.isOf r.asid r.group r.tnum = false) : joinQueue s r full =
      if x.absent = true then reply s r (.value wakeABSENT)
      else if full = true then holdBack s r
      else s.setCore r.home { s.core r.home with resv := (s.core r.home).resv ++ [reservationOf r 0 (some r)] } := by
  simp only [joinQueue, h, ho, Bool.false_eq_true, if_false]

theorem admitLater_core (s : State) (core c : Nat) : (admitLater s core).core c = s.core c := by
  simp only [admitLater]
  split <;> rfl

/-- A cell with no entry in the table has no queue. -/
theorem resvHead_none {c : Core} {cell : Nat} (h : cell ∉ c.resv.map (·.cell)) : resvHead c cell = none :=
  findFirst_eq_none fun x hx => beq_eq_false_iff_ne.mpr fun e => h (List.mem_map.mpr ⟨x, hx, e⟩)

/-- The oldest held request is granted where its doubleword has no queue (R152). -/
theorem exec_admit_grants {s : State} {core : Nat} {q : Request} {qs : List Request} (hq : (s.core core).resvHeld = q :: qs)
    (hl : (s.core core).resv.length < 256) (hh : q.home = core) (hc : q.cell ∉ (s.core core).resv.map (·.cell)) :
    ∃ u, exec (.reservationAdmit core) s = .next u ∧ (u.core core).resvHeld = qs ∧
      ∃ x ∈ (u.core core).resv, x.cell = q.cell ∧ x.tnum = some q.tnum ∧ x.waiting = none := by
  subst hh
  refine ⟨admitLater (joinQueue (s.setCore q.home { s.core q.home with resvHeld := qs }) q false) q.home, ?_, ?_⟩
  · change execReservationAdmit q.home s = _
    simp only [execReservationAdmit, hq]
    rw [if_neg (by omega)]
  · rw [admitLater_core, joinQueue_none_granted (by rw [core_setCore_same]; exact resvHead_none hc)]
    obtain ⟨hresv, hheld⟩ := reply_sameTables _ q _ q.home
    rw [hresv, hheld]
    refine ⟨by simp, reservationOf q s.nonce none, by simp, rfl, rfl, rfl⟩

theorem reservationQueue : Stated.ReservationQueue := by
  intro s r hr hop hb
  dsimp only
  rw [← tableFull_iff, exec_lrwArrives hb hr hop]
  refine ⟨fun hn hf => ?held, fun hn hf => ?granted, fun x hx ho => ⟨fun ha => ?woken, fun ha hf => ?waits, fun ha hf => ?heldBehind⟩,
    fun q qs hq hl => ?full, fun q qs hq hl hh hlrw hc => exec_admit_grants hq hl hh hc⟩
  case held =>
    rw [hf, joinQueue_none_full hn]
    rfl
  case granted =>
    rw [Bool.not_eq_true] at hf
    rw [hf, joinQueue_none_granted hn, reply_answered]
    rfl
  case woken =>
    rw [joinQueue_behind hx ho, if_pos ha, reply_answered]
    rfl
  case waits =>
    rw [joinQueue_behind hx ho, if_neg (by simp [ha]), if_neg hf]
    rfl
  case heldBehind =>
    rw [joinQueue_behind hx ho, if_neg (by simp [ha]), if_pos hf]
    rfl
  case full =>
    change execReservationAdmit r.home s = _
    simp only [execReservationAdmit, hq]
    rw [if_pos hl]

/-! sc (R154). -/

theorem exec_scArrives {s : State} {r : Request} (hb : arrivalBanks s r = true) (hr : refusal s r = none)
    (h : r.op = .sc) : exec (.remoteRequestArrival r) s = .next (storeConditional s r) := by
  rw [exec_request_performed hb hr]
  simp only [perform, h]

theorem resvHead_cons {c : Core} {x : Reservation} {rest : List Reservation} (h : c.resv = x :: rest) :
    resvHead c x.cell = some x := by
  simp only [resvHead, h, findFirst, beq_self_eq_true, if_true]

theorem grantFirst_none (cell seq : Nat) (l : List Reservation) (h : ∀ x ∈ l, x.cell ≠ cell) :
    grantFirst cell seq l = (l, none) := by
  induction l with
  | nil => rfl
  | cons x l ih =>
    have hl := ih fun y hy => h y (List.mem_cons_of_mem x hy)
    simp only [grantFirst, if_neg (h x List.mem_cons_self), hl]

/-- The thread at the head of the queue holds the reservation: the write, and the hand-over. -/
theorem storeConditional_holder {s : State} {r : Request} {x : Reservation} (hh : resvHead (s.core r.home) r.cell = some x)
    (ho : x.isOf r.asid r.group r.tnum = true) (hw : x.waiting = none) : storeConditional s r =
      reply (passReservation { s with mem := writeWord s.mem r.cell r.data } r.home r.cell r.data) r (.value 0#64) := by
  simp [storeConditional, hh, ho, hw]

theorem storeConditional_other {s : State} {r : Request}
    (h : ∀ x, resvHead (s.core r.home) r.cell = some x → x.isOf r.asid r.group r.tnum = false ∨ x.waiting ≠ none) :
    storeConditional s r = reply s r (.value 1#64) := by
  simp only [storeConditional]
  cases hh : resvHead (s.core r.home) r.cell with
  | none => rfl
  | some x =>
    refine if_neg fun e => ?_
    obtain ⟨ho, hw⟩ := Bool.and_eq_true_iff.mp e
    rcases h x hh with hx | hx
    · exact Bool.false_ne_true (hx.symm.trans ho)
    · exact hx (Option.isNone_iff_eq_none.mp hw)

/-- The hand-over with no waiter behind the holder. -/
theorem passReservation_last {s : State} {core cell : Nat} {v : Word} {x : Reservation} {rest : List Reservation}
    (hr : (s.core core).resv = x :: rest) (hc : x.cell = cell) (hn : ∀ y ∈ rest, y.cell ≠ cell)
    (hh : (s.core core).resvHeld = []) : passReservation s core cell v =
      { s.setCore core { s.core core with resv := rest } with nonce := s.nonce + 1 } := by
  simp only [passReservation, hr, dropFirst, hc, if_true, grantFirst_none cell _ rest hn, admitLater]
  rw [if_pos (by simpa using hh)]
  rfl

/-- The hand-over to a waiter of another core. -/
theorem passReservation_next {s : State} {core cell : Nat} {v : Word} {x w : Reservation} {q : Request}
    {rest : List Reservation} (hr : (s.core core).resv = x :: w :: rest) (hc : x.cell = cell) (hw : w.cell = cell)
    (hq : w.waiting = some q) (hremote : q.home ≠ coreOf q.key) (hh : (s.core core).resvHeld = []) :
    passReservation s core cell v =
      { s.setCore core { s.core core with resv := { w with waiting := none, seq := s.nonce } :: rest } with
        nonce := s.nonce + 1
        work := s.work ++ [.resultArrival ⟨q.key, q.aid, q.wid, q.jent, .value v, q.home⟩] } := by
  simp only [passReservation, hr, dropFirst, hc, if_true, grantFirst, hw, hq, reply, if_neg hremote, admitLater]
  rw [if_pos (by simpa using hh)]
  rfl

theorem storeConditionalArrives : Stated.StoreConditional := by
  intro s r hr hop hb
  dsimp only
  rw [exec_scArrives hb hr hop]
  refine ⟨fun x rest hl hc ho hw hh hn => ?last, fun x w q rest hl hc ho hw hwc hq hh _ hremote => ?next, fun h => ?other⟩
  case last =>
    rw [storeConditional_holder (hc ▸ resvHead_cons hl) ho hw, passReservation_last (s := { s with mem := writeWord s.mem r.cell r.data }) hl hc hn hh,
      reply_answered]
    rfl
  case next =>
    rw [storeConditional_holder (hc ▸ resvHead_cons hl) ho hw, 
      passReservation_next (s := { s with mem := writeWord s.mem r.cell r.data }) hl hc hwc hq hremote hh, reply_answered]
    rfl
  case other =>
    rw [storeConditional_other h, reply_answered]

/-- Settles O40: the queue's head decides what an lrw and an sc find; an answer on its way leaves the tables. -/
theorem reservations : Obligations.Reservations := ⟨reservationQueue, storeConditionalArrives⟩

end Sys2Proof.Laws
end

section
/-! PROOFS. Queues and the pool (R361 to R374). -/

namespace Sys2Proof.Laws

open Sys2Proof Sys2Proof.Machine

/-! The pool (R364, R369). -/

theorem openBlocks_eq (c : Core) : openBlocks c = blocksOpen c := by
  rw [openBlocks, upTo_eq_range]
  rfl

theorem poolReserved_eq (c : Core) :
    poolReserved c = ((List.range 16).map fun j => qMin (qcfgOf c j) - occupancy c j).sum := by
  rw [poolReserved, upTo_eq_range]

/-- The admission test of R364. -/
theorem admits_iff (c : Core) (q n : Nat) : admits c q n = true ↔ admitted c q n := by
  simp only [admits, admitted, poolOpen, openBlocks_eq, poolReserved_eq, retiringUsed, inRetiring, Bool.and_eq_true,
    decide_eq_true_eq, and_assoc]
  refine and_congr_right fun _ => and_congr_left fun _ => ?_
  omega

/-! The operands of qput and qget (R372). -/

theorem queueOk_iff (s : State) (x y : Word) : queueOk s s.cur x y = true ↔ entryOk s x y := by
  have hx := x.isLt
  have hy := y.isLt
  have hq : bitsAt x 4 60 = 0 ↔ x.toNat < 16 := by simp only [bitsAt]; omega
  have hl : x.toNat < 16 → bitsAt x 0 4 = x.toNat := by simp only [bitsAt]; omega
  have hb : bitsAt y 52 12 = 0 ∧ bitsAt y 22 30 = 0 ∧ bitsAt y 20 2 = 1 ↔ y.toNat / 2 ^ 20 = 1 := by
    simp only [bitsAt]; omega
  have ho : bitsAt y 0 20 = y.toNat % 2 ^ 20 := by simp only [bitsAt]; omega
  have ha : y.toNat % 2 ^ 20 % 64 = y.toNat % 64 := by omega
  simp only [queueOk, bufferOk, entryOk, Bool.and_eq_true, beq_iff_eq, decide_eq_true_eq, Bool.not_eq_true', ho, ha]
  rw [← Bool.not_eq_true, isSystem_iff]
  constructor
  · rintro ⟨⟨⟨⟨⟨h0, h1⟩, ⟨⟨⟨h2, h3⟩, h4⟩, h5⟩, h6⟩, h7⟩, h8⟩, h9⟩
    have hx16 := hq.mp h0
    rw [hl hx16] at h1 h8 h9
    exact ⟨h1, hx16, hb.mp ⟨h2, h3, h4⟩, h5, h6, by omega, h8, h9⟩
  · rintro ⟨h1, hx16, h2, h3, h4, h5, h6, h7⟩
    obtain ⟨h20, h21, h22⟩ := hb.mpr h2
    rw [hl hx16]
    exact ⟨⟨⟨⟨⟨hq.mpr hx16, h1⟩, ⟨⟨⟨h20, h21⟩, h22⟩, h3⟩, h4⟩, by omega⟩, h6⟩, h7⟩

/-- The queue that operand a names. -/
theorem queue_number {x : Word} (h : x.toNat < 16) : bitsAt x 0 4 = x.toNat := by
  simp only [bitsAt]; omega

theorem bufferCellOf_eq (k : Nat) (y : Word) : bufferCellOf k y = bufferCell (coreOf k) 1 (y.toNat % 2 ^ 20) := by
  rw [bufferCellOf, bitsAt_zero]

/-! What is read at issue over the here path (R134, R142, R149). -/

/-- A request that stands under way, or among the stores of a window that have not issued. -/
def underWay (s : State) (r : Request) : Prop :=
  .remoteRequestArrival r ∈ s.work ∨ ∃ rs, .storeIssue rs ∈ s.work ∧ r ∈ rs

/-- With no access of the thread to these doublewords under way nothing is to be performed first. -/
theorem settleOver_none_near {port : Bool} {s : State} {k cell n : Nat}
    (h : ∀ r, underWay s r → r.key = k → r.port = port → r.cell / 8 < cell / 8 ∨ (cell + n - 1) / 8 < r.cell / 8) :
    settleOver port s k cell n = some s := by
  have hnear : ∀ r, underWay s r → (r.key == k && r.port == port && decide (cell / 8 ≤ r.cell / 8) &&
      decide (r.cell / 8 ≤ (cell + n - 1) / 8)) = false := by
    intro r hr
    rw [← Bool.not_eq_true]
    simp only [Bool.and_eq_true, beq_iff_eq, decide_eq_true_eq]
    rintro ⟨⟨⟨hk, hp⟩, h1⟩, h2⟩
    have := h r hr hk hp
    omega
  simp only [settleOver]
  have hstores : (s.work.any fun e => (unissued e).any fun r => r.key == k && r.port == port &&
      decide (cell / 8 ≤ r.cell / 8) && decide (r.cell / 8 ≤ (cell + n - 1) / 8)) = false := by
    simp only [List.any_eq_false]
    intro e he
    rw [Bool.not_eq_true, List.any_eq_false]
    intro r hr
    cases e with
    | storeIssue rs => simp [hnear r (.inr ⟨rs, he, hr⟩)]
    | _ => exact absurd hr List.not_mem_nil
  rw [if_neg (by rw [hstores]; exact Bool.false_ne_true), List.filter_eq_self.mpr ?_, List.filter_eq_nil_iff.mpr ?_]
  · rfl
  all_goals
    intro e he
    cases e with
    | remoteRequestArrival r => simp [hnear r (.inl he)]
    | _ => simp

theorem hereSettles_holds (s : State) (cell n : Nat) : hereSettles s cell n := by
  refine ⟨fun hb => by rw [settleHere, hereBanks_taken hb]; rfl, fun hb h => ?_⟩
  rw [settleHere, hereBanks_free hb, Option.bind_some]
  obtain ⟨co, e⟩ := takesBanks_touches s (coreOf s.cur) cell n
  rw [e]
  exact settleOver_none_near h

/-! The entry of a qget (R373). -/

/-- The doublewords e from number i of an entry on, as the stores of R373. -/
theorem hereStores_eq_map (s : State) (y : Word) (l : List Word) : ∀ (e : List Word) (i : Nat), l.drop i = e →
    y.toNat % 2 ^ 20 + 8 * l.length ≤ 2 ^ 20 →
    hereStores s s.cur (y + BitVec.ofNat 64 (8 * i)) (s.nonce + 1 + i) e =
      (List.range' i e.length).map (entryStore s y l) := by
  intro e
  induction e with
  | nil => intro i _ _; rfl
  | cons v e ih =>
    intro i hd hl
    have hi : i < l.length := by
      by_contra hn
      rw [List.drop_eq_nil_of_le (by omega)] at hd
      cases hd
    have hv : l.getD i 0#64 = v := by
      rw [List.drop_eq_getElem_cons hi] at hd
      rw [List.getD_eq_getElem _ _ hi]
      exact (List.cons.inj hd).1
    have he : l.drop (i + 1) = e := by rw [← List.drop_drop, hd]; rfl
    have hy : y + BitVec.ofNat 64 (8 * i) + 8#64 = y + BitVec.ofNat 64 (8 * (i + 1)) := by
      rw [BitVec.add_assoc, Nat.mul_add, BitVec.ofNat_add]
    have hc : bufferCellOf s.cur (y + BitVec.ofNat 64 (8 * i)) = bufferCell (coreOf s.cur) 1 (y.toNat % 2 ^ 20 + 8 * i) := by
      have : y.toNat < 2 ^ 64 := y.isLt
      rw [bufferCellOf_eq, BitVec.toNat_add, BitVec.toNat_ofNat]
      congr 1
      omega
    rw [hereStores, hy, Nat.add_assoc _ i 1, ih (i + 1) he hl, List.length_cons, List.range'_succ, List.map_cons]
    congr 1
    rw [hereStore, hc, entryStore, hv]

theorem bufferResult_eq (s : State) (y v : Word) {e : List Word} (hl : e.length = 8) (hy : y.toNat % 2 ^ 20 + 64 ≤ 2 ^ 19) :
    bufferResult s s.cur y e v = .buffer v ((List.range 8).map (entryStore s y e)) := by
  have h := hereStores_eq_map s y e e 0 rfl (by omega)
  rw [Nat.mul_zero, BitVec.add_zero, Nat.add_zero, hl] at h
  rw [bufferResult, h, List.range_eq_range']

end Sys2Proof.Laws
end

section
namespace Sys2Proof.Laws

open Sys2Proof Sys2Proof.Machine

/-! qput and qget (R372, R373). -/

/-- What a qput does with the entry that it has read (R364, R368, R372). -/
def putAnswer (u : State) (core q cell : Nat) (d : Reg) : Out :=
  if (u.core core).qorphan.getLsbD q then wrote u d 3#64
  else if admits (u.core core) q 1 then
    wrote (u.setCore core { u.core core with
      lists := tabSet (u.core core).lists q (tabGet [] (u.core core).lists q ++
        [(List.range 8).map fun i => readWord u.mem (cell + 8 * i)]) }) d 0#64
  else wrote u d 1#64

/-- What a qget does with the list that it names (R368, R373). -/
def getAnswer (s : State) (i : Instr) (d : Reg) (q : Nat) (y : Word) : Out :=
  let c := s.core (coreOf s.cur)
  if c.qorphan.getLsbD q then finishLong s i d (.one 3#64)
  else match tabGet [] c.lists q with
    | [] => finishLong s i d (.one 1#64)
    | e :: es => finishBuffer (s.setCore (coreOf s.cur) { c with lists := tabSet c.lists q es }) i d y e 0#64

section
variable {s : State} {d a b : Reg} {lk : BitVec 4}

theorem exec_qput_trap (h : ready (.qput d a b) s = true)
    (hq : queueOk s s.cur (readReg s s.cur a) (readReg s s.cur b) = false) :
    exec (.qput d a b) s = trapped s kindADDRESS 0 (readReg s s.cur a) := by
  refine exec_of_issue rfl ?_ h
  extract_lets k x y q
  have hk : queueOk s k x y = false := hq
  rw [if_pos (by rw [hk]; rfl)]
  rfl

/-- The entry is read where the here path lets it be read. -/
theorem exec_qput (h : ready (.qput d a b) s = true) (hq : queueOk s s.cur (readReg s s.cur a) (readReg s s.cur b) = true)
    {o : Option State} (ho : settleHere s s.cur (bufferCellOf s.cur (readReg s s.cur b)) 64 = o) :
    exec (.qput d a b) s = o.elim (.next s) fun u =>
      putAnswer u (coreOf s.cur) (bitsAt (readReg s s.cur a) 0 4) (bufferCellOf s.cur (readReg s s.cur b)) d := by
  refine exec_of_issue rfl ?_ h
  extract_lets k x y q
  have hk : queueOk s k x y = true := hq
  have hs : settleHere s k (bufferCellOf k y) 64 = o := ho
  rw [if_neg (by rw [hk]; decide), hs]
  cases o with
  | none => rfl
  | some u =>
    simp only [readWords_eq_map]
    rfl

theorem exec_qget (h : ready (.qget d a b lk) s = true) : exec (.qget d a b lk) s =
    if queueOk s s.cur (readReg s s.cur a) (readReg s s.cur b) = true then
      getAnswer s (.qget d a b lk) d (bitsAt (readReg s s.cur a) 0 4) (readReg s s.cur b)
    else trapped s kindADDRESS 0 (readReg s s.cur a) := by
  refine exec_of_issue rfl ?_ h
  dsimp only
  cases queueOk s s.cur (readReg s s.cur a) (readReg s s.cur b) <;> rfl

end

/-- The operands in order, and the number of the queue. -/
theorem entryOk_spec {s : State} {x y : Word} (h : entryOk s x y) : queueOk s s.cur x y = true ∧ bitsAt x 0 4 = x.toNat := by
  obtain ⟨-, hx16, -⟩ := id h
  exact ⟨(queueOk_iff s x y).mpr h, queue_number hx16⟩

/-- The window of a qget whose list holds the entry e (R373). -/
theorem getAnswer_entry {s : State} {d a b : Reg} {lk : BitVec 4} {q : Nat} {y : Word} {e : List Word} {es : List (List Word)}
    (ho : (s.core (coreOf s.cur)).qorphan.getLsbD q = false) (hl : tabGet [] (s.core (coreOf s.cur)).lists q = e :: es)
    (he : e.length = 8) (hy : y.toNat % 2 ^ 20 + 64 ≤ 2 ^ 19) : getAnswer s (.qget d a b lk) d q y = .next (retireTo
      { s.setCore (coreOf s.cur) { s.core (coreOf s.cur) with lists := tabSet (s.core (coreOf s.cur)).lists q es } with
        nonce := s.nonce + 9, work := s.work ++ [.longLatencyResultArrival s.cur s.nonce] } s.cur
      ((s.thr s.cur).pc + 4#64)
      [{ id := s.nonce, dest := d, count := lk.toNat, event := false, holds := false, word := encode (.qget d a b lk)
         pc := (s.thr s.cur).pc, mismatch := false, retry := false, a := 0#64, b := 0#64
         arrival := .later (.buffer 0#64 ((List.range 8).map (entryStore s y e))) }]) := by
  simp only [getAnswer, ho, Bool.false_eq_true, if_false, hl, finishBuffer, setCore_cur, he]
  rw [show bufferResult _ s.cur y e 0#64 = _ from bufferResult_eq (s.setCore (coreOf s.cur)
    { s.core (coreOf s.cur) with lists := tabSet (s.core (coreOf s.cur)).lists q es }) y 0#64 he hy]
  rfl

/-! qstat (R374). -/

theorem qstatWord_eq_queueReport (c : Core) (asid : BitVec 16) (q : Nat) : qstatWord c asid q = queueReport c asid q := by
  have hmine : (decide (q ≤ 7) || qAsid (qcfgOf c q) == asid).toNat =
      if q ≤ 7 ∨ qAsid (qcfgOf c q) = asid then 1 else 0 := by
    split
    next h => rw [show (decide (q ≤ 7) || qAsid (qcfgOf c q) == asid) = true by simpa using h]; rfl
    next h => rw [show (decide (q ≤ 7) || qAsid (qcfgOf c q) == asid) = false by simpa using h]; rfl
  simp only [qstatWord, queueReport, flag_eq, hmine, fieldsWord]
  refine congrArg (BitVec.ofNat 64) ?_
  simp only [fieldsSum_cons, List.map_nil, List.sum_nil]
  omega

theorem qpoolWord_eq (c : Core) : qpoolWord c = fieldsWord [(c.qovc.toNat, 63), (poolCapacity c, 16), (poolFree c, 0)] := by
  simp only [qpoolWord, flag_eq, fieldsWord]
  refine congrArg (BitVec.ofNat 64) ?_
  simp only [fieldsSum_cons, List.map_nil, List.sum_nil]
  omega

theorem exec_qstat {s : State} {d a : Reg} (h : ready (.qstat d a) s = true) : exec (.qstat d a) s =
    let x := readReg s s.cur a
    let core := coreOf s.cur
    let c := s.core core
    if 64 ≤ x.toNat ∨ 1024 ≤ core ∨ 48 ≤ x.toNat then trapped s kindADDRESS 0 x
    else if x.getLsbD 4 then wrote s d (fieldsWord [(c.qovc.toNat, 63), (poolCapacity c, 16), (poolFree c, 0)])
    else
      wrote (if x.getLsbD 5 = true ∧ (x.toNat % 16 ≤ 7 ∨ qAsid (qcfgOf c (x.toNat % 16)) = (s.thr s.cur).asid) then
          s.setCore core { c with qbereaved := c.qbereaved &&& ~~~(1#16 <<< (x.toNat % 16)) } else s) d
        (queueReport c (s.thr s.cur).asid (x.toNat % 16)) := by
  refine exec_of_issue rfl ?_ h
  have hq : bitsAt (readReg s s.cur a) 0 4 = (readReg s s.cur a).toNat % 16 := bitsAt_zero ..
  have hx := (readReg s s.cur a).isLt
  have htrap : (bitsAt (readReg s s.cur a) 6 58 ≠ 0 ∨ isSystem (coreOf s.cur) = true ∨
      ((readReg s s.cur a).getLsbD 4 = true ∧ (readReg s s.cur a).getLsbD 5 = true)) ↔
      (64 ≤ (readReg s s.cur a).toNat ∨ 1024 ≤ coreOf s.cur ∨ 48 ≤ (readReg s s.cur a).toNat) := by
    rw [isSystem_iff, ← bitsAt_one, ← bitsAt_one]
    simp only [bitsAt]
    omega
  simp only [htrap, hq, qstatWord_eq_queueReport, qpoolWord_eq, Bool.and_eq_true, Bool.or_eq_true, decide_eq_true_eq,
    beq_iff_eq]
  split
  · rfl
  split
  · rfl
  split <;> rfl

/-! qcfg (R294, R371). -/

theorem roomOut_iff (s : State) (core n : Nat) : roomOut s core n = true ↔ n = core ∨ outbound s core 0 < 8 := by
  rw [eq_comm (a := n), roomOut, Bool.or_eq_true, beq_iff_eq, decide_eq_true_eq]

/-- The fields of the naming operand that must be 0. -/
theorem qcfg_operand_iff (y : Word) :
    (bitsAt y 52 12 ≠ 0 ∨ bitsAt y 4 36 ≠ 0) ↔ (y.toNat / 2 ^ 52 ≠ 0 ∨ y.toNat / 2 ^ 4 % 2 ^ 36 ≠ 0) := by
  rw [bitsAt_top y (by omega)]
  rfl

section
variable {s : State} {d a b : Reg}

/-- The operand breaks a rule, or names no core that the thread may name. -/
theorem exec_qcfg_trap (h : ready (.qcfg d a b) s = true) (hbad : coreFor s s.cur (readReg s s.cur b) = none ∨
      (readReg s s.cur b).toNat / 2 ^ 52 ≠ 0 ∨ (readReg s s.cur b).toNat / 2 ^ 4 % 2 ^ 36 ≠ 0) :
    exec (.qcfg d a b) s = trapped s kindADDRESS 0 (readReg s s.cur b) := by
  refine exec_of_issue rfl ?_ h
  simp only [qcfg_operand_iff]
  split
  · rfl
  · next hok => rw [hbad.resolve_right hok]; rfl

theorem exec_qcfg_named {n : Nat} (h : ready (.qcfg d a b) s = true) (hn : coreFor s s.cur (readReg s s.cur b) = some n)
    (hok : ¬ ((readReg s s.cur b).toNat / 2 ^ 52 ≠ 0 ∨ (readReg s s.cur b).toNat / 2 ^ 4 % 2 ^ 36 ≠ 0)) :
    exec (.qcfg d a b) s =
      if roomOut s (coreOf s.cur) n = true then
        asked s d (.qcfgRequest s.cur d n ((readReg s s.cur b).toNat % 16) (readReg s s.cur a))
      else .next s := by
  refine exec_of_issue rfl ?_ h
  simp only [qcfg_operand_iff, if_neg hok, hn, bitsAt_zero]
  cases roomOut s (coreOf s.cur) n <;> rfl

end

theorem coreFor_own {s : State} {y : Word} (h : y.toNat / 2 ^ 40 = 0) :
    ((s.thr s.cur).view = .hypervisor → coreOf s.cur < 1024 → coreFor s s.cur y = some (coreOf s.cur)) ∧
    (1024 ≤ coreOf s.cur → coreFor s s.cur y = none) := by
  have hy : bitsAt y 40 12 = 0 := by simp only [bitsAt]; omega
  refine ⟨fun hv hc => ?_, fun hc => ?_⟩
  · have hs : isSystem (coreOf s.cur) = false := by rw [← Bool.not_eq_true, isSystem_iff]; omega
    simp [coreFor, coreNamed, hy, hs, guestCore, hv]
  · simp [coreFor, coreNamed, hy, (isSystem_iff _).mpr hc]

theorem queueResults : Stated.QueueResults := by
  intro s d a b lk
  dsimp only
  refine ⟨codedR_of_encode rfl (RoundTrip.qput d a b) rfl, codedL_of_encode rfl (RoundTrip.qget d a b lk) rfl,
    codedR_of_encode rfl (RoundTrip.qcfg d a b) rfl, codedR_of_encode rfl (RoundTrip.qstat d a) rfl,
    ?trap, ?put, ?get, ?stat, ?cfg⟩
  case trap =>
    simp only [List.forall_mem_cons, List.not_mem_nil, false_imp_iff, implies_true, and_true]
    exact ⟨fun h hk => exec_qput_trap h (by rwa [← Bool.not_eq_true, queueOk_iff]),
      fun h hk => (exec_qget h).trans (if_neg fun hq => hk ((queueOk_iff ..).mp hq))⟩
  case put =>
    intro h hk
    obtain ⟨hok, hq⟩ := entryOk_spec hk
    rw [← bufferCellOf_eq]
    refine ⟨hereSettles_holds .., exec_qput h hok, fun u hu => ?_⟩
    rw [exec_qput h hok hu, Option.elim_some, hq, putAnswer]
    simp only [← admits_iff]
    exact ⟨fun ho => if_pos ho, fun ho hq => by rw [ho, if_neg Bool.false_ne_true, if_pos hq],
      fun ho hq => by rw [ho, if_neg Bool.false_ne_true, if_neg hq]⟩
  case get =>
    intro h hk
    obtain ⟨hok, hq⟩ := entryOk_spec hk
    rw [exec_qget h, if_pos hok, hq]
    refine ⟨fun ho => ?_, fun ho hl => ?_, fun e es ho hl he hy => getAnswer_entry ho hl he hy⟩
    · simp only [getAnswer, ho, if_true]
      rfl
    · simp only [getAnswer, ho, hl, Bool.false_eq_true, if_false]
      rfl
  case stat => exact exec_qstat
  case cfg =>
    intro h
    refine ⟨fun n hn h52 h36 => ?named, exec_qcfg_trap h, fun hv hc hy => (coreFor_own hy).1 hv hc,
      fun hc hy => (coreFor_own hy).2 hc⟩
    rw [exec_qcfg_named h hn (not_or.mpr ⟨not_not.mpr h52, not_not.mpr h36⟩)]
    exact ⟨fun hr => if_pos ((roomOut_iff ..).mpr hr),
      fun hne hfull => if_neg fun hr => ((roomOut_iff ..).mp hr).elim hne (Nat.not_lt.mpr hfull)⟩

end Sys2Proof.Laws
end

section
namespace Sys2Proof.Laws

open Sys2Proof Sys2Proof.Machine

/-! The step of a qcfg at the named core (R368, R371), and answers (R37, R283, R440). -/

/-- The QCFG words with v at q. -/
theorem qcfg_set_toList (c : Core) (q : Nat) (v : Word) : (c.qcfg.setIfInBounds q v).toList =
    (List.range 16).map fun j => if j = q then v else qcfgOf c j := by
  apply List.ext_getElem
  · simp
  · intro j h1 h2
    have hj : j < 16 := by simpa using h1
    simp [qcfgOf, List.getElem_set, eq_comm, Vector.getD, hj]

theorem qCap_lt (w : Word) : qCap w < 8192 := Nat.mod_lt _ (by decide)

/-- The bounds on the caps of queues 5 to 7 (R361). -/
theorem capLimit_iff (q : Nat) (v : Word) : capLimit q < qCap v ↔
    (q = 5 ∧ 256 < qCap v) ∨ (q = 6 ∧ 1536 < qCap v) ∨ (q = 7 ∧ 128 < qCap v) := by
  have := qCap_lt v
  unfold capLimit
  split
  · omega
  · omega
  · omega
  · next h5 h6 h7 => exact iff_of_false (by omega) (by simp_all)

/-- The kinds that queues 8 to 15 may have. -/
theorem kind_unknown (kind : Nat) : (!(kind == 0 || kind == 3 || kind == 4 || kind == 5)) = true ↔ kind ∉ [0, 3, 4, 5] := by
  simp only [Bool.not_eq_true', Bool.or_eq_false_iff, beq_eq_false_iff_ne, List.mem_cons, List.not_mem_nil, or_false, not_or,
    and_assoc]

/-- The peers that a channel may not name (R371). -/
theorem not_qPeerOk (core : Nat) (v : Word) : (!qPeerOk core v) = true ↔
    bitsAt v 42 2 ≠ dieOf core ∨ 14 ≤ bitsAt v 38 4 ∨ 16 ≤ bitsAt v 33 5 ∨ qPeerCore v = core := by
  simp only [qPeerOk, Bool.not_eq_true', Bool.and_eq_false_iff, beq_eq_false_iff_ne, decide_eq_false_iff_not, bne_eq_false_iff_eq,
    not_lt, or_assoc]

theorem qcfgRefused_iff (c : Core) (core q : Nat) (v : Word) :
    qcfgRefused c core q v = true ↔ cfgRefused c core q v := by
  have hcap : capSum (c.qcfg.setIfInBounds q v).toList = ((List.range 5).map fun j => qCap (if j = q then v else qcfgOf c j)).sum := by
    rw [capSum, qcfg_set_toList c q v]
    rfl
  have hmin : minSum (c.qcfg.setIfInBounds q v).toList = ((List.range 16).map fun j => qMin (if j = q then v else qcfgOf c j)).sum := by
    rw [minSum, qcfg_set_toList c q v, List.map_map]
    rfl
  simp only [qcfgRefused, cfgRefused, hcap, hmin, fixedKind, qOther, kind_unknown, not_qPeerOk, Bool.or_eq_true, Bool.and_eq_true,
    bne_iff_ne, beq_iff_eq, decide_eq_true_eq, capLimit_iff, and_assoc, or_assoc]
  simp only [or_left_comm (b := 4096 < qCap v)]

theorem qcfgBusy_iff (c : Core) (q : Nat) (v : Word) : qcfgBusy c q v = true ↔ cfgBusy c q v := by
  simp only [qcfgBusy, cfgBusy, Bool.and_eq_true, Bool.or_eq_true, decide_eq_true_eq, bne_iff_ne, and_assoc, or_assoc]

/-- The mask of a queue's mark. -/
theorem mark_mask (q : Nat) : (1#16 <<< q) = BitVec.ofNat 16 (2 ^ q) := by
  apply BitVec.eq_of_toNat_eq
  simp [Nat.shiftLeft_eq]

theorem setQcfg_eq (c : Core) (q : Nat) (v : Word) : setQcfg c q v =
    { c with
      qcfg := c.qcfg.setIfInBounds q v
      qbereaved := c.qbereaved &&& ~~~(BitVec.ofNat 16 (2 ^ q)), qorphan := c.qorphan &&& ~~~(BitVec.ofNat 16 (2 ^ q))
      lists := if 8 ≤ q ∧ qKind v = 0 then tabSet c.lists q [] else c.lists
      chanOpen := if 8 ≤ q ∧ qKind v = 0 then c.chanOpen &&& ~~~(BitVec.ofNat 16 (2 ^ q)) else c.chanOpen } := by
  simp only [setQcfg, mark_mask]
  split <;> rfl

theorem exec_qcfgRequest (s : State) (k : Nat) (d : Reg) (core q : Nat) (v : Word) : exec (.qcfgRequest k d core q v) s =
    if qcfgRefused (s.core core) core q v = true then .next (replied s core k d 1#64)
    else if qcfgBusy (s.core core) q v = true then .next (replied s core k d 2#64)
    else .next (replied (s.setCore core (setQcfg (s.core core) q v)) core k d 0#64) := rfl

theorem queueConfigures : Stated.QueueConfigures := by
  intro s k d core q v _
  dsimp only
  rw [← qcfgRefused_iff, ← qcfgBusy_iff, exec_qcfgRequest]
  refine ⟨fun hr => if_pos hr, fun hr hb => by rw [if_neg hr, if_pos hb], fun hr hb => ?_, fun _ _ => rfl,
    fun u v hh => ?_, fun u v hh => ?_⟩
  · rw [if_neg hr, if_neg hb, setQcfg_eq]
  · rw [answer, if_pos (beq_iff_eq.mpr hh)]
  · rw [answer, if_neg (fun e => hh (beq_iff_eq.mp e))]

end Sys2Proof.Laws
end

section
/-! PROOFS. Entries that move between cores, and the retirement of a pool block (R207, R342, R365, R368, R369). -/

namespace Sys2Proof.Laws

open Sys2Proof Sys2Proof.Machine

/-! Entries that move (R207, R342, R365). -/

theorem exec_channelEntryMove {s : State} {core ch : Nat} {e e' : List Word} {es : List (List Word)}
    (hl : listOf (s.core core) (8 + ch) = e :: e' :: es) :
    let w := qcfgOf (s.core core) (8 + ch)
    let p := s.core (qPeerCore w)
    let q := 8 + qPeerChannel w
    let there := qcfgOf p q
    qPeerCore w ≠ core → qKind w = 4 → qKind there = 5 → qAsid there = qAsid w → qPeerCore there = core → qPeerChannel there = ch →
    exec (.channelEntryMove core ch) s =
      if (s.core core).qorphan.getLsbD (8 + ch) = false ∧ admits p q 1 = true then
        .next ((s.setCore core (setList (s.core core) (8 + ch) (e' :: es))).setCore (qPeerCore w)
          (setList p q (listOf p q ++ [e])))
      else .next (s.later (.channelEntryMove core ch)) := by
  intro w p q there hp hk hk' ha hc hn
  have hfill : (e' :: es == []) = false := rfl
  refine Eq.trans (b := execChannelEntryMove core ch s) rfl ?_
  rw [execChannelEntryMove]
  simp only [hl, hfill, Bool.false_and]
  rw [core_setCore_other _ _ _ _ hp]
  refine if_congr ?_ rfl rfl
  have hfields : ∀ x : Prop, (qKind w = 4 ∧ qKind there = 5 ∧ qAsid there = qAsid w ∧ qPeerCore there = core ∧
      qPeerChannel there = ch ∧ x) ↔ x := fun x => ⟨fun h => h.2.2.2.2.2, fun h => ⟨hk, hk', ha, hc, hn, h⟩⟩
  rw [hfields]
  simp only [Bool.not_eq_true', true_and]
  exact Iff.rfl

theorem exec_levelledEntryArrival (core q src : Nat) (e : List Word) (s : State) (hk : qKind (qcfgOf (s.core core) q) = 3)
    (ha : qAsid (qcfgOf (s.core core) q) = qAsid (qcfgOf (s.core src) q)) :
    exec (.levelledEntryArrival core q src e) s =
      if admits (s.core core) q 1 = true then
        .next (s.setCore core (setList (s.core core) q (listOf (s.core core) q ++ [e])))
      else .next (s.later (.levelledEntryArrival src q src e)) := by
  refine Eq.trans (b := execLevelledEntryArrival core q src e s) rfl ?_
  rw [execLevelledEntryArrival]
  simp only [hk, ha, beq_self_eq_true, Bool.true_and, if_true]
  refine if_congr Iff.rfl rfl ?_
  split
  · next h => rw [h]
  · rfl

/-- A pool has at most 64 blocks of 64 entries (R363). -/
theorem poolCapacity_le (c : Core) : poolCapacity c ≤ 4096 := by
  have := List.length_filter_le (fun k => !c.qret.getLsbD k) (upTo 64)
  rw [upTo_eq_range, List.length_range, ← upTo_eq_range] at this
  rw [poolCapacity]
  omega

theorem minimaSum_eq (c : Core) : minimaSum c = qMin (qcfgOf c 0) + ((List.range 15).map fun j => qMin (qcfgOf c (j + 1))).sum := by
  rw [minimaSum, upTo_eq_range, List.range_succ_eq_map, List.map_cons, List.map_map, List.sum_cons]
  rfl

theorem overCommitted_iff (c : Core) : overCommitted c = true ↔
    poolCapacity c ≤ qMin (qcfgOf c 0) + ((List.range 15).map fun j => qMin (qcfgOf c (j + 1))).sum := by
  rw [overCommitted, decide_eq_true_eq, minimaSum_eq]

/-- The minima shrink in proportion (R369). -/
theorem shrinkMinima_word (c : Core) {j : Nat} (h1 : 1 ≤ j) (hj : j < 16) : qcfgOf (shrinkMinima c) j =
    BitVec.ofNat 64 ((qcfgOf c j).toNat / 2 ^ 13 * 2 ^ 13 +
      (poolCapacity c - qMin (qcfgOf c 0)) * qMin (qcfgOf c j) / (minimaSum c - qMin (qcfgOf c 0))) := by
  have hne : j ≠ 0 := by omega
  simp [shrinkMinima, qcfgOf, Vector.getD, hj, hne]

theorem shrinkMinima_zero (c : Core) : qcfgOf (shrinkMinima c) 0 = qcfgOf c 0 := by
  simp [shrinkMinima, qcfgOf, Vector.getD]

/-- A minimum is one of the terms of the sum of those after the first. -/
theorem qMin_le_sum (c : Core) {j : Nat} (h1 : 1 ≤ j) (hj : j < 16) :
    qMin (qcfgOf c j) ≤ ((List.range 15).map fun j => qMin (qcfgOf c (j + 1))).sum := by
  refine List.single_le_sum (fun _ _ => Nat.zero_le _) _ (List.mem_map.mpr ⟨j - 1, List.mem_range.mpr (by omega), ?_⟩)
  rw [Nat.sub_add_cancel h1]

theorem shrinkMinima_fields (c : Core) {j : Nat} (h1 : 1 ≤ j) (hj : j < 16) :
    qMin (qcfgOf (shrinkMinima c) j) = (poolCapacity c - qMin (qcfgOf c 0)) * qMin (qcfgOf c j) /
        ((List.range 15).map fun j => qMin (qcfgOf c (j + 1))).sum ∧
      (qcfgOf (shrinkMinima c) j).toNat / 2 ^ 13 = (qcfgOf c j).toNat / 2 ^ 13 := by
  have hsum : minimaSum c - qMin (qcfgOf c 0) = ((List.range 15).map fun j => qMin (qcfgOf c (j + 1))).sum := by
    rw [minimaSum_eq]
    omega
  have hle := qMin_le_sum c h1 hj
  have hw := shrinkMinima_word c h1 hj
  rw [hsum] at hw
  generalize ((List.range 15).map fun j => qMin (qcfgOf c (j + 1))).sum = sum at *
  have hdiv : (poolCapacity c - qMin (qcfgOf c 0)) * qMin (qcfgOf c j) / sum ≤ 4096 :=
    calc _ ≤ (poolCapacity c - qMin (qcfgOf c 0)) * sum / sum := Nat.div_le_div_right (Nat.mul_le_mul_left _ hle)
      _ ≤ poolCapacity c - qMin (qcfgOf c 0) := Nat.div_le_of_le_mul (Nat.mul_comm _ _).le
      _ ≤ 4096 := (Nat.sub_le _ _).trans (poolCapacity_le c)
  generalize (poolCapacity c - qMin (qcfgOf c 0)) * qMin (qcfgOf c j) / sum = v at *
  have hlt := (qcfgOf c j).isLt
  have hn : (qcfgOf (shrinkMinima c) j).toNat = (qcfgOf c j).toNat / 2 ^ 13 * 2 ^ 13 + v := by
    rw [hw, BitVec.toNat_ofNat, Nat.mod_eq_of_lt (by omega)]
  rw [qMin, bitsAt_zero, hn]
  constructor <;> omega

/-! The entries in use of a block that begins to retire (R369; log 37). -/

theorem blockUsed_bounds (s : State) (c : Core) (h : poolUsed c - inRetiring c ≤ 64 * blocksOpen c) :
    blockUsed s c ≤ 64 ∧ blockUsed s c ≤ poolUsed c - inRetiring c ∧
      poolUsed c - inRetiring c - blockUsed s c ≤ 64 * (blocksOpen c - 1) := by
  rw [blockUsed, openBlocks_eq]
  change poolUsed c - retiringUsed c ≤ _ at h
  change _ ∧ _ ≤ poolUsed c - retiringUsed c ∧ poolUsed c - retiringUsed c - _ ≤ _
  generalize poolUsed c - retiringUsed c = n at *
  generalize hlow : n - 64 * (blocksOpen c - 1) = low
  have hmin : min 64 n + 1 - low ≠ 0 := by omega
  have hr := Nat.mod_lt (Config.choice s.nonce) (Nat.pos_of_ne_zero hmin)
  omega

/-! Retirement (R369). -/

/-- The core once block b, the only one with no entry in use, has left the pool. -/
def withoutBlock (c : Core) (b : Nat) : Core :=
  { c with qret := c.qret ||| BitVec.ofNat 64 (2 ^ b), qretiring := c.qretiring.filter (·.2 != 0) }

theorem retireEmpty_none (s : State) (core : Nat) (h : ∀ x ∈ (s.core core).qretiring, x.2 ≠ 0) : retireEmpty s core = s := by
  rw [retireEmpty]
  exact if_pos (List.filter_eq_nil_iff.mpr fun x hx => by simpa using h x hx)

theorem core_ticks (s : State) (n j : Nat) : (s.ticks n).core j = s.core j := rfl

theorem retireEmpty_one {s : State} {core b : Nat} {c : Core} (hc : s.core core = c)
    (h : c.qretiring.filter (·.2 == 0) = [(b, 0)]) :
    retireEmpty s core = if overCommitted (withoutBlock c b) = true then
        (s.raised (.queueOvc core)).setCore core (shrinkMinima (withoutBlock c b))
      else s.setCore core (withoutBlock c b) := by
  subst hc
  have hmask : 1#64 <<< b = BitVec.ofNat 64 (2 ^ b) := by
    apply BitVec.eq_of_toNat_eq
    simp [Nat.shiftLeft_eq]
  rw [retireEmpty, h, List.foldl_cons, List.foldl_nil, hmask]
  rfl

/-- A block that is not retired or retiring begins to retire (R369). -/
theorem exec_poolBlockRetire_begins {s : State} {core n : Nat} (hn : n < 64) (hr : (s.core core).qret.getLsbD n = false)
    (ho : ∀ x ∈ (s.core core).qretiring, x.1 ≠ n) : exec (.poolBlockRetire core n) s =
      .next (retireEmpty (s.setCore core { s.core core with
        qretiring := (s.core core).qretiring ++ [(n, blockUsed s (s.core core))], qused := poolUsed (s.core core) }).tick core) := by
  refine if_neg ?_
  rintro (h | h | h)
  · omega
  · rw [hr] at h
    cases h
  · obtain ⟨x, hx, e⟩ := List.any_eq_true.mp h
    exact ho x hx (beq_iff_eq.mp e)

/-- A new block with no entry in use is the only such one. -/
theorem filter_zero_append {t : Tab Nat} (h : ∀ x ∈ t, x.2 ≠ 0) (n : Nat) :
    (t ++ [(n, 0)]).filter (·.2 == 0) = [(n, 0)] ∧ (t ++ [(n, 0)]).filter (·.2 != 0) = t := by
  have h0 : t.filter (·.2 == 0) = [] := List.filter_eq_nil_iff.mpr fun x hx => by simpa using h x hx
  have h1 : t.filter (·.2 != 0) = t := List.filter_eq_self.mpr fun x hx => by simpa using h x hx
  rw [List.filter_append, List.filter_append, h0, h1]
  exact ⟨rfl, List.append_nil t⟩

/-- The entries of the only retiring block leave the pool one after another (R369). -/
theorem leavePool_only (b : Nat) : ∀ (n nonce : Nat), leavePool nonce n n [(b, n)] = [(b, 0)] := by
  intro n
  induction n with
  | zero => intro _; rfl
  | succ n ih =>
    intro nonce
    have h : Config.choice nonce % (n + 1) < n + 1 := Nat.mod_lt _ n.succ_pos
    rw [leavePool, leaveBlock, if_pos h]
    exact ih (nonce + 1)

theorem settlePool_last {s : State} {core b n : Nat} (hr : (s.core core).qretiring = [(b, n)]) (hu : (s.core core).qused = n)
    (hp : poolUsed (s.core core) = 0) : ∃ c : Core, (settlePool s core).core core = c ∧
      c.qret = (s.core core).qret ||| BitVec.ofNat 64 (2 ^ b) ∧ c.qretiring = [] := by
  have hl : leavePool s.nonce (s.core core).qused ((s.core core).qused - poolUsed (s.core core)) (s.core core).qretiring =
      [(b, 0)] := by
    rw [hr, hu, hp, Nat.sub_zero, leavePool_only]
  rw [settlePool, hl, retireEmpty_one ((core_ticks _ _ _).trans (core_setCore_same _ _ _)) (b := b) rfl]
  split <;> exact ⟨_, core_setCore_same _ _ _, rfl, rfl⟩

/-- The core once block n has retired as it began to. -/
def blockRetired (c : Core) (n : Nat) : Core := { c with qret := c.qret ||| BitVec.ofNat 64 (2 ^ n), qused := poolUsed c }

/-- A block with no entry in use retires as it begins to (R369). -/
theorem retireEmpty_begun {s : State} {core n : Nat} (h : ∀ x ∈ (s.core core).qretiring, x.2 ≠ 0) :
    retireEmpty (s.setCore core { s.core core with
        qretiring := (s.core core).qretiring ++ [(n, 0)], qused := poolUsed (s.core core) }).tick core =
      if overCommitted (blockRetired (s.core core) n) = true then
        { s.setCore core (shrinkMinima (blockRetired (s.core core) n)) with
          nonce := s.nonce + 1, sticky := .queueOvc core :: s.sticky }
      else { s.setCore core (blockRetired (s.core core) n) with nonce := s.nonce + 1 } := by
  obtain ⟨h0, h1⟩ := filter_zero_append h n
  rw [retireEmpty_one ((core_tick _ _).trans (core_setCore_same _ _ _)) h0, withoutBlock, h1]
  simp only [State.setCore, State.tick, State.raised, tabSet_tabSet]
  rfl

theorem queueMoves : Stated.QueueMoves := by
  intro s core
  dsimp only
  refine ⟨fun ch e e' es hl hp hk hk' ha hc hn => ?_, fun q src e hk => ?_, fun n hn => ?_, fun n hn hr ho => ?_,
    fun b n hb _ hr hu hp => ?_⟩
  · rw [exec_channelEntryMove hl hp hk hk' ha hc hn, ← admits_iff]
    refine ⟨fun h1 h2 => if_pos ⟨h1, h2⟩, fun h => if_neg ?_⟩
    rintro ⟨h1, h2⟩
    exact h.elim (fun h => by rw [h1] at h; cases h) fun h => h h2
  · rw [← admits_iff]
    refine ⟨?_, fun _ ha => ?_⟩
    · rintro rfl
      rw [exec_levelledEntryArrival _ _ _ _ _ hk rfl]
      exact ⟨fun h => if_pos h, fun h => if_neg h⟩
    · rw [exec_levelledEntryArrival _ _ _ _ _ hk ha]
      exact ⟨fun h => if_pos h, fun h => if_neg h⟩
  · refine if_pos ?_
    simpa only [List.any_eq_true, beq_iff_eq, ge_iff_le] using hn
  · have hne := fun x hx => (ho x hx).2
    rw [exec_poolBlockRetire_begins hn hr fun x hx => (ho x hx).1]
    refine ⟨fun h => blockUsed_bounds s _ h, fun h => ?_, fun h => ?_⟩
    · rw [retireEmpty_none]
      · rfl
      · rw [core_tick, core_setCore_same]
        intro x hx
        rcases List.mem_append.mp hx with hx | hx
        · exact hne x hx
        · rw [List.mem_singleton.mp hx]
          exact h
    · have hover := overCommitted_iff (blockRetired (s.core core) n)
      rw [h, retireEmpty_begun hne]
      refine ⟨fun hcap => ?_, fun hcap => ⟨shrinkMinima (blockRetired (s.core core) n), ?_, rfl, shrinkMinima_zero _,
        fun j hj hj16 => shrinkMinima_fields (blockRetired (s.core core) n) hj hj16⟩⟩
      · rw [if_neg fun ho => Nat.not_le.mpr hcap (hover.mp ho)]
        rfl
      · rw [if_pos (hover.mpr hcap)]
  · obtain ⟨c, e, hret, hnone⟩ := settlePool_last hr hu hp
    rw [e, hret]
    exact ⟨by simp [BitVec.getLsbD_ofNat, Nat.testBit_two_pow_self, hb, -BitVec.ofNat_pow], hnone⟩

/-- Settles O42, from the queue instructions, the step and the answer of qcfg, and the moves of entries and blocks. -/
theorem queues : Obligations.Queues := ⟨queueResults, queueConfigures, queueMoves⟩

end Sys2Proof.Laws
end

section
/-! PROOFS. What an instruction leaves unchanged as it issues: the memory and the package (R50, R138, R475). -/

namespace Sys2Proof.Laws

open Sys2Proof Sys2Proof.Machine

/-! The memory and the package, and what of the state they do not depend on. -/

/-- What R50 leaves to the privileged views: the die maps, the retired dies, the ASID table, the functions, the interrupt routes,
the host doorbells and what the module booted. -/
structure Package where
  diemap0 : Word
  diemap1 : Word
  dieret : BitVec 4
  asidtab : Word
  vfs : Tab Vf
  irqroute : Vector Word 16
  hdb : Tab Word
  flash : List Host.Cell
  bootstat : Word
  entry : Word

def packageOf (s : State) : Package :=
  ⟨s.diemap0, s.diemap1, s.dieret, s.asidtab, s.vfs, s.irqroute, s.hdb, s.flash, s.bootstat, s.entry⟩

/-- The memory and the package of a state. -/
def frameOf (s : State) : List Host.Cell × Package := (s.mem, packageOf s)

/-- The other fields that an instruction may change do not matter. -/
@[simp] theorem frameOf_others (s : State) (threads : Tab Thread) (cores : Tab Core) (dies : Tab Die) (nonce : Nat)
    (work due : List Event) (barriers : Tab Barrier) (poison : List Nat) (erring : List (Nat × Bool)) (romMap : Bool)
    (awaiters : List Awaiter) (sticky : List Sticky) (ranks : Tab Nat) :
    frameOf { s with
      threads := threads, cores := cores, dies := dies, nonce := nonce, work := work, due := due, barriers := barriers
      poison := poison, erring := erring, romMap := romMap, awaiters := awaiters, sticky := sticky, ranks := ranks } =
    frameOf s := (rfl)

/-- The package is beside the memory. -/
@[simp] theorem frameOf_mem_snd (s : State) (mem : List Host.Cell) : (frameOf { s with mem := mem }).2 = (frameOf s).2 := (rfl)

@[simp] theorem frameOf_setThr (s : State) (k : Nat) (t : Thread) : frameOf (s.setThr k t) = frameOf s := (rfl)
@[simp] theorem frameOf_setCore (s : State) (c : Nat) (x : Core) : frameOf (s.setCore c x) = frameOf s := (rfl)
@[simp] theorem frameOf_setDie (s : State) (d : Nat) (x : Die) : frameOf (s.setDie d x) = frameOf s := (rfl)
@[simp] theorem frameOf_tick (s : State) : frameOf s.tick = frameOf s := (rfl)
@[simp] theorem frameOf_ticks (s : State) (n : Nat) : frameOf (s.ticks n) = frameOf s := (rfl)
@[simp] theorem frameOf_later (s : State) (e : Event) : frameOf (s.later e) = frameOf s := (rfl)
@[simp] theorem frameOf_now (s : State) (e : Event) : frameOf (s.now e) = frameOf s := (rfl)
@[simp] theorem frameOf_raised (s : State) (b : Sticky) : frameOf (s.raised b) = frameOf s := (rfl)
@[simp] theorem frameOf_setGroup (s : State) (g : BitVec 16) (x : Group) : frameOf (s.setGroup g x) = frameOf s := (rfl)
@[simp] theorem frameOf_setRecord (s : State) (d ix : Nat) (x : KernelRec) : frameOf (s.setRecord d ix x) = frameOf s := (rfl)
@[simp] theorem frameOf_setBarrier (s : State) (j : Nat) (x : Barrier) : frameOf (s.setBarrier j x) = frameOf s := (rfl)
@[simp] theorem frameOf_setPort (s : State) (d p : Nat) (x : Port) : frameOf (s.setPort d p x) = frameOf s := (rfl)
@[simp] theorem frameOf_setPlot (s : State) (d p : Nat) (x : Plot) : frameOf (s.setPlot d p x) = frameOf s := (rfl)
@[simp] theorem frameOf_setHolding (s : State) (d ix : Nat) (x : Holding) : frameOf (s.setHolding d ix x) = frameOf s := (rfl)
@[simp] theorem frameOf_setRed (s : State) (c k : Nat) (x : RedCtx) : frameOf (s.setRed c k x) = frameOf s := (rfl)
@[simp] theorem frameOf_setJournal (s : State) (c e : Nat) (x : JournalEntry) : frameOf (setJournal s c e x) = frameOf s := (rfl)

/-! The shared operations. -/

@[simp] theorem frameOf_putReg (close : Bool) (s : State) (k : Nat) (r : Reg) (v : Word) :
    frameOf (putReg close s k r v) = frameOf s := by
  obtain ⟨th, co, h⟩ := putReg_touches close s k r v
  rw [h]
  rfl

@[simp] theorem frameOf_writeReg (s : State) (k : Nat) (r : Reg) (v : Word) : frameOf (writeReg s k r v) = frameOf s :=
  frameOf_putReg false s k r v

@[simp] theorem frameOf_closeWindows (s : State) (k : Nat) : frameOf (closeWindows s k) = frameOf s := by
  obtain ⟨th, co, di, wk, h⟩ := closeWindows_touches s k
  rw [h]
  rfl

@[simp] theorem frameOf_retireTo (s : State) (k : Nat) (pc : Word) (l : List Window) : frameOf (retireTo s k pc l) = frameOf s := by
  obtain ⟨th, co, di, wk, h⟩ := retireTo_touches s k pc l
  rw [h]
  rfl

@[simp] theorem frameOf_retire (s : State) (k : Nat) : frameOf (retire s k) = frameOf s := frameOf_retireTo s k _ _

@[simp] theorem frameOf_arrive (s : State) (k wid : Nat) (r : Result) : frameOf (arrive s k wid r) = frameOf s := by
  obtain ⟨th, co, di, wk, h⟩ := arrive_touches s k wid r
  rw [h]
  rfl

theorem frameOf_closeOldest {s t : State} {k : Nat} (h : closeOldest s k = some t) : frameOf t = frameOf s := by
  obtain ⟨th, co, di, wk, e⟩ := closeOldest_touches s t k h
  rw [e]
  rfl

@[simp] theorem frameOf_trapAt (s : State) (k : Nat) (epc : Word) (kind detail : Nat) (v : Word) :
    frameOf (trapAt s k epc kind detail v) = frameOf s := by
  obtain ⟨th, co, di, du, h⟩ := trapAt_touches s k epc kind detail v
  rw [h]
  rfl

@[simp] theorem frameOf_exactTrap (s : State) (k kind detail : Nat) (v : Word) :
    frameOf (exactTrap s k kind detail v) = frameOf s := frameOf_trapAt s k _ kind detail v

@[simp] theorem frameOf_illegalTrap (s : State) (k c : Nat) (w : IWord) : frameOf (illegalTrap s k c w) = frameOf s :=
  frameOf_exactTrap s k _ c _

@[simp] theorem frameOf_withRegisters (s s' : State) (k : Nat) : frameOf (withRegisters s s' k) = frameOf s := (rfl)

@[simp] theorem frameOf_registersBack (s s' : State) (k : Nat) : frameOf (registersBack s s' k) = frameOf s' := by
  simp only [registersBack]
  split
  · rfl
  · simp only [frameOf_setCore, frameOf_setThr]

@[simp] theorem frameOf_pageFault (s : State) (k : Nat) (va : Word) (reason kind : Nat) :
    frameOf (pageFault s k va reason kind) = frameOf s := by
  simp only [pageFault]
  split
  · exact frameOf_exactTrap s k _ _ _
  · split <;> simp only [frameOf_setDie, frameOf_setThr]

@[simp] theorem frameOf_startWalk (s : State) (k : Nat) (va : Word) (kind : Nat) : frameOf (startWalk s k va kind) = frameOf s := by
  simp only [startWalk]
  split <;> simp only [frameOf_later, frameOf_setThr]

@[simp] theorem frameOf_countDraw (s : State) (k : Nat) (rm : BitVec 3) : frameOf (countDraw s k rm) = frameOf s := by
  simp only [countDraw]
  split <;> simp only [frameOf_setThr]

@[simp] theorem frameOf_recordRefusal (s : State) (c e : Nat) (x : JournalEntry) (cause : BitVec 4) :
    frameOf (recordRefusal s c e x cause) = frameOf s := (rfl)

@[simp] theorem frameOf_postRefusal (s : State) (k e : Nat) : frameOf (postRefusal s k e) = frameOf s := (rfl)

/-! The effect of an instruction, as it issues. -/

/-- Where an effect ends in a next state, g of its frame is x. -/
def Keeps {α : Type} (g : List Host.Cell × Package → α) (x : α) (o : Out) : Prop := ∀ t, o = .next t → g (frameOf t) = x

section
variable {α : Type} {g : List Host.Cell × Package → α} {x : α} {s : State}

@[simp] theorem keeps_next : Keeps g x (.next s) ↔ g (frameOf s) = x :=
  ⟨fun h => h s rfl, fun h _ e => by cases e; exact h⟩

@[simp] theorem keeps_finish (h : g (frameOf s) = x) : Keeps g x (finish s) := by simpa [finish] using h

@[simp] theorem keeps_forfeit (h : g (frameOf s) = x) : Keeps g x (forfeit s) := by simpa [forfeit] using h

@[simp] theorem keeps_finishWrite {d : Reg} {v : Word} (h : g (frameOf s) = x) : Keeps g x (finishWrite s d v) := by
  simpa [finishWrite] using h

@[simp] theorem keeps_finishTrap {kind detail : Nat} {v : Word} (h : g (frameOf s) = x) :
    Keeps g x (finishTrap s kind detail v) := by
  simpa [finishTrap] using h

@[simp] theorem keeps_operandTrap {v : Word} (h : g (frameOf s) = x) : Keeps g x (operandTrap s v) := keeps_finishTrap h

@[simp] theorem keeps_finishLong {i : Instr} {d : Reg} {r : Result} (h : g (frameOf s) = x) :
    Keeps g x (finishLong s i d r) := by
  simpa [finishLong] using h

@[simp] theorem keeps_finishBuffer {i : Instr} {d : Reg} {b : Word} {ws : List Word} {v : Word} (h : g (frameOf s) = x) :
    Keeps g x (finishBuffer s i d b ws v) := by
  simpa [finishBuffer] using h

@[simp] theorem keeps_finishEvent {i : Instr} {d : Reg} {holds : Bool} {a b : Word} (h : g (frameOf s) = x) :
    Keeps g x (finishEvent s i d holds a b) := by
  simpa [finishEvent] using h

@[simp] theorem keeps_finishFloat {i : Instr} {d : Reg} {rm : BitVec 3} {f : Rounding → Word} (h : g (frameOf s) = x) :
    Keeps g x (finishFloat s i d rm f) := by
  simp [finishFloat, h]

@[simp] theorem keeps_finishPointer {d : Reg} {r : Except Word Word} (h : g (frameOf s) = x) :
    Keeps g x (finishPointer s d r) := by
  cases r <;> simp [finishPointer, h]

@[simp] theorem keeps_finishHold {y : Hold} (h : g (frameOf s) = x) : Keeps g x (finishHold s y) := by
  simpa [finishHold] using h

@[simp] theorem keeps_branch {taken : Bool} {dist : Int} (h : g (frameOf s) = x) : Keeps g x (branch s taken dist) := by
  simp only [branch]
  split_ifs <;> simp [h]

@[simp] theorem keeps_waitFor {d a : Reg} {mask : BitVec 5} {y : Bool} (h : g (frameOf s) = x) :
    Keeps g x (waitFor s d a mask y) := by
  simp only [waitFor]
  split_ifs <;> simp [h]

@[simp] theorem keeps_afterAccesses {go : Out} (h : g (frameOf s) = x) (hgo : Keeps g x go) : Keeps g x (afterAccesses s go) := by
  simp only [afterAccesses]
  split_ifs
  · exact hgo
  · exact keeps_forfeit h

@[simp] theorem keeps_withReach {kind : Nat} {va : Word} {r : Reach} {go : Place → Out} (h : g (frameOf s) = x)
    (hgo : ∀ p, Keeps g x (go p)) : Keeps g x (withReach s kind va r go) := by
  cases r <;> simp [withReach, h, hgo]

theorem frameOf_hereBanks {core cell n : Nat} {t : State} (h : hereBanks s core cell n = some t) : frameOf t = frameOf s := by
  simp only [hereBanks] at h
  split_ifs at h <;> cases h <;> rfl

@[simp] theorem frameOf_launchAccess {k : Nat} {y : AccessKind} {p : Place} {window : Bool} {jent : Option Nat} :
    frameOf (launchAccess s k y p window jent) = frameOf s := by
  cases jent <;> rfl

@[simp] theorem keeps_sendAccess {i : Instr} {y : AccessKind} {window : Option Reg} {p : Place} (h : g (frameOf s) = x) :
    Keeps g x (sendAccess s i y window p) := by
  have hport : ∀ {u}, (if p.port = true then some s else hereBanks s (coreOf s.cur) p.cell y.size) = some u →
      frameOf u = frameOf s := by
    intro u hu
    split at hu
    · cases hu
      rfl
    · exact frameOf_hereBanks hu
  simp only [sendAccess]
  generalize (if p.home = coreOf s.cur then none else journalFree (s.core (coreOf s.cur))) = jent
  split
  · exact keeps_forfeit h
  · split
    · exact keeps_forfeit h
    · split
      · exact keeps_forfeit h
      · next u hu => cases window <;> simp [hport hu, h]

@[simp] theorem keeps_modeAccess {i : Instr} {a : Reg} {mode : BitVec 2} {off : BitVec 8} {kind : Nat} {y : AccessKind}
    {window : Option Reg} (h : g (frameOf s) = x) : Keeps g x (modeAccess s i a mode off kind y window) := by
  refine keeps_withReach h fun p => ?_
  split
  · simp [beginMigration, h]
  · exact keeps_sendAccess h

@[simp] theorem keeps_plainAccess {i : Instr} {a : Reg} {kind : Nat} {y : AccessKind} {window : Option Reg}
    (h : g (frameOf s) = x) : Keeps g x (plainAccess s i a kind y window) :=
  keeps_withReach h fun _ => keeps_sendAccess h

end

end Sys2Proof.Laws
end

section
namespace Sys2Proof.Laws

open Sys2Proof Sys2Proof.Machine

/-! The states in which an effect is tried (R38). -/

/-- An instruction that issues in s has its effect in s, behind the close of the oldest window, or there with the registers of
that close alone. -/
def TriedIn (s u : State) : Prop :=
  u = s ∨ ∃ s', closeOldest s s.cur = some s' ∧ (u = s' ∨ u = withRegisters s s' s.cur)

theorem TriedIn.frame {s u : State} (h : TriedIn s u) : frameOf u = frameOf s := by
  obtain rfl | ⟨s', hs, rfl | rfl⟩ := h
  · rfl
  · exact frameOf_closeOldest hs
  · rfl

theorem TriedIn.cur {s u : State} (h : TriedIn s u) : u.cur = s.cur := by
  obtain rfl | ⟨s', hs, rfl | rfl⟩ := h
  · rfl
  · obtain ⟨th, co, di, wk, e⟩ := closeOldest_touches s _ _ hs
    rw [e]
  · rfl

theorem keeps_issue {α : Type} {g : List Host.Cell × Package → α} {i : Instr} {s : State} {f : State → Out}
    (h : ∀ u, TriedIn s u → Keeps g (g (frameOf u)) (f u)) : Keeps g (g (frameOf s)) (issue i s f) := by
  have htried : ∀ u, TriedIn s u → Keeps g (g (frameOf s)) (f u) := fun u hu => hu.frame ▸ h u hu
  obtain ⟨c, _, e⟩ | e | e | e := issue_cases i s f
  · simp [e]
  · simp [e]
  · exact e ▸ htried s (.inl rfl)
  · rw [e]
    obtain ⟨_, e⟩ | ⟨s', hs, e⟩ := issueLast_cases s s.cur f
    · simp [e]
    · have hback := htried _ (.inr ⟨s', hs, .inr rfl⟩)
      obtain e | e | e | e | ⟨v, hv, e⟩ := e
      · simp [e, frameOf_closeOldest hs]
      · exact e ▸ htried s' (.inr ⟨s', hs, .inl rfl⟩)
      · simp [e]
      · exact e ▸ hback
      · simpa [e] using hback v hv

/-! Answers, and the home of an access (R147, R152 to R161). -/

@[simp] theorem frameOf_receive (s : State) (r : Response) : frameOf (receive s r) = frameOf s := by
  simp only [receive]
  split
  · split <;> split <;> simp
  · split <;> simp
  · split
    · simp
    · split <;> simp

@[simp] theorem frameOf_reply (s : State) (r : Request) (x : Reply) : frameOf (reply s r x) = frameOf s := by
  simp only [reply]
  split <;> simp

@[simp] theorem frameOf_holdBack (s : State) (r : Request) : frameOf (holdBack s r) = frameOf s := (rfl)

@[simp] theorem frameOf_admitLater (s : State) (core : Nat) : frameOf (admitLater s core) = frameOf s := by
  simp only [admitLater]
  split <;> simp

@[simp] theorem frameOf_joinQueue (s : State) (r : Request) (full : Bool) : frameOf (joinQueue s r full) = frameOf s := by
  simp only [joinQueue]
  split <;> split_ifs <;> simp

@[simp] theorem frameOf_passReservation (s : State) (core cell : Nat) (v : Word) :
    frameOf (passReservation s core cell v) = frameOf s := by
  simp only [passReservation]
  split <;> simp

@[simp] theorem frameOf_takeFlag (s : State) (r : Request) (token : Bool) : frameOf (takeFlag s r token) = frameOf s := by
  simp only [takeFlag]
  split <;> simp

@[simp] theorem frameOf_refuse (s : State) (r : Request) (cause : BitVec 4) : frameOf (refuse s r cause) = frameOf s := by
  simp only [refuse]
  split
  · simp
  · split <;> simp

@[simp] theorem package_storeConditional (s : State) (r : Request) : (frameOf (storeConditional s r)).2 = (frameOf s).2 := by
  simp only [storeConditional]
  split
  · split <;> simp
  · simp

@[simp] theorem package_perform (s : State) (r : Request) : (frameOf (perform s r)).2 = (frameOf s).2 := by
  simp only [perform]
  split
  case h_6 => split <;> simp
  all_goals simp

@[simp] theorem package_atHome (s : State) (r : Request) : (frameOf (atHome s r)).2 = (frameOf s).2 := by
  simp only [atHome]
  split <;> simp

theorem package_performAll : ∀ (l : List Request) {s t : State}, performAll s l = some t → (frameOf t).2 = (frameOf s).2 := by
  intro l
  induction l with
  | nil =>
    intro s t h
    cases h
    rfl
  | cons r l ih =>
    intro s t h
    simp only [performAll] at h
    split at h
    · cases h
    · rw [ih h, package_atHome]

theorem package_settleOver {port : Bool} {s t : State} {k cell n : Nat} (h : settleOver port s k cell n = some t) :
    (frameOf t).2 = (frameOf s).2 := by
  simp only [settleOver] at h
  split at h
  · cases h
  · simpa using package_performAll _ h

theorem package_settleHere {s t : State} {k cell n : Nat} (h : settleHere s k cell n = some t) :
    (frameOf t).2 = (frameOf s).2 := by
  obtain ⟨u, hu, ht⟩ := Option.bind_eq_some_iff.mp h
  rw [package_settleOver ht, frameOf_hereBanks hu]

/-- No access of thread k is on its way over the here path. -/
def NoneOwn (s : State) (k : Nat) : Prop := ∀ r, .remoteRequestArrival r ∈ s.work → r.key = k → r.port = true

/-- With none on its way, what is read at issue over the here path leaves the memory. -/
theorem frameOf_settleHere {s t : State} {k cell n : Nat} (hown : NoneOwn s k) (h : settleHere s k cell n = some t) :
    frameOf t = frameOf s := by
  obtain ⟨u, hu, ht⟩ := Option.bind_eq_some_iff.mp h
  have hwork : u.work = s.work := by
    simp only [hereBanks] at hu
    split_ifs at hu <;> cases hu <;> rfl
  rw [← frameOf_hereBanks hu]
  simp only [settleOver] at ht
  split at ht
  · cases ht
  · rw [List.flatMap_eq_nil_iff.mpr ?_, performAll] at ht
    · cases ht
      simp
    · intro e he
      obtain ⟨hmem, hnear⟩ := List.mem_filter.mp he
      cases e with
      | remoteRequestArrival r =>
        simp only [Bool.and_eq_true, beq_iff_eq, decide_eq_true_eq] at hnear
        obtain ⟨⟨⟨hk, hp⟩, _⟩, _⟩ := hnear
        rw [hown r (hwork ▸ hmem) hk] at hp
        cases hp
      | _ => exact absurd hnear Bool.false_ne_true

/-- Closing the oldest window sends nothing to a home. -/
theorem closeResult_requests {s : State} {k : Nat} {d : Reg} {res : Result} {r : Request}
    (h : .remoteRequestArrival r ∈ (closeResult s k d res).work) : .remoteRequestArrival r ∈ s.work := by
  have hreg : ∀ (u : State) (d : Reg) (v : Word), (closeReg u k d v).work = u.work := by
    intro u d v
    obtain ⟨th, co, e⟩ := closeReg_touches u k d v
    rw [e]
  cases res with
  | buffer v l =>
    simp only [closeResult, hreg, leaveStores] at h
    split at h
    · exact h
    · simpa [State.later, State.setThr] using h
  | kernel ix asid =>
    obtain ⟨di, e⟩ := freeEnded_touches s ix asid
    simpa only [closeResult, hreg, e] using h
  | mstatus clear =>
    simp only [closeResult, hreg] at h
    split at h <;> exact h
  | _ => simpa only [closeResult, hreg, postRefusal, State.setThr] using h

theorem closeOldest_requests {s t : State} {k : Nat} (h : closeOldest s k = some t) {r : Request}
    (hr : .remoteRequestArrival r ∈ t.work) : .remoteRequestArrival r ∈ s.work := by
  simp only [closeOldest] at h
  split at h
  · cases h
  · split at h
    · cases h
      rw [closeOne, setThr_work] at hr
      exact (closeResult_requests hr :)
    · cases h

theorem TriedIn.noneOwn {s u : State} (h : TriedIn s u) (hs : NoneOwn s s.cur) : NoneOwn u u.cur := by
  rw [h.cur]
  obtain rfl | ⟨s', hc, rfl | rfl⟩ := h
  · exact hs
  · exact fun r hr => hs r (closeOldest_requests hc hr)
  · exact hs

/-! Barriers (R345 to R358). -/

theorem frameOf_wakeList (x : Barrier) (reset : Bool) (l : List BarWaiter) : ∀ s, frameOf (wakeList x reset s l).1 = frameOf s := by
  induction l with
  | nil => intro s; rfl
  | cons w l ih =>
    intro s
    simp only [wakeList]
    split
    · rw [ih, frameOf_arrive]
    · exact ih s

@[simp] theorem frameOf_barrierStep (s : State) (j : Nat) (x : Barrier) (reset : Bool) :
    frameOf (barrierStep s j x reset) = frameOf s := by
  rw [barrierStep, frameOf_setBarrier, frameOf_wakeList]

@[simp] theorem frameOf_retireBytes (s : State) (core : Nat) (asid : BitVec 16) (scope ix bytes : Nat) (failed : Bool) :
    frameOf (retireBytes s core asid scope ix bytes failed) = frameOf s := by
  simp only [retireBytes]
  split <;> simp

/-! Commands of the engines (R199, R229, R238). -/

@[simp] theorem frameOf_engineDone (s : State) (k : Nat) (irq : Bool) (arg : Word) (eng : BitVec 3) :
    frameOf (engineDone s k irq arg eng) = frameOf s := (rfl)

@[simp] theorem frameOf_setCopy (s : State) (core : Nat) (o : CopyOp) : frameOf (setCopy s core o) = frameOf s := (rfl)

@[simp] theorem frameOf_retireCopy (asid : BitVec 16) (o : CopyOp) (l : List (Nat × Nat)) :
    ∀ s, frameOf (retireCopy asid o s l) = frameOf s := by
  induction l with
  | nil => intro s; rfl
  | cons x l ih => intro s; rw [retireCopy, ih, frameOf_retireBytes]

@[simp] theorem package_completeCopy (s : State) (core : Nat) (o : CopyOp) : (frameOf (completeCopy s core o)).2 = (frameOf s).2 := by
  simp only [completeCopy]
  split_ifs <;> simp

@[simp] theorem package_cancelCopies (core : Nat) (l : List CopyOp) : ∀ s, (frameOf (cancelCopies core s l)).2 = (frameOf s).2 := by
  induction l with
  | nil => intro s; rfl
  | cons o l ih =>
    intro s
    simp only [cancelCopies]
    split_ifs
    · exact ih s
    · simp [ih]
    · simp [ih]

end Sys2Proof.Laws
end

section
namespace Sys2Proof.Laws

open Sys2Proof Sys2Proof.Machine

/-! What the instructions of each unit make of the state. -/

theorem frameOf_vectorCommand {s t : State} {k cmd : Nat} {a b : Word} {n : BitVec 32} {wid : Option Nat} {fork : List Nat}
    {seed : Word} (h : vectorCommand s k cmd a b n wid fork seed = .taken t) : frameOf t = frameOf s := by
  simp only [vectorCommand] at h
  split at h
  · cases h
  · split at h
    · cases h
    · cases h
      simp

theorem frameOf_matrixCommand {s t : State} {k cmd : Nat} {a b : Word} {n : BitVec 32} {fork : List Nat} {seed : Word}
    (h : matrixCommand s k cmd a b n fork seed = .taken t) : frameOf t = frameOf s := by
  simp only [matrixCommand] at h
  split at h
  · cases h
  · cases h
    simp

theorem package_copyCommand {s t : State} {k cmd : Nat} {a b : Word} {fork : List Nat}
    (h : copyCommand s k cmd a b fork = .taken t) : (frameOf t).2 = (frameOf s).2 := by
  simp only [copyCommand] at h
  split at h
  · cases h
  · split at h
    · cases h
    · split at h
      · cases h
      · next u hu =>
        have hset : (frameOf u).2 = (frameOf s).2 := by
          split at hu
          · cases hu
            rfl
          · exact package_settleHere hu
        cases h
        split <;> simp [hset]

theorem package_copyCancel {s t : State} {k : Nat} {a b : Word} (h : copyCancel s k a b = .taken t) :
    (frameOf t).2 = (frameOf s).2 := by
  simp only [copyCancel] at h
  split at h
  · cases h
  · split at h
    · cases h
      simp
    · split at h
      · cases h
      · cases h
        simp

/-! Meadow (R243 to R274). -/

@[simp] theorem frameOf_wakePlot (status : Nat) (l : List PlotWaiter) : ∀ s, frameOf (wakePlot s status l) = frameOf s := by
  induction l with
  | nil => intro s; rfl
  | cons w l ih => intro s; rw [wakePlot, ih, frameOf_arrive]

@[simp] theorem frameOf_wakeAll (s : State) (die p : Nat) (x : Plot) (status : Nat) :
    frameOf (wakeAll s die p x status) = frameOf s := by
  rw [wakeAll, frameOf_wakePlot, frameOf_setPlot]

@[simp] theorem frameOf_meadowDone (s : State) (r : MeadowReq) (v : Word) : frameOf (meadowDone s r v) = frameOf s := by
  simp only [meadowDone]
  split <;> simp

@[simp] theorem frameOf_meadowRefused (s : State) (r : MeadowReq) : frameOf (meadowRefused s r) = frameOf s := by
  simp only [meadowRefused]
  split <;> simp

@[simp] theorem frameOf_meadowVoid (s : State) (r : MeadowReq) : frameOf (meadowVoid s r) = frameOf s := by
  simp only [meadowVoid]
  split <;> simp

@[simp] theorem frameOf_startSettle (s : State) (r : MeadowReq) (w : Nat) : frameOf (startSettle s r w) = frameOf s := by
  simp only [startSettle]
  split <;> simp

@[simp] theorem frameOf_meadowApplied (s : State) (r : MeadowReq) : frameOf (meadowApplied s r) = frameOf s := by
  simp only [meadowApplied]
  split
  case h_5 => split <;> simp
  case h_7 => split <;> simp
  all_goals simp

@[simp] theorem frameOf_meadowTaken (s : State) (r : MeadowReq) : frameOf (meadowTaken s r) = frameOf s := by
  simp only [meadowTaken]
  split_ifs <;> simp

@[simp] theorem frameOf_meadowReaches (s : State) (r : MeadowReq) : frameOf (meadowReaches s r) = frameOf s := by
  simp only [meadowReaches]
  split <;> simp

@[simp] theorem frameOf_plotMet (s : State) (r : MeadowReq) : frameOf (plotMet s r) = frameOf s := (rfl)

theorem frameOf_foldl {β : Type} {f : State → β → State} (hf : ∀ s b, frameOf (f s b) = frameOf s) (l : List β) :
    ∀ s, frameOf (l.foldl f s) = frameOf s := by
  induction l with
  | nil => intro s; rfl
  | cons b l ih => intro s; rw [List.foldl_cons, ih, hf]

@[simp] theorem frameOf_meadowArrives (s : State) (k : Nat) : frameOf (meadowArrives s k) = frameOf s := by
  rw [meadowArrives, frameOf_foldl fun s r => by simp]
  simp

@[simp] theorem frameOf_meadowAtIssue (s : State) (r : MeadowReq) (w : Window) : frameOf (meadowAtIssue s r w) = frameOf s := by
  simp only [meadowAtIssue]
  split <;> simp

/-! Groups, estates and kernels. -/

@[simp] theorem frameOf_setLive (s : State) (g : BitVec 16) (n : Nat) : frameOf (setLive s g n) = frameOf s := by
  simp only [setLive]
  split
  · simp
  · split <;> simp

@[simp] theorem frameOf_memberEnds (s : State) (g : BitVec 16) (a : GroupAct) : frameOf (memberEnds s g a) = frameOf s := by
  simp only [memberEnds]
  split_ifs <;> simp

@[simp] theorem frameOf_dropWaiters (s : State) (k : Nat) : frameOf (dropWaiters s k) = frameOf s := (rfl)

@[simp] theorem frameOf_startThread (s : State) (k : Nat) (asid group tnum : BitVec 16) (pinned : Bool) (pc : Word)
    (args : List Word) (p8 : Word) : frameOf (startThread s k asid group tnum pinned pc args p8) = frameOf s := (rfl)

@[simp] theorem frameOf_spawnThreads (asid g : BitVec 16) (pinned : Bool) (pc : Word) (args : List Word) (frame : Nat)
    (ks : List Nat) : ∀ s t, frameOf (spawnThreads asid g pinned pc args frame s t ks) = frameOf s := by
  induction ks with
  | nil => intro s t; rfl
  | cons k ks ih => intro s t; rw [spawnThreads, ih, frameOf_startThread]

@[simp] theorem frameOf_spawnGroup (s : State) (k : Nat) (a b : Word) : frameOf (spawnGroup s k a b).1 = frameOf s := by
  simp only [spawnGroup]
  split_ifs
  · rfl
  · rfl
  · split <;> simp

@[simp] theorem frameOf_acceptLaunch (s : State) (die ix : Nat) (asid : BitVec 16) (k : KernelEntry) (ea : Nat) (words : List Word)
    (start : Option Word) (detach : Bool) (await : Option Nat) :
    frameOf (acceptLaunch s die ix asid k ea words start detach await).1 = frameOf s := (rfl)

@[simp] theorem frameOf_launchStep (s : State) (k : Nat) (a b : Word) (start : Option Word) :
    frameOf (launchStep s k a b start).1 = frameOf s := by
  simp only [launchStep]
  generalize (if bitsAt b 0 16 = 0 then (s.thr k).asid else b.extractLsb' 0 16) = asid
  generalize (if b.getLsbD 18 = true then bitsAt b 16 2 else dieOf (coreOf k)) = die
  split
  · rfl
  split
  · rfl
  split
  · split
    · rfl
    split
    · rfl
    split_ifs
    · rfl
    · split <;> simp
    · simp
  · rfl

@[simp] theorem frameOf_register (s : State) (die kind : Nat) (key : Word) (asid group : BitVec 16) (p : Option Place) :
    frameOf (register s die kind key asid group p).1 = frameOf s := by
  simp only [register]
  split
  · rfl
  · split <;> simp

@[simp] theorem frameOf_unholdStep (s : State) (k h : Nat) : frameOf (unholdStep s k h).1 = frameOf s := by
  simp only [unholdStep]
  split_ifs <;> simp

@[simp] theorem frameOf_heirStep (s : State) (k : Nat) (a b : Word) : frameOf (heirStep s k a b).1 = frameOf s := by
  simp only [heirStep]
  split_ifs <;> simp

@[simp] theorem package_createPromise (s : State) (die : Nat) (key : Word) (asid group : BitVec 16) (p : Place) :
    (frameOf (createPromise s die key asid group p).1).2 = (frameOf s).2 := by
  simp only [createPromise]
  split <;> simp

@[simp] theorem package_fulfilStep (s : State) (k : Nat) (a b : Word) (p : Place) :
    (frameOf (fulfilStep s k a b p).1).2 = (frameOf s).2 := by
  simp only [fulfilStep]
  split
  · rfl
  · split <;> simp

theorem frameOf_refusedNow {s t : State} {ea : Word} {mode : BitVec 2} {kind e : Nat} {cause : BitVec 4}
    (h : refusedNow s ea mode kind cause = some (t, e)) : frameOf t = frameOf s := by
  obtain ⟨j, _, h⟩ := Option.map_eq_some_iff.mp h
  cases h
  simp

/-! Messages, pages, reductions, the repetition buffer. -/

theorem frameOf_takeEntries : ∀ (l : List Request) {s : State} {x : State × List Request}, takeEntries s l = some x →
    frameOf x.1 = frameOf s := by
  intro l
  induction l with
  | nil =>
    intro s x h
    cases h
    rfl
  | cons r l ih =>
    intro s x h
    simp only [takeEntries] at h
    split at h
    · obtain ⟨y, hy, rfl⟩ := Option.map_eq_some_iff.mp h
      exact (ih hy :)
    · split at h
      · cases h
      · obtain ⟨y, hy, rfl⟩ := Option.map_eq_some_iff.mp h
        exact (ih hy :)

@[simp] theorem frameOf_placeTable (s : State) (core : Nat) (v : Word) : frameOf (placeTable s core v).1 = frameOf s := by
  simp only [placeTable]
  split <;> rfl

@[simp] theorem frameOf_pfqStep (s : State) (die : Nat) : frameOf (pfqStep s die).1 = frameOf s := by
  simp only [pfqStep]
  split <;> rfl

@[simp] theorem frameOf_presumeStep (s : State) (die : Nat) (a b : Word) : frameOf (presumeStep s die a b).1 = frameOf s := (rfl)

@[simp] theorem frameOf_dropTranslations (s : State) (x : Covered) : frameOf (dropTranslations s x) = frameOf s := (rfl)

theorem frameOf_sendTake {s t : State} {k wid : Nat} {a : Word} {p : Place} (h : sendTake s k wid a p = some t) :
    frameOf t = frameOf s := by
  simp only [sendTake] at h
  generalize (if p.home = coreOf k then none else journalFree (s.core (coreOf k))) = jent at h
  split at h
  · cases h
  · injection h with h
    rw [← h]
    cases jent <;> rfl

@[simp] theorem frameOf_redComplete (s : State) (core k : Nat) : frameOf (redComplete s core k) = frameOf s := by
  simp only [redComplete]
  split_ifs <;> simp

@[simp] theorem frameOf_startRep (s : State) (a b : Word) (ws : List IWord) : frameOf (startRep s a b ws) = frameOf s := by
  simp only [startRep]
  split <;> simp

@[simp] theorem frameOf_writeEngine (s : State) (k : Nat) (eng : BitVec 3) (n : Nat) (v : Word) :
    frameOf (writeEngine s k eng n v) = frameOf s := by
  simp only [writeEngine]
  split <;> rfl

@[simp] theorem frameOf_leaveHandler (s : State) (k : Nat) : frameOf (leaveHandler s k) = frameOf s := (rfl)

@[simp] theorem frameOf_leaveUserHandler (s : State) (k : Nat) : frameOf (leaveUserHandler s k) = frameOf s := (rfl)

@[simp] theorem frameOf_awaitAnswer (s : State) (d : Reg) : frameOf (awaitAnswer s d) = frameOf s := (rfl)

@[simp] theorem frameOf_clearSatpend (s : State) (die p : Nat) : frameOf (clearSatpend s die p) = frameOf s := (rfl)

@[simp] theorem frameOf_beginMigration (s : State) (k dst : Nat) (cause : MigCause) :
    frameOf (beginMigration s k dst cause) = frameOf s := (rfl)

end Sys2Proof.Laws
end

section
namespace Sys2Proof.Laws

open Sys2Proof Sys2Proof.Machine

/-! The instructions with a word, one by one. -/

/-- An instruction leaves g of the memory and the package. -/
def Leaves {α : Type} (g : List Host.Cell × Package → α) (i : Instr) : Prop := ∀ s, Keeps g (g (frameOf s)) (exec i s)

section
variable {α : Type} {g : List Host.Cell × Package → α} {x : α} {s : State}

theorem keeps_finishCommand {r : CmdResult} (h : g (frameOf s) = x) (hr : ∀ t, r = .taken t → g (frameOf t) = x) :
    Keeps g x (finishCommand s r) := by
  cases r with
  | taken t => simp [finishCommand, hr t rfl]
  | wait => simp [finishCommand, h]
  | trap kind detail v => simp [finishCommand, h]

theorem keeps_finishCounted {r : CmdResult} (h : g (frameOf s) = x) (hr : ∀ t, r = .taken t → g (frameOf t) = x) :
    Keeps g x (finishCounted s r) := by
  cases r with
  | taken t => simp [finishCounted, hr t rfl]
  | wait => exact keeps_finishCommand h hr
  | trap kind detail v => exact keeps_finishCommand h hr

theorem keeps_withBarrier {a : Reg} {sc : BitVec 3} {go : Nat → Out} (h : g (frameOf s) = x) (hgo : ∀ j, Keeps g x (go j)) :
    Keeps g x (withBarrier s a sc go) := by
  simp only [withBarrier]
  split
  · exact keeps_finishTrap h
  · exact hgo _

theorem keeps_withObject {a : Reg} {go : Nat → Out} (h : g (frameOf s) = x) (hgo : ∀ c, Keeps g x (go c)) :
    Keeps g x (withObject s a go) := by
  simp only [withObject]
  split
  · exact keeps_finishTrap h
  · exact hgo _

theorem keeps_withWord {i : Instr} {a : Word} {linOnly : Bool} {go : Place → Out} (h : g (frameOf s) = x)
    (hgo : ∀ p, Keeps g x (go p)) : Keeps g x (withWord s i a linOnly go) := keeps_withReach h hgo

theorem keeps_withPage {a : Word} {kind : Nat} {go : TlbEntry → Place → Out} (h : g (frameOf s) = x)
    (hgo : ∀ t p, Keeps g x (go t p)) : Keeps g x (withPage s a kind go) := by
  simp only [withPage]
  split
  · exact keeps_withReach h fun _ => keeps_forfeit h
  · exact hgo _ _

theorem keeps_meadowGo {op : MeadowOp} {a b : Word} {go : MeadowReq → Out} (h : g (frameOf s) = x)
    (hgo : ∀ r, Keeps g x (go r)) : Keeps g x (meadowGo s op a b go) := by
  simp only [meadowGo]
  split
  · exact keeps_finishTrap h
  · exact keeps_finishTrap h
  · exact hgo _

theorem keeps_finishRefused {i : Instr} {d : Reg} {ea : Word} {mode : BitVec 2} {kind : Nat} {cause : BitVec 4}
    (h : g (frameOf s) = x) : Keeps g x (finishRefused s i d ea mode kind cause) := by
  simp only [finishRefused]
  split
  · exact keeps_forfeit h
  · next u e hu => exact keeps_finishLong (by rw [frameOf_refusedNow hu, h])

theorem keeps_sendSystem {a b : Word} {asid : BitVec 16} (h : g (frameOf s) = x) : Keeps g x (sendSystem s a b asid) := by
  simp only [sendSystem]
  split
  · exact keeps_withReach h fun _ => keeps_finish h
  · split
    · exact keeps_forfeit h
    · next y hy => exact keeps_finish (by rw [frameOf_later, frameOf_takeEntries _ hy, h])

@[simp] theorem keeps_pfqGo {i : Instr} {d : Reg} {b : Word} {ps : List Place} {die : Nat} (h : g (frameOf s) = x) :
    Keeps g x (pfqGo s i d b ps die) := by
  simp [pfqGo, h]

end

section
variable {α : Type} {g : List Host.Cell × Package → α} {d a b : Reg} {lk : BitVec 4} {sc : BitVec 3}

theorem leaves_vop {i : Instr} {cmd : Nat} (he : ∀ s, exec i s = vop i cmd a b s) : Leaves g i := by
  intro s
  rw [he]
  exact keeps_issue fun u _ => keeps_finishCounted rfl fun t ht => by rw [frameOf_vectorCommand ht]

theorem leaves_matrixOp {i : Instr} {cmd : Nat} (he : ∀ s, exec i s = matrixOp i cmd a b s) : Leaves g i := by
  intro s
  rw [he]
  exact keeps_issue fun u _ => keeps_finishCommand rfl fun t ht => by rw [frameOf_matrixCommand ht]

theorem leaves_meadowCommand {i : Instr} {op : MeadowOp} (he : ∀ s, exec i s = meadowCommand i op d a b s) : Leaves g i := by
  intro s
  rw [he]
  exact keeps_issue fun u _ => keeps_meadowGo rfl fun r => by simp

theorem leaves_launchWith {i : Instr} {timed : Bool} (he : ∀ s, exec i s = launchWith i d a b timed s) : Leaves g i := by
  intro s
  rw [he]
  refine keeps_issue fun u _ => ?_
  dsimp only
  split_ifs <;> simp

theorem leaves_lrw {mode : BitVec 2} {off : BitVec 8} : Leaves g (.lrw d a mode off lk) := fun s => keeps_issue fun u _ => by
  dsimp only
  split
  · split_ifs <;> simp
  · simp

theorem leaves_jal {disp : BitVec 25} : Leaves g (.jal disp) := fun s => keeps_issue fun u _ => by
  dsimp only
  split <;> simp

theorem leaves_jalr {imm : BitVec 15} : Leaves g (.jalr d a imm) := fun s => keeps_issue fun u _ => by
  dsimp only
  split <;> simp

theorem leaves_trap {imm : BitVec 15} : Leaves g (.trap imm) := fun s => keeps_issue fun u _ => by simp

theorem leaves_eret : Leaves g .eret := fun s => keeps_issue fun u _ => by
  dsimp only
  split <;> simp

theorem leaves_uret : Leaves g .uret := fun s => keeps_issue fun u _ => by
  dsimp only
  split <;> simp

theorem leaves_barinit : Leaves g (.barinit d a b sc) := fun s => keeps_issue fun u _ => keeps_withBarrier rfl fun j => by
  dsimp only
  split <;> simp

theorem leaves_barjoin : Leaves g (.barjoin d a b sc) := fun s => keeps_issue fun u _ => keeps_withBarrier rfl fun j => by
  dsimp only
  split
  · simp
  · refine keeps_afterAccesses rfl ?_
    split <;> simp

theorem leaves_barbytes : Leaves g (.barbytes d a b sc) := fun s => keeps_issue fun u _ => keeps_withBarrier rfl fun j => by
  dsimp only
  split_ifs <;> simp

theorem leaves_barwait : Leaves g (.barwait d a b sc lk) := fun s => keeps_issue fun u _ => keeps_withBarrier rfl fun j => by
  simp

theorem leaves_slotw : Leaves g (.slotw d a b) := fun s => keeps_issue fun u _ => by
  dsimp only
  split
  · simp
  · split
    · simp
    · split_ifs <;> simp

theorem leaves_qget : Leaves g (.qget d a b lk) := fun s => keeps_issue fun u _ => by
  dsimp only
  split_ifs
  · simp
  · simp
  · split <;> simp

theorem leaves_qcfg : Leaves g (.qcfg d a b) := fun s => keeps_issue fun u _ => by
  dsimp only
  split
  · simp
  · split
    · simp
    · split <;> simp

theorem leaves_qstat : Leaves g (.qstat d a) := fun s => keeps_issue fun u _ => by
  dsimp only
  split_ifs <;> simp

theorem leaves_ctxsave : Leaves g (.ctxsave d a b) := fun s => keeps_issue fun u _ => by
  dsimp only
  split
  · simp
  · split <;> simp

theorem leaves_ctxload : Leaves g (.ctxload d a b) := fun s => keeps_issue fun u _ => by
  dsimp only
  split
  · simp
  · split <;> simp

theorem leaves_lstat : Leaves g (.lstat d a) := fun s => keeps_issue fun u _ => by
  dsimp only
  split <;> simp

theorem leaves_migrate : Leaves g (.migrate d a) := fun s => keeps_issue fun u _ => by
  dsimp only
  split_ifs
  case neg =>
    split
    · simp
    · split_ifs <;> simp
  all_goals simp

theorem leaves_gstat : Leaves g (.gstat d a) := fun s => keeps_issue fun u _ => by
  dsimp only
  split
  · simp
  · refine keeps_finishWrite ?_
    split <;> simp

theorem leaves_hold : Leaves g (.hold d a b lk) := fun s => keeps_issue fun u _ => by
  dsimp only
  split_ifs
  · simp
  · exact keeps_withWord rfl fun p => by simp
  all_goals simp

theorem leaves_unhold : Leaves g (.unhold d a lk) := fun s => keeps_issue fun u _ => by
  dsimp only
  split <;> simp

theorem leaves_heir : Leaves g (.heir d a b lk) := fun s => keeps_issue fun u _ => by
  dsimp only
  split <;> simp

theorem leaves_grpq : Leaves g (.grpq d a lk) := fun s => keeps_issue fun u _ => by
  dsimp only
  split
  · simp
  · split <;> simp

theorem leaves_await : Leaves g (.await d a lk) := fun s => keeps_issue fun u _ => by
  dsimp only
  split
  · simp
  · refine keeps_withReach rfl fun p => ?_
    split
    · exact keeps_finishRefused rfl
    · simp

theorem leaves_estq : Leaves g (.estq d a b lk) := fun s => keeps_issue fun u _ => by
  have hset : ∀ v, Keeps g (g (frameOf u)) (finishLong (if u.groupHeld (u.thr u.cur).group = true then
      u.setGroup (u.thr u.cur).group { u.group (u.thr u.cur).group with area := readReg u u.cur b } else u)
      (.estq d a b lk) d (.one v)) := by
    intro v
    split <;> simp
  dsimp only
  split
  · simp
  split
  · split <;> simp
  split
  · split
    · exact hset _
    · split
      · simp
      · exact keeps_withReach rfl fun _ => hset _
  · split <;> simp

theorem leaves_mdrain : Leaves g (.mdrain a b) := fun s => keeps_issue fun u _ =>
  keeps_finishCounted rfl fun t ht => by rw [frameOf_matrixCommand ht]

theorem leaves_lturn : Leaves g (.lturn a b) := fun s => keeps_issue fun u _ => by
  dsimp only
  split_ifs <;> simp

theorem leaves_rsvr : Leaves g (.rsvr a b) := fun s => keeps_issue fun u _ => by
  dsimp only
  split_ifs <;> simp

theorem leaves_rpart : Leaves g (.rpart a b) := fun s => keeps_issue fun u _ => by
  dsimp only
  split
  · simp
  · split_ifs <;> simp

theorem leaves_rep {len : BitVec 4} : Leaves g (.rep a b len) := fun s => keeps_issue fun u _ => by
  dsimp only
  split
  · simp
  · split
    · exact keeps_withReach rfl fun _ => keeps_forfeit rfl
    · split <;> simp

theorem leaves_vbusy : Leaves g (.vbusy d a) := fun s => keeps_issue fun u _ => by
  dsimp only
  split
  · simp
  · refine keeps_finishWrite ?_
    split <;> simp

theorem leaves_pin : Leaves g (.pin d a) := fun s => keeps_issue fun u _ => by
  dsimp only
  split <;> simp

theorem leaves_vcmpm : Leaves g (.vcmpm d a b lk) := fun s => keeps_issue fun u _ => by
  dsimp only
  split
  · next t ht => simp [frameOf_vectorCommand ht]
  · next r hr => exact keeps_finishCommand rfl fun t ht => absurd ht (hr t)

theorem leaves_cpwait : Leaves g (.cpwait d a lk) := fun s => keeps_issue fun u _ => keeps_withObject rfl fun _ => by simp

theorem leaves_asettle : Leaves g (.asettle d a b lk) := fun s => keeps_issue fun u _ => keeps_meadowGo rfl fun r => by simp

theorem leaves_asample : Leaves g (.asample d a b lk) := fun s => keeps_issue fun u _ => keeps_meadowGo rfl fun r => by simp

theorem leaves_yield : Leaves g (.yield d a) := fun s => keeps_issue fun u _ => by
  dsimp only
  split <;> simp

theorem leaves_kwait : Leaves g (.kwait d a lk) := fun s => keeps_issue fun u _ => by
  dsimp only
  split <;> simp

theorem leaves_kstat : Leaves g (.kstat d a) := fun s => keeps_issue fun u _ => by
  dsimp only
  split <;> simp

theorem leaves_spawn : Leaves g (.spawn d a b lk) := fun s => keeps_issue fun u _ => by
  dsimp only
  split_ifs <;> simp

theorem leaves_exit : Leaves g .exit := fun s => keeps_issue fun u _ => by
  dsimp only
  split <;> simp

theorem leaves_kill : Leaves g (.kill d a b) := fun s => keeps_issue fun u _ => by
  dsimp only
  split
  · simp
  · split_ifs <;> simp

theorem leaves_recv : Leaves g (.recv d a b lk) := fun s => keeps_issue fun u _ => by
  dsimp only
  split
  · simp
  · split
    · split
      · exact keeps_withReach rfl fun _ => keeps_forfeit rfl
      · simp
    · simp

theorem leaves_pfq : Leaves g (.pfq d a b lk) := fun s => keeps_issue fun u _ => by
  dsimp only
  split
  · simp
  · split
    · simp
    · split
      · split
        · simp
        · exact keeps_withReach rfl fun _ => keeps_forfeit rfl
        · simp
      · split <;> simp

theorem leaves_presume : Leaves g (.presume d a b) := fun s => keeps_issue fun u _ => by
  dsimp only
  split
  · simp
  · split <;> simp

theorem leaves_pinv : Leaves g (.pinv d a b) := fun s => keeps_issue fun u _ => by
  dsimp only
  split
  · simp
  · refine keeps_afterAccesses rfl ?_
    split_ifs <;> simp

theorem leaves_pgive : Leaves g (.pgive d a b) := fun s => keeps_issue fun u _ => by
  dsimp only
  split
  · simp
  · refine keeps_afterAccesses rfl ?_
    split
    · simp
    · exact keeps_withPage rfl fun _ _ => by simp

theorem leaves_ptake : Leaves g (.ptake d a lk) := fun s => keeps_issue fun u _ => by
  dsimp only
  split
  · simp
  · refine keeps_withPage rfl fun _ _ => ?_
    split
    · simp
    · next t ht => simp [frameOf_sendTake ht]

end

end Sys2Proof.Laws
end

section
namespace Sys2Proof.Laws

open Sys2Proof Sys2Proof.Machine

/-! Every instruction with a word. -/

/-- The instructions that may write memory as they issue: the copy commands, promise, fulfil, and those that read the here path
behind their thread's own stores (R149). -/
def writesAtIssue : Instr → Bool
  | .cpbox _ _ | .cpmc _ _ | .cpcan _ _ | .cpredAddF32 _ _ | .cpredAddBf16 _ _ | .cpredMaxF32 _ _ | .cpredMaxBf16 _ _
  | .cpredMinF32 _ _ | .cpredMinBf16 _ _ | .promise _ _ _ | .fulfil _ _ _ | .qput _ _ _ | .send _ _ | .cpstat _ _ => true
  | _ => false

/-- The instructions that write neither memory nor the package as they issue. -/
def writesNeither (i : Instr) : Bool := isWord i && !checksFirst i && !writesAtIssue i

theorem leaves_of_writesNeither {α : Type} {g : List Host.Cell × Package → α} {i : Instr} (h : writesNeither i = true) :
    Leaves g i := by
  cases i with
  | add | sub | and | or | xor | sll | srl | sra | min | max | minu | maxu | sel | clz | ctz | pop | bext | bdep | ptag
  | addi | andi | ori | xori | slli | srli | srai | lui => exact fun _ => keeps_issue fun _ _ => keeps_finishWrite rfl
  | mul | mulh | mulhu | div | divu | rem | remu | fminS | fmaxS | fminD | fmaxD | fcmpS | fcmpD =>
    exact fun _ => keeps_issue fun _ _ => keeps_finishLong rfl
  | padd | pidx | ptagset | paddi => exact fun _ => keeps_issue fun _ _ => keeps_finishPointer rfl
  | faddS | fsubS | fmulS | fdivS | faddD | fsubD | fmulD | fdivD | fmaS | fmsS | fnmaS | fnmsS | fmaD | fmsD | fnmaD
  | fnmsD | fsqrtS | fsqrtD | fcvtSD | fcvtDS | fcvtSL | fcvtDL | fcvtLS | fcvtLD | fcvtDLu | fcvtLuD =>
    exact fun _ => keeps_issue fun _ _ => keeps_finishFloat rfl
  | beq | bne | blt | bge | bltu | bgeu | bbs | bbc => exact fun _ => keeps_issue fun _ _ => keeps_branch rfl
  | wait => exact fun _ => keeps_issue fun _ _ => keeps_waitFor rfl
  | ldB | ldH | ldW | ldD | ldBu | ldHu | ldWu | stB | stH | stW | stD | ldAcq =>
    exact fun _ => keeps_issue fun _ _ => keeps_modeAccess rfl
  | fenceScope | fenceLoop | vfence => exact fun _ => keeps_issue fun _ _ => keeps_finishHold rfl
  | amoAddD | amoMinD | amoMaxD | amoXchgD | amoCasD | amoMinuD | amoMaxuD | amoAddW | amoMinW | amoMaxW | amoXchgW
  | amoCasW | amoMinuW | amoMaxuW | rupAdd | rupMin | rupMax | rupOr | rupAnd | rupXor =>
    exact fun _ => keeps_issue fun _ _ => keeps_plainAccess rfl
  | mwait => exact fun _ => keeps_issue fun _ _ => keeps_finishEvent rfl
  | stRel => exact fun _ => keeps_issue fun _ _ => keeps_afterAccesses rfl (keeps_modeAccess rfl)
  | sc => exact fun _ => keeps_issue fun _ _ => keeps_afterAccesses rfl (keeps_plainAccess rfl)
  | vadd | vsub | vmul | vdiv | vmin | vmax | vfma | vabs | vneg | vsqrt | vcvt | vand | vor | vxor | vshl | vshr | vsum
  | vrmax | vrmin | vsumsq | vexp | vlog | vrcp | vrsqrt | vtanh | vsilu | vgelu => exact leaves_vop fun _ => rfl
  | mgath | mgang | mzero | mband | mmaF4 | mmaF8 | mmaBf16 | mmaI8 => exact leaves_matrixOp fun _ => rfl
  | acfg | acoef | ascale | arun | ahold | areset | astat => exact leaves_meadowCommand fun _ => rfl
  | launch | tlaunch => exact leaves_launchWith fun _ => rfl
  | lrw => exact leaves_lrw
  | jal => exact leaves_jal
  | jalr => exact leaves_jalr
  | trap => exact leaves_trap
  | eret => exact leaves_eret
  | uret => exact leaves_uret
  | barinit => exact leaves_barinit
  | barjoin => exact leaves_barjoin
  | barbytes => exact leaves_barbytes
  | barwait => exact leaves_barwait
  | slotw => exact leaves_slotw
  | qget => exact leaves_qget
  | qcfg => exact leaves_qcfg
  | qstat => exact leaves_qstat
  | ctxsave => exact leaves_ctxsave
  | ctxload => exact leaves_ctxload
  | lstat => exact leaves_lstat
  | migrate => exact leaves_migrate
  | gstat => exact leaves_gstat
  | hold => exact leaves_hold
  | unhold => exact leaves_unhold
  | heir => exact leaves_heir
  | grpq => exact leaves_grpq
  | await => exact leaves_await
  | estq => exact leaves_estq
  | mdrain => exact leaves_mdrain
  | lturn => exact leaves_lturn
  | rsvr => exact leaves_rsvr
  | rpart => exact leaves_rpart
  | rep => exact leaves_rep
  | vbusy => exact leaves_vbusy
  | pin => exact leaves_pin
  | vcmpm => exact leaves_vcmpm
  | cpwait => exact leaves_cpwait
  | asettle => exact leaves_asettle
  | asample => exact leaves_asample
  | yield => exact leaves_yield
  | kwait => exact leaves_kwait
  | kstat => exact leaves_kstat
  | spawn => exact leaves_spawn
  | exit => exact leaves_exit
  | kill => exact leaves_kill
  | recv => exact leaves_recv
  | pfq => exact leaves_pfq
  | presume => exact leaves_presume
  | pinv => exact leaves_pinv
  | pgive => exact leaves_pgive
  | ptake => exact leaves_ptake
  | _ => exact absurd h Bool.false_ne_true

end Sys2Proof.Laws
end

section
namespace Sys2Proof.Laws

open Sys2Proof Sys2Proof.Machine

/-! The special registers. -/

section
variable {α : Type} {g : List Host.Cell × Package → α}

theorem leaves_tsr {d : Reg} {sr : BitVec 12} : Leaves g (.tsr d sr) := by
  intro s
  refine Eq.subst (motive := Keeps g (g (frameOf s))) (show execTsr d sr s = exec (.tsr d sr) s from rfl) ?_
  simp only [execTsr]
  split
  · simp
  · refine keeps_issue fun u _ => ?_
    split_ifs <;> simp

theorem leaves_ewr {a : Reg} {eng : BitVec 3} {sr : BitVec 9} : Leaves g (.ewr a eng sr) := by
  intro s
  refine Eq.subst (motive := Keeps g (g (frameOf s))) (show execEwr a eng sr s = exec (.ewr a eng sr) s from rfl) ?_
  simp only [execEwr]
  split
  · simp
  · exact keeps_issue fun u _ => by simp

end

theorem memory_readEffect (s : State) (k n : Nat) : (frameOf (readEffect s k n)).1 = (frameOf s).1 := by
  simp only [readEffect]
  split_ifs <;> rfl

theorem frameOf_readEffect {n : Nat} (hn : within 0x320 0x340 n = false) (s : State) (k : Nat) :
    frameOf (readEffect s k n) = frameOf s := by
  simp only [readEffect, hn, Bool.false_eq_true, if_false]
  split_ifs <;> rfl

theorem sysr_leaves_memory {d : Reg} {sr : BitVec 12} : Leaves Prod.fst (.sysr d sr) := by
  intro s
  refine Eq.subst (motive := Keeps Prod.fst (frameOf s).1) (show execSysr d sr s = exec (.sysr d sr) s from rfl) ?_
  simp only [execSysr]
  split
  · simp
  · exact keeps_issue fun u _ => keeps_finishWrite (memory_readEffect u _ _)

/-- The user view reaches no host doorbell (R489). -/
theorem not_hdb_of_user {t : Thread} {core n : Nat} {write : Bool} (hv : t.view = .user)
    (h : regCause t core n write = none) : within 0x320 0x340 n = false := by
  by_contra hw
  simp only [regCause] at h
  split at h
  · cases h
  · rw [if_pos (by rw [hv, hdbForeign, Bool.eq_true_of_not_eq_false hw]; rfl)] at h
    cases h

/-- A row that the user view may not write is not the one looked for. -/
theorem row_below {c : Prop} [Decidable c] {r row : RegAccess} {rest : Option RegAccess}
    (h : (if c then some row else rest) = some r) (hu : r.uwrite = true) (hrow : row.uwrite = false) : rest = some r := by
  split at h
  · cases h
    rw [hrow] at hu
    cases hu
  · exact h

theorem regLow_user {n : Nat} {r : RegAccess} (h : regLow n = some r) (hu : r.uwrite = true) : n = 0x030 ∨ n = 0x031 := by
  rw [regLow] at h
  iterate 5 replace h := row_below h hu rfl
  by_cases hn : n = 0x030 ∨ n = 0x031
  · exact hn
  · rw [if_neg hn] at h
    replace h := row_below h hu rfl
    by_cases hx : n = 0x04A
    · rw [if_pos hx] at h
      cases h
    · rw [if_neg hx] at h
      iterate 9 replace h := row_below h hu rfl
      cases h

theorem regHigh_user {n : Nat} {r : RegAccess} (h : regHigh n = some r) : r.uwrite = false := by
  by_contra hu
  replace hu := Bool.eq_true_of_not_eq_false hu
  rw [regHigh] at h
  iterate 7 replace h := row_below h hu rfl
  split at h
  · dsimp only at h
    split at h
    · cases h
    · cases h
      cases hu
  · replace h := row_below h hu rfl
    cases h

/-- The user view writes UVEC and UIE alone (R185). -/
theorem userWrites {t : Thread} {core n : Nat} (hv : t.view = .user) (h : regCause t core n true = none) :
    n = 0x030 ∨ n = 0x031 := by
  simp only [regCause] at h
  split at h
  · cases h
  · next r hr =>
    have hu : r.uwrite = true := by
      rw [hv] at h
      split_ifs at h with h1 h2 h3 h4
      simpa using h4
    rw [regAccess] at hr
    split at hr
    · exact regLow_user hr hu
    · rw [regHigh_user hr] at hu
      cases hu

/-- UVEC and UIE are the thread's own. -/
theorem sysWrite_user {s u : State} {k n : Nat} {v : Word} (hn : n = 0x030 ∨ n = 0x031) (h : sysWrite s k n v = .ok u) :
    frameOf u = frameOf s := by
  rcases hn with rfl | rfl
  all_goals
    cases h
    rfl

end Sys2Proof.Laws
end

section
namespace Sys2Proof.Laws

open Sys2Proof Sys2Proof.Machine

/-! The instructions that may write memory as they issue leave the package. -/

section
variable {d a b : Reg} {lk : BitVec 4}

theorem copyOp_leaves_package {i : Instr} {cmd : Nat} (he : ∀ s, exec i s = copyOp i cmd a b s) : Leaves Prod.snd i := by
  intro s
  rw [he]
  exact keeps_issue fun _ _ => keeps_finishCommand rfl fun _ ht => package_copyCommand ht

theorem cpcan_leaves_package : Leaves Prod.snd (.cpcan a b) := fun _ => keeps_issue fun _ _ =>
  keeps_finishCommand rfl fun _ ht => package_copyCancel ht

theorem promise_leaves_package : Leaves Prod.snd (.promise d a lk) := fun s => keeps_issue fun u _ => by
  dsimp only
  split
  · simp
  · refine keeps_withWord rfl fun p => ?_
    split
    · exact keeps_finishRefused rfl
    · split
      · simp
      · next t ht => exact keeps_finishLong (by rw [package_createPromise, package_settleOver ht])

theorem fulfil_leaves_package : Leaves Prod.snd (.fulfil d a b) := fun s => keeps_issue fun u _ => by
  dsimp only
  split
  · simp
  · refine keeps_withWord rfl fun p => keeps_afterAccesses rfl ?_
    split
    · split
      · simp
      · next t e ht => exact keeps_finish (by rw [frameOf_postRefusal, frameOf_refusedNow ht])
    · exact keeps_finishWrite (package_fulfilStep _ _ _ _ _)

end

/-! What reads its operands behind the thread's own stores (R149). -/

/-- Settling leaves g of the memory and the package, wherever an instruction of s tries it. -/
def SettlesKeep {α : Type} (g : List Host.Cell × Package → α) (s : State) : Prop :=
  ∀ u, TriedIn s u → ∀ cell n t, settleHere u u.cur cell n = some t → g (frameOf t) = g (frameOf u)

theorem settlesKeep_package (s : State) : SettlesKeep Prod.snd s := fun _ _ _ _ _ h => package_settleHere h

theorem settlesKeep_of_noneOwn {α : Type} {g : List Host.Cell × Package → α} {s : State} (h : NoneOwn s s.cur) :
    SettlesKeep g s := by
  intro u hu cell n t ht
  rw [frameOf_settleHere (hu.noneOwn h) ht]

section
variable {α : Type} {g : List Host.Cell × Package → α} {s : State} {d a b : Reg}

theorem keeps_ite {c : Prop} [Decidable c] {x : α} {o o' : Out} (h : Keeps g x o) (h' : Keeps g x o') :
    Keeps g x (if c then o else o') := by
  split
  · exact h
  · exact h'

theorem keeps_qput (hs : SettlesKeep g s) : Keeps g (g (frameOf s)) (exec (.qput d a b) s) := keeps_issue fun u hu => by
  extract_lets k x y q
  refine keeps_ite (keeps_operandTrap rfl) ?_
  split
  · exact keeps_forfeit rfl
  · next t ht =>
    have ht' := hs u hu _ _ t ht
    exact keeps_ite (keeps_finishWrite ht') (keeps_ite (keeps_finishWrite (by rw [frameOf_setCore, ht'])) (keeps_finishWrite ht'))

theorem keeps_send (hs : SettlesKeep g s) : Keeps g (g (frameOf s)) (exec (.send a b) s) := keeps_issue fun u hu => by
  extract_lets k x y
  refine keeps_ite (keeps_operandTrap rfl) ?_
  split
  · exact keeps_operandTrap rfl
  · refine keeps_ite (keeps_operandTrap rfl) (keeps_ite (keeps_forfeit rfl) (keeps_ite (keeps_sendSystem rfl) ?_))
    split
    · exact keeps_forfeit rfl
    · next t ht => exact keeps_finish (by rw [frameOf_later, hs u hu _ _ t ht])

theorem keeps_cpstat (hs : SettlesKeep g s) : Keeps g (g (frameOf s)) (exec (.cpstat d a) s) := keeps_issue fun u hu =>
  keeps_withObject rfl fun cell => by
    split
    · exact keeps_forfeit rfl
    · next t ht => exact keeps_finishWrite (hs u hu _ _ t ht)

end

theorem sysr_leaves_package {d : Reg} {sr : BitVec 12} {s : State} (hv : (s.thr s.cur).view = .user) :
    Keeps Prod.snd (frameOf s).2 (exec (.sysr d sr) s) := by
  refine Eq.subst (motive := Keeps Prod.snd (frameOf s).2) (show execSysr d sr s = exec (.sysr d sr) s from rfl) ?_
  simp only [execSysr]
  split
  · simp
  · next hc =>
    exact keeps_issue fun u _ => keeps_finishWrite (by rw [frameOf_readEffect (not_hdb_of_user hv hc)])

theorem sysw_leaves_package {a : Reg} {sr : BitVec 12} {s : State} (hv : (s.thr s.cur).view = .user) :
    Keeps Prod.snd (frameOf s).2 (exec (.sysw a sr) s) := by
  refine Eq.subst (motive := Keeps Prod.snd (frameOf s).2) (show execSysw a sr s = exec (.sysw a sr) s from rfl) ?_
  simp only [execSysw]
  split
  · simp
  · next hc =>
    refine keeps_issue fun u _ => ?_
    split
    · next t ht => exact keeps_finish (by rw [sysWrite_user (userWrites hv hc) ht])
    · simp
    · simp

/-- The copy commands have major 0x60 and engine 1 (R47). -/
theorem coded_copy {i : Instr} (h : writesAtIssue i = true) (hc : ¬ (opOf (encode i) = 0x60#7 ∧ engOf (encode i) = 1#3)) :
    (∃ d a lk, i = .promise d a lk) ∨ (∃ d a b, i = .fulfil d a b) ∨ (∃ d a b, i = .qput d a b) ∨ (∃ a b, i = .send a b) ∨
      ∃ d a, i = .cpstat d a := by
  cases i with
  | promise d a lk => exact .inl ⟨d, a, lk, rfl⟩
  | fulfil d a b => exact .inr (.inl ⟨d, a, b, rfl⟩)
  | qput d a b => exact .inr (.inr (.inl ⟨d, a, b, rfl⟩))
  | send a b => exact .inr (.inr (.inr (.inl ⟨a, b, rfl⟩)))
  | cpstat d a => exact .inr (.inr (.inr (.inr ⟨d, a, rfl⟩)))
  | cpbox | cpmc | cpcan | cpredAddF32 | cpredAddBf16 | cpredMaxF32 | cpredMaxBf16 | cpredMinF32 | cpredMinBf16 =>
    exact absurd ⟨opOf_wordC _ _ _ _, engOf_wordC _ _ _ _⟩ hc
  | _ => exact absurd h.symm Bool.noConfusion

theorem memoryAtIssue : Stated.MemoryAtIssue := by
  intro i s t hw hcopy hpromise hfulfil hsysw htsr hsettles ht
  suffices h : Keeps Prod.fst (frameOf s).1 (exec i s) from h t ht
  have hown : (∃ d a b, i = .qput d a b) ∨ (∃ a b, i = .send a b) ∨ (∃ d a, i = .cpstat d a) → NoneOwn s s.cur := by
    rcases hsettles with ⟨hq, hs, hc⟩ | hnone
    · rintro (⟨d, a, b, e⟩ | ⟨a, b, e⟩ | ⟨d, a, e⟩)
      · exact absurd e (hq d a b)
      · exact absurd e (hs a b)
      · exact absurd e (hc d a)
    · exact fun _ => hnone
  by_cases hwrites : writesAtIssue i = true
  · obtain ⟨d, a, lk, e⟩ | ⟨d, a, b, e⟩ | hi := coded_copy hwrites hcopy
    · exact absurd e (hpromise d a lk)
    · exact absurd e (hfulfil d a b)
    · have hkeep : SettlesKeep Prod.fst s := settlesKeep_of_noneOwn (hown hi)
      obtain ⟨d, a, b, rfl⟩ | ⟨a, b, rfl⟩ | ⟨d, a, rfl⟩ := hi
      · exact keeps_qput hkeep
      · exact keeps_send hkeep
      · exact keeps_cpstat hkeep
  · by_cases hc : checksFirst i = true
    · cases i with
      | sysr d sr => exact sysr_leaves_memory s
      | sysw a sr => exact absurd rfl (hsysw a sr)
      | tsr d sr => exact absurd rfl (htsr d sr)
      | ewr a eng sr => exact leaves_ewr s
      | _ => exact absurd hc Bool.false_ne_true
    · exact leaves_of_writesNeither (by simp [writesNeither, hw, hc, hwrites]) s

/-- In the user view an instruction leaves the package. -/
theorem user_leaves_package {i : Instr} {s : State} (hw : isWord i = true) (hv : (s.thr s.cur).view = .user) :
    Keeps Prod.snd (frameOf s).2 (exec i s) := by
  cases hn : writesNeither i with
  | true => exact leaves_of_writesNeither hn s
  | false =>
    have h : (isWord i && !writesNeither i) = true := by rw [hw, hn]; rfl
    cases i with
    | cpbox | cpmc | cpredAddF32 | cpredAddBf16 | cpredMaxF32 | cpredMaxBf16 | cpredMinF32 | cpredMinBf16 =>
      exact copyOp_leaves_package (fun _ => rfl) s
    | cpcan => exact cpcan_leaves_package s
    | promise => exact promise_leaves_package s
    | fulfil => exact fulfil_leaves_package s
    | qput => exact keeps_qput (settlesKeep_package s)
    | send => exact keeps_send (settlesKeep_package s)
    | cpstat => exact keeps_cpstat (settlesKeep_package s)
    | sysr => exact sysr_leaves_package hv
    | sysw => exact sysw_leaves_package hv
    | tsr => exact leaves_tsr s
    | ewr => exact leaves_ewr s
    | _ => exact absurd h Bool.false_ne_true

theorem userViewLeavesPackage : Stated.UserViewLeavesPackage := by
  intro i s t hw hv ht
  have h : packageOf t = packageOf s := user_leaves_package hw hv t ht
  simpa only [packageOf, Package.mk.injEq] using h

end Sys2Proof.Laws
end

section
namespace Sys2Proof.Laws

open Sys2Proof Sys2Proof.Machine

/-! The frame of an instruction that completes with a value (R35 to R37). -/

/-- Of the writing thread a write changes p and q alone. -/
theorem putReg_own (close : Bool) (s : State) (k : Nat) (r : Reg) (v : Word) :
    ∃ p q, (putReg close s k r v).thr k = { s.thr k with p := p, q := q } := by
  by_cases hs : 16 ≤ r.toNat
  · exact ⟨_, _, putReg_s_thr close s k r v hs⟩
  · by_cases hp : r.toNat < 10
    · exact ⟨_, (s.thr k).q, by rw [putReg_p close s k r v hp, thr_setThr_same]⟩
    · by_cases hq : r.toNat = 11
      · obtain rfl : r = 11#5 := BitVec.eq_of_toNat_eq hq
        exact ⟨(s.thr k).p, _, by rw [putReg_q, thr_setThr_same]⟩
      · refine ⟨(s.thr k).p, (s.thr k).q, ?_⟩
        rw [putReg, if_neg hp, if_neg hq, if_neg hs]

/-- A write to a register of the thread leaves the other threads. -/
theorem putReg_thr_other (close : Bool) (s : State) {k j : Nat} (r : Reg) (v : Word) (hr : r.toNat < 16) (hj : j ≠ k) :
    (putReg close s k r v).thr j = s.thr j := by
  simp only [putReg, if_neg (Nat.not_le.mpr hr)]
  split_ifs
  · exact thr_setThr_other _ _ _ _ hj
  · exact thr_setThr_other _ _ _ _ hj
  · rfl

/-- Of the cores a write changes the bank of the thread's own alone. -/
theorem putReg_core (close : Bool) (s : State) (k : Nat) (r : Reg) (v : Word) :
    (∃ b l, (putReg close s k r v).core (coreOf k) = { s.core (coreOf k) with sbank := b, slast := l }) ∧
      ∀ c, c ≠ coreOf k → (putReg close s k r v).core c = s.core c := by
  by_cases hs : 16 ≤ r.toNat
  · refine ⟨?_, fun c hc => ?_⟩
    · rw [putReg_s_core close s k r v hs]
      exact written_touches _ _ _ _ _
    · rw [putReg_s close s k r v hs]
      obtain ⟨th, e⟩ := latchOthers_touches k [0, 1, 2, 3, 4, 5, 6, 7] (s.setCore (coreOf k)
        ((s.core (coreOf k)).written s.ck (r.toNat - 16) (writeRank k close) v))
      rw [e]
      exact core_setCore_other s (coreOf k) _ c hc
  · have h : ∀ c, (putReg close s k r v).core c = s.core c := by
      intro c
      simp only [putReg, if_neg hs]
      split_ifs <;> rfl
    exact ⟨⟨_, _, h _⟩, fun c _ => h c⟩

theorem restOf_putReg (close : Bool) (s : State) (k : Nat) (r : Reg) (v : Word) : 
    Machine.restOf (putReg close s k r v) = Machine.restOf s := by
  obtain ⟨th, co, e⟩ := putReg_touches close s k r v
  rw [e]
  rfl

/-- A register written reads the value, where the write remains, and zr reads 0 (R33, R35). -/
theorem readReg_putReg (close : Bool) (s : State) (k : Nat) (d : Reg) (v : Word) (hd : regOk d = true) :
    readReg (putReg close s k d v) k d = if d = 10#5 then 0#64 else if remains close s k d then v else readReg s k d := by
  split_ifs with hz hr
  · rw [hz, readReg_zr]
  · refine readReg_putReg_same close s k d v ?_ hr
    have hne : d.toNat ≠ 10 := fun e => hz (BitVec.eq_of_toNat_eq e)
    simp only [regOk, Bool.not_eq_true', Bool.and_eq_false_iff, decide_eq_false_iff_not] at hd
    omega
  · simp only [remains, Bool.not_eq_true, Bool.or_eq_false_iff, decide_eq_false_iff_not, Nat.not_lt, Bool.not_eq_false'] at hr
    obtain ⟨hs, hout⟩ := hr
    rw [readReg_s _ _ _ hs, readReg_s _ _ _ hs, putReg_s_core close s k d v hs, written_outranked _ _ _ _ _ hout]

/-- The state once thread k has completed an instruction, with no window open. -/
def completed (u : State) (k : Nat) : State := u.setThr k { u.thr k with
  pc := (u.thr k).pc + 4#64, windows := [], stay := false, mismatch := false, sleep := none }

theorem completed_thr (u : State) (k : Nat) : (completed u k).thr k = { u.thr k with
    pc := (u.thr k).pc + 4#64, windows := [], stay := false, mismatch := false, sleep := none } := thr_setThr_same _ _ _

theorem readReg_completed (u : State) (k : Nat) (r : Reg) : readReg (completed u k) k r = readReg u k r :=
  readReg_congr k r (by rw [completed_thr]) (by rw [completed_thr]) rfl

theorem wrote_completed {s : State} (d : Reg) (v : Word) (hw : (s.thr s.cur).windows = []) :
    wrote s d v = .next (completed (putReg false s s.cur d v) s.cur) := by
  obtain ⟨p, q, hown⟩ := putReg_own false s s.cur d v
  exact congrArg Host.Outcome.next (retireTo_plain _ s.cur _ (by rw [writeReg, hown, hw]))

theorem resultFrame : Stated.ResultFrame := by
  intro s d v hw hd
  obtain ⟨p, q, hown⟩ := putReg_own false s s.cur d v
  obtain ⟨⟨b, l, hcore⟩, hother⟩ := putReg_core false s s.cur d v
  refine ⟨_, wrote_completed d v hw, fun r _ hr => ?_, ?_, ?_, restOf_putReg false s s.cur d v, fun hlt k hk => ?_, hother, ?_, ?_⟩
  · rw [readReg_completed, readReg_putReg_other false s s.cur r d v hr]
  · rw [readReg_completed, readReg_putReg false s s.cur d v hd]
  · rw [completed_thr, hown]
  · rw [completed, thr_setThr_other _ _ _ _ hk, putReg_thr_other false s d v hlt hk]
  · rw [completed, core_setThr, hcore]
  · rw [completed_thr, hown]
    rfl

/-! The frame of a long-latency instruction (R36, R37, R495). -/

/-- An instruction completes with the one window that it opens, whose result is on its way: nothing closes. -/
theorem retireTo_opens (s : State) (k : Nat) (pc : Word) {w : Window} (h : (s.thr k).windows = [])
    (hw : ∀ r, w.arrival ≠ .ready r) : retireTo s k pc [w] = s.setThr k { s.thr k with
      pc := pc, windows := [w], stay := false, mismatch := false, sleep := none } := by
  have hclose : ∀ u, closeList u k [w] = (u, [w]) := by
    intro u
    simp only [closeList]
    split <;> rfl
  simp only [retireTo, h, countWindows, List.map_nil, List.nil_append, closeWindows, thr_setThr_same, hclose]
  simp

/-- The window of a long-latency instruction whose result is on its way. -/
def openedWindow (s : State) (i : Instr) (d : Reg) (lk : BitVec 4) (v : Word) : Window :=
  { id := s.nonce, dest := d, count := lk.toNat, event := false, holds := false, word := encode i
    pc := (s.thr s.cur).pc, a := 0#64, b := 0#64, mismatch := false, retry := false, arrival := .later (.one v) }

theorem longFrame : Stated.LongFrame := by
  intro s i d lk v hw
  refine ⟨_, openedWindow s i d lk v, congrArg Host.Outcome.next (retireTo_opens _ s.cur _ hw fun _ => Arrival.noConfusion),
    fun r => ?_, fun k hk => ?_, fun _ => rfl, rfl, rfl, ?_, rfl, rfl, ?_, rfl⟩
  · exact readReg_congr s.cur r (by rw [thr_setThr_same]; rfl) (by rw [thr_setThr_same]; rfl) rfl
  · exact thr_setThr_other _ _ _ _ hk
  · rw [thr_setThr_same]
    rfl
  · rw [thr_setThr_same]
    rfl

/-- Settles O60: every effect leaves the memory and the package, instruction by instruction, but for those that the statement
names; and the frames of a result and of a window, from the rules of the registers and of the windows. -/
theorem frames : Obligations.Frames := ⟨memoryAtIssue, userViewLeavesPackage, resultFrame, longFrame⟩

end Sys2Proof.Laws
end

section
/-! PROOFS. The instructions of the vector unit, and ewr, at issue (R195, R199, R200, R208, R213, R216, R217). -/

namespace Sys2Proof.Laws

open Sys2Proof Sys2Proof.Machine

/-! A vector command (R199, R200). -/

theorem codedC_of_encode {i : Instr} {a b : Reg} {eng : BitVec 3} {cmd : BitVec 8} (he : encode i = wordC a b eng cmd)
    (hr : RoundTrip.Statement i) (hw : isWord i = true) : codedC i eng cmd.toNat :=
  ⟨he ▸ opOf_wordC .., he ▸ engOf_wordC .., congrArg BitVec.toNat (he ▸ cmdOf_wordC ..), he ▸ lkOf_wordC .., hr hw⟩

theorem tagOk_iff_tagFits (x : Word) : tagOk x = true ↔ tagFits x := tagOk_iff x

/-- The place of an operand block, by the fields of its pointer and by its address. -/
theorem block_misplaced_iff (x : Word) :
    (bitsAt x 22 30 ≠ 0 ∨ bitsAt x 20 2 ≠ 1 ∨ bitsAt x 0 20 % 32 ≠ 0 ∨ 2 ^ 19 < bitsAt x 0 20 + 96) ↔ ¬ blockFits x := by
  simp only [bitsAt, blockFits]
  omega

theorem blockTrap_badTag {x : Word} (h : ¬ tagFits x) : blockTrap x = some x := by
  rw [← tagOk_iff_tagFits] at h
  simp only [blockTrap, h, Bool.not_false, if_true]

theorem blockTrap_misplaced {x : Word} (ht : tagFits x) (hb : ¬ blockFits x) :
    blockTrap x = some (BitVec.ofNat 64 (x.toNat % 2 ^ 52)) := by
  rw [← tagOk_iff_tagFits] at ht
  rw [← block_misplaced_iff] at hb
  simp only [blockTrap, ht, Bool.not_true, Bool.false_eq_true, if_false, if_pos hb]
  rw [addrOf, bitsAt_zero]

theorem blockTrap_fits {x : Word} (ht : tagFits x) (hb : blockFits x) : blockTrap x = none := by
  rw [← tagOk_iff_tagFits] at ht
  have hplaced := (block_misplaced_iff x).not_left.mpr hb
  simp only [blockTrap, ht, Bool.not_true, Bool.false_eq_true, if_false, if_neg hplaced]

section
variable {s : State} {cmd : Nat} {x y : Word} {n : BitVec 32} {wid : Option Nat}

/-- A command of the thread whose opportunity it is, with the fork and the seed that it takes at issue. -/
def ownCommand (s : State) (cmd : Nat) (x y : Word) (n : BitVec 32) (wid : Option Nat) : CmdResult :=
  vectorCommand s s.cur cmd x y n wid (forkOf s s.cur) (s.core (coreOf s.cur)).rseed

theorem ownCommand_trap {v : Word} (h : blockTrap x = some v) : ownCommand s cmd x y n wid = .trap kindADDRESS 0 v := by
  simp only [ownCommand, vectorCommand, h]

theorem ownCommand_full (h : blockTrap x = none) (hq : ¬ admitted (s.core (coreOf s.cur)) 5 1) :
    ownCommand s cmd x y n wid = .wait := by
  rw [← admits_iff] at hq
  simp only [ownCommand, vectorCommand, h, hq, Bool.not_false, if_true]

theorem ownCommand_taken (h : blockTrap x = none) (hq : admitted (s.core (coreOf s.cur)) 5 1) :
    ownCommand s cmd x y n wid = .taken (vectorQueued s cmd x y n wid) := by
  rw [← admits_iff] at hq
  simp only [ownCommand, vectorCommand, h, hq, Bool.not_true, Bool.false_eq_true, if_false]
  simp only [vectorQueued, queuedVecOp, bitsAt_zero]
  rfl

/-- An instruction that ends with what f makes of its command is one of R199, where f traps and forfeits as R199 says. -/
theorem vectorIssues_of_command {i : Instr} {f : CmdResult → Out} {o : Out} (he : exec i s = f (ownCommand s cmd x y n wid))
    (htrap : ∀ v, f (.trap kindADDRESS 0 v) = trapped s kindADDRESS 0 v) (hwait : f .wait = .next s)
    (hgo : f (.taken (vectorQueued s cmd x y n wid)) = o) : vectorIssues s i x (exec i s = o) := by
  refine ⟨fun ht => ?_, fun ht hb => ?_, fun ht hb hq => ?_, fun ht hb hq => ?_⟩
  · rw [he, ownCommand_trap (blockTrap_badTag ht), htrap]
  · rw [he, ownCommand_trap (blockTrap_misplaced ht hb), htrap]
  · rw [he, ownCommand_full (blockTrap_fits ht hb) hq, hwait]
  · rw [he, ownCommand_taken (blockTrap_fits ht hb) hq, hgo]

end

/-! The rows of R208, and vcmpm (R213). -/

section
variable {s : State} {d a b : Reg}

theorem vop_issues {i : Instr} {cmd : Nat} (he : exec i s = vop i cmd a b s) (h : ready i s = true) :
    vectorIssues s i (readReg s s.cur a)
      (exec i s = passed ((vectorQueued s cmd (readReg s s.cur a) (readReg s s.cur b) (s.thr s.cur).seq none).setThr s.cur
        { s.thr s.cur with seq := (s.thr s.cur).seq + 1#32 })) := by
  have hx : exec i s = finishCounted s (ownCommand s cmd (readReg s s.cur a) (readReg s s.cur b) (s.thr s.cur).seq none) :=
    exec_of_issue he rfl h
  exact vectorIssues_of_command hx (fun _ => rfl) rfl rfl

/-- A row of R208: its word, and what its issue comes to. -/
theorem vectorRow {i : Instr} {c : BitVec 8} {cmd : Nat} (he : encode i = wordC a b 0#3 c) (hc : c.toNat = cmd)
    (hr : RoundTrip.Statement i) (hw : isWord i = true) (hx : exec i s = vop i cmd a b s) :
    codedC i 0#3 cmd ∧ (ready i s = true → vectorIssues s i (readReg s s.cur a)
      (exec i s = passed ((vectorQueued s cmd (readReg s s.cur a) (readReg s s.cur b) (s.thr s.cur).seq none).setThr s.cur
        { s.thr s.cur with seq := (s.thr s.cur).seq + 1#32 }))) :=
  ⟨hc ▸ codedC_of_encode he hr hw, vop_issues hx⟩

/-- A vcmpm that has entered the queue opens a window for its mask; one that has not ends as any command (R213). -/
def finishMask (s : State) (d a b : Reg) (lk : BitVec 4) : CmdResult → Out
  | .taken u => .next (retireTo u s.cur ((s.thr s.cur).pc + 4#64) [accessWindow s (.vcmpm d a b lk) d lk false])
  | r => finishCommand s r

theorem vcmpm_issues {lk : BitVec 4} (h : ready (.vcmpm d a b lk) s = true) :
    vectorIssues s (.vcmpm d a b lk) (readReg s s.cur a)
      (exec (.vcmpm d a b lk) s = .next (retireTo
        (vectorQueued s 0x100 (readReg s s.cur a) (readReg s s.cur b) 0#32 (some s.nonce)) s.cur ((s.thr s.cur).pc + 4#64)
        [accessWindow s (.vcmpm d a b lk) d lk false])) := by
  have hx : exec (.vcmpm d a b lk) s = finishMask s d a b lk
      (ownCommand s cmdVcmpm (readReg s s.cur a) (readReg s s.cur b) 0#32 (some s.nonce)) := exec_of_issue rfl rfl h
  exact vectorIssues_of_command hx (fun _ => rfl) rfl rfl

end

/-! The busy count, vbusy and vfence (R216, R217). -/

theorem busyCount_eq_stillBusy (s : State) : busyCount s s.cur = stillBusy s := by
  simp only [busyCount, stillBusy, List.any_eq_true, beq_iff_eq]

theorem exec_vbusy {s : State} {d a : Reg} (h : ready (.vbusy d a) s = true) : exec (.vbusy d a) s =
    if (readReg s s.cur a).getLsbD 0 = false then wrote s d (BitVec.ofNat 64 (stillBusy s))
    else if stillBusy s = 0 then wrote (s.setThr s.cur { s.thr s.cur with vstatus := 0#64 }) d (s.thr s.cur).vstatus
    else wrote s d (s.thr s.cur).vstatus := by
  refine exec_of_issue rfl ?_ h
  simp only [busyCount_eq_stillBusy, Bool.not_eq_true']
  split_ifs
  · rfl
  · rfl
  · rfl

/-- Where the windows that are due have closed, no further one is. -/
theorem closeList_closed (t : State) (k : Nat) (ws : List Window) : ∀ s : State,
    closeList t k (closeList s k ws).2 = (t, (closeList s k ws).2) := by
  induction ws with
  | nil => exact fun _ => rfl
  | cons w ws ih =>
    intro s
    by_cases hc : w.count = 0
    · cases ha : w.arrival with
      | ready r => simp only [closeList, hc, ha, if_true, ih]
      | _ => simp only [closeList, hc, ha, if_true]
    · simp only [closeList, hc, if_false, ih]

/-- The windows of a thread that has issued are closed as far as they are due. -/
theorem closeList_retired (u s : State) (k : Nat) :
    closeList u k ((retire s k).thr k).windows = (u, ((retire s k).thr k).windows) := by
  simp only [retire, retireTo, closeWindows, thr_setThr_same]
  exact closeList_closed u k _ _

theorem cur_retire (s : State) (k : Nat) : (retire s k).cur = s.cur := by
  obtain ⟨th, co, di, wk, h⟩ := retire_touches s k
  rw [h]

/-- A vfence lasts while its thread is busy. -/
theorem settleHold_vfence {u : State} {k : Nat} (hh : (u.thr k).hold = .vfence)
    (hw : closeList u k (u.thr k).windows = (u, (u.thr k).windows)) (hb : 0 < busyCount u k) :
    ((settleHold u k).thr k).hold = .vfence := by
  have hclosed : closeWindows u k = u.setThr k (u.thr k) := by rw [closeWindows, hw]
  have hbusy : (busyCount (u.setThr k (u.thr k)) k == 0) = false := beq_false_of_ne hb.ne'
  simp only [settleHold, hclosed, thr_setThr_same, hh, hbusy, Bool.false_eq_true, if_false]

/-- The thread that has issued a vfence and is busy issues nothing. -/
theorem vfence_lasts {s u : State}
    (hu : u = (retire s s.cur).setThr s.cur { (retire s s.cur).thr s.cur with hold := .vfence }) (hb : 0 < stillBusy u) :
    turnOf (settleHold u s.cur) s.cur ≠ .issue := by
  have hcur : u.cur = s.cur := hu ▸ cur_retire s s.cur
  have hhold : (u.thr s.cur).hold = .vfence := by rw [hu, thr_setThr_same]
  have hclosed : closeList u s.cur (u.thr s.cur).windows = (u, (u.thr s.cur).windows) := by
    have hw : (u.thr s.cur).windows = ((retire s s.cur).thr s.cur).windows := by rw [hu, thr_setThr_same]
    rw [hw, closeList_retired]
  rw [← busyCount_eq_stillBusy, hcur] at hb
  refine turnOf_ne_issue ?_
  rw [settleHold_vfence hhold hclosed hb]
  exact Hold.noConfusion

/-! ewr (R195). -/

theorem writeEngine_eq_bankWritten (s : State) {eng : BitVec 3} (n : Nat) (v : Word) (h : eng ∈ [1#3, 2#3, 4#3]) :
    writeEngine s s.cur eng n v = s.setThr s.cur (bankWritten (s.thr s.cur) eng n v) := by
  simp only [List.mem_cons, List.not_mem_nil, or_false] at h
  obtain rfl | rfl | rfl := h
  · rfl
  · rfl
  · rfl

theorem exec_ewr {s : State} {a : Reg} {eng : BitVec 3} {sr : BitVec 9} (he : eng ∈ [1#3, 2#3, 4#3])
    (hc : coreOf s.cur < 1024) (h : ready (.ewr a eng sr) s = true) :
    exec (.ewr a eng sr) s = passed (s.setThr s.cur (bankWritten (s.thr s.cur) eng sr.toNat (readReg s s.cur a))) := by
  have hcompute : ¬ isSystem (coreOf s.cur) = true := by rw [isSystem_iff]; omega
  have hissue : exec (.ewr a eng sr) s = issue (.ewr a eng sr) s fun s =>
      finish (writeEngine s s.cur eng sr.toNat (readReg s s.cur a)) := if_neg hcompute
  refine exec_of_issue hissue ?_ h
  rw [writeEngine_eq_bankWritten s _ _ he]
  rfl

/-- Settles O15: each command's block pointer is checked before the queue's room, row by row of R208 and for vcmpm; a thread
that has issued a vfence has no window left to close, and so its busy count alone ends the wait. -/
theorem vectorIssue : Obligations.VectorIssue := by
  intro s d a b lk eng sr
  refine ⟨?rows, codedL_of_encode rfl (RoundTrip.vcmpm d a b lk) rfl, vcmpm_issues,
    codedR_of_encode rfl (RoundTrip.vbusy d a) rfl, exec_vbusy, codedC_of_encode rfl RoundTrip.vfence rfl,
    fun h => ⟨_, exec_hold rfl h, rfl, vfence_lasts rfl⟩,
    exec_ewr⟩
  simp only [vectorRows, List.forall_mem_cons, List.not_mem_nil, false_imp_iff, implies_true, and_true]
  exact ⟨vectorRow rfl rfl (RoundTrip.vadd a b) rfl rfl, vectorRow rfl rfl (RoundTrip.vsub a b) rfl rfl,
    vectorRow rfl rfl (RoundTrip.vmul a b) rfl rfl, vectorRow rfl rfl (RoundTrip.vdiv a b) rfl rfl,
    vectorRow rfl rfl (RoundTrip.vmin a b) rfl rfl, vectorRow rfl rfl (RoundTrip.vmax a b) rfl rfl,
    vectorRow rfl rfl (RoundTrip.vfma a b) rfl rfl, vectorRow rfl rfl (RoundTrip.vabs a b) rfl rfl,
    vectorRow rfl rfl (RoundTrip.vneg a b) rfl rfl, vectorRow rfl rfl (RoundTrip.vsqrt a b) rfl rfl,
    vectorRow rfl rfl (RoundTrip.vcvt a b) rfl rfl, vectorRow rfl rfl (RoundTrip.vand a b) rfl rfl,
    vectorRow rfl rfl (RoundTrip.vor a b) rfl rfl, vectorRow rfl rfl (RoundTrip.vxor a b) rfl rfl,
    vectorRow rfl rfl (RoundTrip.vshl a b) rfl rfl, vectorRow rfl rfl (RoundTrip.vshr a b) rfl rfl,
    vectorRow rfl rfl (RoundTrip.vsum a b) rfl rfl, vectorRow rfl rfl (RoundTrip.vrmax a b) rfl rfl,
    vectorRow rfl rfl (RoundTrip.vrmin a b) rfl rfl, vectorRow rfl rfl (RoundTrip.vsumsq a b) rfl rfl,
    vectorRow rfl rfl (RoundTrip.vexp a b) rfl rfl, vectorRow rfl rfl (RoundTrip.vlog a b) rfl rfl,
    vectorRow rfl rfl (RoundTrip.vrcp a b) rfl rfl, vectorRow rfl rfl (RoundTrip.vrsqrt a b) rfl rfl,
    vectorRow rfl rfl (RoundTrip.vtanh a b) rfl rfl, vectorRow rfl rfl (RoundTrip.vsilu a b) rfl rfl,
    vectorRow rfl rfl (RoundTrip.vgelu a b) rfl rfl⟩

end Sys2Proof.Laws
end

section
/-! PROOFS. The instructions of the copy engine at issue (R229, R237, R238). -/

namespace Sys2Proof.Laws

open Sys2Proof Sys2Proof.Machine

/-! The pointer of a completion object (R229, R237). -/

/-- The place of a completion object, by the fields of its pointer and by its address. -/
theorem object_misplaced_iff (x : Word) :
    (bitsAt x 22 30 ≠ 0 ∨ bitsAt x 20 2 ≠ 1 ∨ bitsAt x 0 3 ≠ 0 ∨ 2 ^ 19 < bitsAt x 0 20 + 8) ↔ ¬ objectFits x := by
  simp only [bitsAt, objectFits]
  omega

theorem objectTrap_badTag {x : Word} (h : ¬ tagFits x) : objectTrap x = some x := by
  rw [← tagOk_iff_tagFits] at h
  simp only [objectTrap, h, Bool.not_false, if_true]

theorem objectTrap_misplaced {x : Word} (ht : tagFits x) (ho : ¬ objectFits x) :
    objectTrap x = some (BitVec.ofNat 64 (x.toNat % 2 ^ 52)) := by
  rw [← tagOk_iff_tagFits] at ht
  rw [← object_misplaced_iff] at ho
  simp only [objectTrap, ht, Bool.not_true, Bool.false_eq_true, if_false, if_pos ho]
  rw [addrOf, bitsAt_zero]

theorem objectTrap_fits {x : Word} (ht : tagFits x) (ho : objectFits x) : objectTrap x = none := by
  rw [← tagOk_iff_tagFits] at ht
  have hplaced := (object_misplaced_iff x).not_left.mpr ho
  simp only [objectTrap, ht, Bool.not_true, Bool.false_eq_true, if_false, if_neg hplaced]

/-- An object operand that is in order, or none: a null pointer names no object (R229). -/
theorem optionalObjectTrap_eq_none {x : Word} (h : x = 0#64 ∨ (tagFits x ∧ objectFits x)) :
    (if x = 0#64 then none else objectTrap x) = none := by
  obtain rfl | ⟨ht, ho⟩ := h
  · exact if_pos rfl
  · rw [objectTrap_fits ht ho, ite_self]

theorem objectCell_eq (s : State) (x : Word) : objectCell s.cur x = objectAt s x := by
  rw [objectCell, objectAt, bitsAt_zero]

/-- What R229 makes of an object operand that is out of order. -/
def objectFaults (s : State) (i : Instr) (x : Word) : Prop :=
  (¬ tagFits x → exec i s = trapped s kindADDRESS 0 x) ∧
  (tagFits x → ¬ objectFits x → exec i s = trapped s kindADDRESS 0 (BitVec.ofNat 64 (x.toNat % 2 ^ 52)))

theorem objectFaults_of_trap {s : State} {i : Instr} {x : Word}
    (h : ∀ v, objectTrap x = some v → exec i s = trapped s kindADDRESS 0 v) : objectFaults s i x :=
  ⟨fun ht => h _ (objectTrap_badTag ht), fun ht ho => h _ (objectTrap_misplaced ht ho)⟩

/-! The copy commands (R229, R231 to R233). -/

/-- The copy queue takes one more command (R229, R364). -/
def copyRoom (s : State) : Prop :=
  (s.core (coreOf s.cur)).copies.length < 512 ∧ admitted (s.core (coreOf s.cur)) 6 3

section
variable {s : State} {cmd : Nat} {x y : Word} {fork : List Nat}

theorem copyRoom_iff :
    (decide (512 ≤ (s.core (coreOf s.cur)).copies.length) || !admits (s.core (coreOf s.cur)) 6 3) = false ↔ copyRoom s := by
  simp only [copyRoom, ← admits_iff, Bool.or_eq_false_iff, decide_eq_false_iff_not, Nat.not_le, Bool.not_eq_false']

theorem copyCommand_trap {v : Word} (hx : x ≠ 0#64) (h : objectTrap x = some v) :
    copyCommand s s.cur cmd x y fork = .trap kindADDRESS 0 v := by
  simp only [copyCommand, if_neg hx, h]

theorem copyCommand_full (h : x = 0#64 ∨ (tagFits x ∧ objectFits x)) (hq : ¬ copyRoom s) :
    copyCommand s s.cur cmd x y fork = .wait := by
  rw [← copyRoom_iff, Bool.not_eq_false] at hq
  simp only [copyCommand, optionalObjectTrap_eq_none h, hq, if_true]

theorem copyCommand_null (hq : copyRoom s) :
    copyCommand s s.cur cmd 0#64 y fork = .taken (copyQueued s s.cur fork cmd 0#64 y) := by
  rw [← copyRoom_iff] at hq
  simp only [copyCommand, hq, Bool.false_eq_true, if_true, if_false]
  rfl

/-- With an object the command is taken where the object is reached, and behind what that performs. -/
theorem copyCommand_object (hx : x ≠ 0#64) (ht : tagFits x) (ho : objectFits x) (hq : copyRoom s) :
    copyCommand s s.cur cmd x y fork =
      (objectReached s x).elim .wait fun u => .taken (copyQueued u s.cur fork cmd x y) := by
  rw [← copyRoom_iff] at hq
  simp only [copyCommand, if_neg hx, objectTrap_fits ht ho, hq, Bool.false_eq_true, if_false, objectCell_eq]
  cases hu : objectReached s x with
  | none => rw [show settleHere s s.cur (objectAt s x) 8 = none from hu]; rfl
  | some u =>
    rw [show settleHere s s.cur (objectAt s x) 8 = some u from hu]
    simp only [Option.elim_some, copyQueued, if_neg hx]
    rfl

/-- What R229 makes of a copy command whose operands are x and y: a trap, no issue, or an operation in the queue. -/
def copyIssues (s : State) (i : Instr) (cmd : Nat) (x y : Word) : Prop :=
  let fork := (s.thr s.cur).outst.map Outstanding.aid
  (x ≠ 0#64 → objectFaults s i x) ∧
  (x = 0#64 ∨ (tagFits x ∧ objectFits x) →
    (¬ copyRoom s → exec i s = .next s) ∧
    (copyRoom s → x = 0#64 → exec i s = passed (copyQueued s s.cur fork cmd x y)) ∧
    (copyRoom s → x ≠ 0#64 → hereSettles s (objectAt s x) 8 ∧ (objectReached s x = none → exec i s = .next s) ∧
      ∀ u, objectReached s x = some u → exec i s = passed (copyQueued u s.cur fork cmd x y)))

theorem copyIssues_of_command {i : Instr}
    (he : exec i s = finishCommand s (copyCommand s s.cur cmd x y (forkOf s s.cur))) : copyIssues s i cmd x y := by
  refine ⟨fun hx => objectFaults_of_trap fun v hv => ?_, fun h => ⟨fun hq => ?_, fun hq hx => ?_, fun hq hx => ?_⟩⟩
  · rw [he, copyCommand_trap hx hv]
    rfl
  · rw [he, copyCommand_full h hq]
    rfl
  · subst hx
    rw [he, copyCommand_null hq]
    rfl
  · obtain ⟨ht, ho⟩ := h.resolve_left hx
    rw [copyCommand_object hx ht ho hq] at he
    refine ⟨hereSettles_holds .., fun hn => ?_, fun u hu => ?_⟩
    · rw [he, hn]
      rfl
    · rw [he, hu]
      rfl

end

/-- A copy command: its word, and what its issue comes to. -/
theorem copyRow {s : State} {a b : Reg} {i : Instr} {c : BitVec 8} {cmd : Nat} (he : encode i = wordC a b 1#3 c)
    (hc : c.toNat = cmd) (hr : RoundTrip.Statement i) (hw : isWord i = true) (hx : exec i s = copyOp i cmd a b s) :
    codedC i 1#3 cmd ∧ (ready i s = true → copyIssues s i cmd (readReg s s.cur a) (readReg s s.cur b)) :=
  ⟨hc ▸ codedC_of_encode he hr hw, fun h => copyIssues_of_command (exec_of_issue hx rfl h)⟩

/-! cpcan (R238). -/

theorem cancelCopies_eq_foldl (core : Nat) (l : List CopyOp) : ∀ s,
    cancelCopies core s l = (l.filter fun o => !o.done).foldl (cancelOne core) s := by
  induction l with
  | nil => exact fun s => rfl
  | cons o l ih =>
    intro s
    rw [cancelCopies]
    by_cases hd : o.done = true
    · rw [if_pos hd, ih, List.filter_cons_of_neg (by simp [hd])]
    · rw [if_neg hd, List.filter_cons_of_pos (by simp [hd]), List.foldl_cons, cancelOne]
      by_cases hr : o.refusal = none
      · rw [if_neg (by simp [hr]), if_pos hr, ih]
      · rw [if_pos (Option.isSome_iff_ne_none.mpr hr), if_neg hr, ih]

section
variable {s : State} {x y : Word}

theorem copyCancel_badFlags (hy : 2 ≤ y.toNat) : copyCancel s s.cur x y = .trap kindADDRESS 0 y := by
  have hb : bitsAt y 1 63 ≠ 0 := by simp only [bitsAt]; omega
  exact if_pos hb

/-- The flag in bit 0 of b names all operations of the thread. -/
theorem copyCancel_all (hy : y.toNat = 1) :
    copyCancel s s.cur x y = .taken ((cancelled s x y).foldl (cancelOne (coreOf s.cur)) s) := by
  obtain rfl : y = 1#64 := BitVec.eq_of_toNat_eq hy
  have hall : (1#64).getLsbD 0 = true := rfl
  rw [copyCancel, if_neg (by decide), if_pos hall, cancelCopies_eq_foldl, List.filter_filter, cancelled]
  simp only [hall, Bool.true_or, Bool.true_and, beq_eq_decide, Bool.and_comm]

/-- Without it they are those with the object of a. -/
theorem copyCancel_object (hy : y.toNat = 0) (h : x = 0#64 ∨ (tagFits x ∧ objectFits x)) :
    copyCancel s s.cur x y = .taken ((cancelled s x y).foldl (cancelOne (coreOf s.cur)) s) := by
  obtain rfl : y = 0#64 := BitVec.eq_of_toNat_eq hy
  have hone : (0#64).getLsbD 0 = false := rfl
  rw [copyCancel, if_neg (by decide), if_neg (Bool.eq_false_iff.mp hone), optionalObjectTrap_eq_none h, cancelCopies_eq_foldl,
    List.filter_filter, List.filter_filter, cancelled]
  simp only [hone, Bool.false_or, beq_eq_decide, Bool.and_assoc, Bool.and_comm, Bool.and_left_comm]

theorem copyCancel_trap {v : Word} (hy : y.toNat = 0) (hx : x ≠ 0#64) (h : objectTrap x = some v) :
    copyCancel s s.cur x y = .trap kindADDRESS 0 v := by
  obtain rfl : y = 0#64 := BitVec.eq_of_toNat_eq hy
  rw [copyCancel, if_neg (by decide), if_neg (by decide), if_neg hx, h]

end

/-- What R238 makes of a cpcan whose operands are x and y. -/
theorem exec_cpcan {s : State} {a b : Reg} (h : ready (.cpcan a b) s = true) :
    let x := readReg s s.cur a
    let y := readReg s s.cur b
    (2 ≤ y.toNat → exec (.cpcan a b) s = trapped s kindADDRESS 0 y) ∧
    (y.toNat = 0 → x ≠ 0#64 → objectFaults s (.cpcan a b) x) ∧
    (y.toNat = 1 ∨ (y.toNat = 0 ∧ (x = 0#64 ∨ (tagFits x ∧ objectFits x))) →
      exec (.cpcan a b) s = passed ((cancelled s x y).foldl (cancelOne (coreOf s.cur)) s)) := by
  intro x y
  have he : exec (.cpcan a b) s = finishCommand s (copyCancel s s.cur x y) := exec_of_issue rfl rfl h
  refine ⟨fun hy => ?_, fun hy hx => objectFaults_of_trap fun v hv => ?_, ?_⟩
  · rw [he, copyCancel_badFlags hy]
    rfl
  · rw [he, copyCancel_trap hy hx hv]
    rfl
  · rintro (hy | ⟨hy, ho⟩)
    · rw [he, copyCancel_all hy]
      rfl
    · rw [he, copyCancel_object hy ho]
      rfl

/-! cpstat and cpwait (R237). -/

section
variable {s : State} {d a : Reg} {go : Nat → Out}

theorem withObject_trap {v : Word} (h : objectTrap (readReg s s.cur a) = some v) :
    withObject s a go = trapped s kindADDRESS 0 v := by
  simp only [withObject, h]
  rfl

theorem withObject_fits (ht : tagFits (readReg s s.cur a)) (ho : objectFits (readReg s s.cur a)) :
    withObject s a go = go (objectAt s (readReg s s.cur a)) := by
  simp only [withObject, objectTrap_fits ht ho, objectCell_eq]

theorem objectFaults_of_withObject {i : Instr} (he : exec i s = withObject s a go) :
    objectFaults s i (readReg s s.cur a) :=
  objectFaults_of_trap fun _ hv => he.trans (withObject_trap hv)

theorem exec_cpstat (h : ready (.cpstat d a) s = true) : exec (.cpstat d a) s = withObject s a fun cell =>
    (settleHere s s.cur cell 8).elim (.next s) fun u => wrote u d (readWord u.mem cell) := by
  refine exec_of_issue rfl (congrArg (withObject s a) (funext fun cell => ?_)) h
  cases settleHere s s.cur cell 8 <;> rfl

theorem exec_cpwait {lk : BitVec 4} (h : ready (.cpwait d a lk) s = true) : exec (.cpwait d a lk) s =
    withObject s a fun _ => finishEvent s (.cpwait d a lk) d false (readReg s s.cur a) 0#64 :=
  exec_of_issue rfl rfl h

/-- cpstat reads the object where it is reached (R237). -/
theorem cpstat_reads (h : ready (.cpstat d a) s = true) (ht : tagFits (readReg s s.cur a))
    (ho : objectFits (readReg s s.cur a)) : exec (.cpstat d a) s =
      (objectReached s (readReg s s.cur a)).elim (.next s) fun u =>
        wrote u d (readWord u.mem (objectAt s (readReg s s.cur a))) :=
  (exec_cpstat h).trans (withObject_fits ht ho)

end

/-- Settles O16: the object's pointer is checked first, and a command then finds room in the queue before it reaches the object
over the here path; a cpcan goes through the thread's operations one by one. -/
theorem copyIssue : Obligations.CopyIssue := by
  intro s d a b lk x y c bad room fork can stat wait
  refine ⟨?rows, codedC_of_encode rfl (RoundTrip.cpcan a b) rfl, exec_cpcan, codedR_of_encode rfl (RoundTrip.cpstat d a) rfl,
    codedL_of_encode rfl (RoundTrip.cpwait d a lk) rfl, ?faults,
    fun h ht ho => ⟨hereSettles_holds .., fun hn => ?forfeits, fun u hu => ?reads⟩,
    fun h ht ho => (exec_cpwait h).trans (withObject_fits ht ho)⟩
  case rows =>
    simp only [copyRows, List.forall_mem_cons, List.not_mem_nil, false_imp_iff, implies_true, and_true]
    exact ⟨copyRow rfl rfl (RoundTrip.cpbox a b) rfl rfl, copyRow rfl rfl (RoundTrip.cpmc a b) rfl rfl,
      copyRow rfl rfl (RoundTrip.cpredAddF32 a b) rfl rfl, copyRow rfl rfl (RoundTrip.cpredAddBf16 a b) rfl rfl,
      copyRow rfl rfl (RoundTrip.cpredMaxF32 a b) rfl rfl, copyRow rfl rfl (RoundTrip.cpredMaxBf16 a b) rfl rfl,
      copyRow rfl rfl (RoundTrip.cpredMinF32 a b) rfl rfl, copyRow rfl rfl (RoundTrip.cpredMinBf16 a b) rfl rfl⟩
  case faults =>
    simp only [List.forall_mem_cons, List.not_mem_nil, false_imp_iff, implies_true, and_true]
    exact ⟨fun h => objectFaults_of_withObject (exec_cpstat h), fun h => objectFaults_of_withObject (exec_cpwait h)⟩
  case forfeits => exact (cpstat_reads h ht ho).trans (congrArg (Option.elim · _ _) hn)
  case reads => exact (cpstat_reads h ht ho).trans (congrArg (Option.elim · _ _) hu)

end Sys2Proof.Laws
end

section
/-! PROOFS. The instructions of the matrix engine at issue (R243, R255). -/

namespace Sys2Proof.Laws

open Sys2Proof Sys2Proof.Machine

/-! A matrix command (R243): the room in the queue alone decides whether it is taken. -/

section
variable {s : State} {i : Instr} {cmd : Nat} {a b : Reg} {x y : Word} {n : BitVec 32}

/-- A matrix command of the thread whose opportunity it is, with the fork and the seed that it takes at issue. -/
def ownMatrix (s : State) (cmd : Nat) (x y : Word) (n : BitVec 32) : CmdResult :=
  matrixCommand s s.cur cmd x y n (forkOf s s.cur) (s.core (coreOf s.cur)).rseed

theorem ownMatrix_full (hq : ¬ admitted (s.core (coreOf s.cur)) 7 1) : ownMatrix s cmd x y n = .wait := by
  rw [← admits_iff, Bool.not_eq_true] at hq
  simp only [ownMatrix, matrixCommand, hq, Bool.not_false, if_true]

theorem ownMatrix_taken (hq : admitted (s.core (coreOf s.cur)) 7 1) :
    ownMatrix s cmd x y n = .taken (matrixQueued s cmd x y n) := by
  rw [← admits_iff] at hq
  simp only [ownMatrix, matrixCommand, hq, Bool.not_true, Bool.false_eq_true, if_false]
  rfl

/-- What R243 makes of a matrix command that ends in o where the queue has room. -/
def matrixIssues (s : State) (i : Instr) (o : Out) : Prop :=
  (¬ admitted (s.core (coreOf s.cur)) 7 1 → exec i s = .next s) ∧ (admitted (s.core (coreOf s.cur)) 7 1 → exec i s = o)

/-- An instruction that ends with what f makes of its command is one of R243, where f forfeits as R243 says. -/
theorem matrixIssues_of_command {f : CmdResult → Out} {o : Out} (he : exec i s = f (ownMatrix s cmd x y n))
    (hwait : f .wait = .next s) (hgo : f (.taken (matrixQueued s cmd x y n)) = o) : matrixIssues s i o := by
  refine ⟨fun hq => ?_, fun hq => ?_⟩
  · rw [he, ownMatrix_full hq, hwait]
  · rw [he, ownMatrix_taken hq, hgo]

/-- A command that takes no counter value: its word, and what its issue comes to. -/
theorem matrixRow {a' b' : Reg} {c : BitVec 8} (he : encode i = wordC a' b' 2#3 c) (hc : c.toNat = cmd)
    (hr : RoundTrip.Statement i) (hw : isWord i = true) (hx : exec i s = matrixOp i cmd a b s) :
    codedC i 2#3 cmd ∧ (ready i s = true →
      matrixIssues s i (passed (matrixQueued s cmd (readReg s s.cur a) (readReg s s.cur b) 0#32))) := by
  refine ⟨hc ▸ codedC_of_encode he hr hw, fun h => ?_⟩
  have hcommand : exec i s = finishCommand s (ownMatrix s cmd (readReg s s.cur a) (readReg s s.cur b) 0#32) :=
    exec_of_issue hx rfl h
  exact matrixIssues_of_command hcommand rfl rfl

/-- An mdrain goes on to the next counter value once it is in the queue (R243). -/
theorem mdrain_issues (h : ready (.mdrain a b) s = true) : matrixIssues s (.mdrain a b)
    (passed ((matrixQueued s 0x09 (readReg s s.cur a) (readReg s s.cur b) (s.thr s.cur).seq).setThr s.cur
      { s.thr s.cur with seq := (s.thr s.cur).seq + 1#32 })) := by
  have hcommand : exec (.mdrain a b) s =
      finishCounted s (ownMatrix s 0x09 (readReg s s.cur a) (readReg s s.cur b) (s.thr s.cur).seq) := exec_of_issue rfl rfl h
  exact matrixIssues_of_command hcommand rfl rfl

end

/-- Settles O17: a command is taken exactly where the queue has room for it, row by row and for mdrain; mwait opens the window
of an event. -/
theorem matrixIssue : Obligations.MatrixIssue := by
  intro s d a b lk t room drain wait
  refine ⟨?rows, codedC_of_encode rfl (RoundTrip.mdrain a b) rfl, mdrain_issues,
    codedL_of_encode rfl (RoundTrip.mwait d a lk) rfl, exec_of_issue rfl rfl⟩
  simp only [matrixRows, List.forall_mem_cons, List.not_mem_nil, false_imp_iff, implies_true, and_true]
  exact ⟨matrixRow rfl rfl (RoundTrip.mgath a b) rfl rfl, matrixRow rfl rfl RoundTrip.mgang rfl rfl,
    matrixRow rfl rfl (RoundTrip.mzero a) rfl rfl, matrixRow rfl rfl (RoundTrip.mband a) rfl rfl,
    matrixRow rfl rfl (RoundTrip.mmaF4 a b) rfl rfl, matrixRow rfl rfl (RoundTrip.mmaF8 a b) rfl rfl,
    matrixRow rfl rfl (RoundTrip.mmaBf16 a b) rfl rfl, matrixRow rfl rfl (RoundTrip.mmaI8 a b) rfl rfl⟩

end Sys2Proof.Laws
end

section
/-! PROOFS. The Meadow: what a window's close leaves of it, ownership, and the operand checks (R259, R260, R265). -/

namespace Sys2Proof.Laws

open Sys2Proof Sys2Proof.Machine

/-! What the closing of windows leaves of the controllers and of the threads on hold. -/

/-- What a die's controller works on: its plots, its calibration block, and the instructions that wait for the block's end. -/
def controllerOf (d : Die) : Tab Plot × Bool × List MeadowReq := (d.plots, d.blocked, d.blockHeld)

/-- Between s and t no controller changes, and every thread on hold stays so. -/
def MeadowStays (s t : State) : Prop :=
  (∀ d, controllerOf (t.die d) = controllerOf (s.die d)) ∧ ∀ k, (t.thr k).hold = (s.thr k).hold

theorem MeadowStays.refl (s : State) : MeadowStays s s := ⟨fun _ => rfl, fun _ => rfl⟩

theorem MeadowStays.trans {s t u : State} (h : MeadowStays s t) (h' : MeadowStays t u) : MeadowStays s u :=
  ⟨fun d => (h'.1 d).trans (h.1 d), fun k => (h'.2 k).trans (h.2 k)⟩

theorem MeadowStays.of_setThr {s : State} {k : Nat} {t : Thread} (h : t.hold = (s.thr k).hold) :
    MeadowStays s (s.setThr k t) := by
  refine ⟨fun _ => rfl, fun j => ?_⟩
  by_cases hj : j = k
  · rw [hj, thr_setThr_same, h]
  · rw [thr_setThr_other _ _ _ _ hj]

theorem MeadowStays.after_setThr {s u : State} {k : Nat} {t : Thread} (hu : MeadowStays (s.setThr k t) u)
    (h : t.hold = (s.thr k).hold) : MeadowStays s u := (MeadowStays.of_setThr h).trans hu

theorem MeadowStays.of_setDie {s : State} {d : Nat} {x : Die} (h : controllerOf x = controllerOf (s.die d)) :
    MeadowStays s (s.setDie d x) := by
  refine ⟨fun e => ?_, fun _ => rfl⟩
  by_cases he : e = d
  · rw [he, die_setDie_same, h]
  · rw [die_setDie_other _ _ _ _ he]

theorem MeadowStays.blocked {s t : State} (h : MeadowStays s t) (d : Nat) : (t.die d).blocked = (s.die d).blocked :=
  congrArg (·.2.1) (h.1 d)

theorem MeadowStays.blockHeld {s t : State} (h : MeadowStays s t) (d : Nat) : (t.die d).blockHeld = (s.die d).blockHeld :=
  congrArg (·.2.2) (h.1 d)

theorem MeadowStays.plot {s t : State} (h : MeadowStays s t) (d p : Nat) : t.plot d p = s.plot d p :=
  congrArg (fun c : Tab Plot × Bool × List MeadowReq => tabGet Plot.reset c.1 p) (h.1 d)

theorem latchOthers_meadowStays (k : Nat) (l : List Nat) : ∀ s, MeadowStays s (latchOthers s k l) := by
  induction l with
  | nil => exact .refl
  | cons j l ih =>
    intro s
    simp only [latchOthers]
    split
    · exact ih s
    · exact (ih (s.setThr _ _)).after_setThr rfl

theorem closeReg_meadowStays (s : State) (k : Nat) (r : Reg) (v : Word) : MeadowStays s (closeReg s k r v) := by
  simp only [closeReg, putReg]
  split_ifs
  · exact .of_setThr rfl
  · exact .of_setThr rfl
  · exact latchOthers_meadowStays k _ (s.setCore _ _)
  · exact .refl s

theorem leaveStores_meadowStays (s : State) (k : Nat) (l : List Request) : MeadowStays s (leaveStores s k l) := by
  simp only [leaveStores]
  split
  · exact .refl s
  · exact (MeadowStays.refl (s.setThr k _)).after_setThr rfl

theorem freeEnded_meadowStays (s : State) (h : Nat) (a : Option (BitVec 16)) : MeadowStays s (freeEnded s h a) := by
  simp only [freeEnded]
  split
  · exact .refl s
  · split
    · exact .refl s
    · exact .of_setDie rfl

theorem closeResult_meadowStays (s : State) (k : Nat) (d : Reg) (r : Result) : MeadowStays s (closeResult s k d r) := by
  cases r with
  | one v => exact closeReg_meadowStays s k d v
  | two v w => exact (closeReg_meadowStays s k d v).trans (closeReg_meadowStays _ k _ w)
  | buffer v l => exact (leaveStores_meadowStays s k l).trans (closeReg_meadowStays _ k d v)
  | object c => exact closeReg_meadowStays s k d _
  | kernel h a => exact (freeEnded_meadowStays s h a).trans (closeReg_meadowStays _ k d _)
  | mstatus c =>
    refine .trans ?_ (closeReg_meadowStays _ k d _)
    cases c with
    | false => exact .refl s
    | true => exact .of_setThr rfl
  | nothing => exact .refl s
  | refused j => exact .of_setThr rfl

theorem closeList_meadowStays (k : Nat) (l : List Window) : ∀ s, MeadowStays s (closeList s k l).1 := by
  induction l with
  | nil => exact .refl
  | cons w l ih =>
    intro s
    simp only [closeList]
    split
    · split
      · exact (closeResult_meadowStays s k w.dest _).trans (ih _)
      · exact .refl s
    · exact ih s

theorem closeWindows_meadowStays (s : State) (k : Nat) : MeadowStays s (closeWindows s k) :=
  (closeList_meadowStays k _ s).trans (.of_setThr rfl)

theorem retireTo_meadowStays (s : State) (k : Nat) (pc : Word) (l : List Window) : MeadowStays s (retireTo s k pc l) :=
  (closeWindows_meadowStays (s.setThr k _) k).after_setThr rfl

theorem arrive_meadowStays (s : State) (k wid : Nat) (r : Result) : MeadowStays s (arrive s k wid r) :=
  (closeWindows_meadowStays (s.setThr k _) k).after_setThr rfl

/-! Plots, and who owns one (R260). -/

@[simp] theorem plot_setThr (s : State) (k : Nat) (t : Thread) (d p : Nat) : (s.setThr k t).plot d p = s.plot d p := rfl

@[simp] theorem thr_setPlot (s : State) (d p : Nat) (x : Plot) (k : Nat) : (s.setPlot d p x).thr k = s.thr k := rfl

theorem die_setPlot_same (s : State) (d p : Nat) (x : Plot) :
    (s.setPlot d p x).die d = { s.die d with plots := tabSet (s.die d).plots p x } := die_setDie_same ..

@[simp] theorem plot_setPlot_same (s : State) (d p : Nat) (x : Plot) : (s.setPlot d p x).plot d p = x := by
  rw [State.plot, die_setPlot_same, tabGet_tabSet_same]

theorem plot_setPlot_other (s : State) (d : Nat) {p q : Nat} (x : Plot) (h : q ≠ p) :
    (s.setPlot d p x).plot d q = s.plot d q := by
  rw [State.plot, die_setPlot_same, tabGet_tabSet_other _ _ _ _ _ h, State.plot]

theorem ownsPlot_iff (s : State) (asid : BitVec 16) (die p : Nat) : ownsPlot s asid die p = true ↔ contextOwns s asid die p := by
  simp only [ownsPlot, contextOwns, Bool.and_eq_true, beq_iff_eq, Bool.not_eq_true', Bool.and_eq_false_iff, beq_eq_false_iff_ne,
    and_assoc, imp_iff_not_or, Ne]

theorem MeadowStays.contextOwns {s t : State} (h : MeadowStays s t) {asid : BitVec 16} {die p : Nat} :
    contextOwns t asid die p ↔ contextOwns s asid die p := by
  simp only [Machine.contextOwns, h.plot]

theorem MeadowStays.plotWrites {s t : State} (h : MeadowStays s t) (die p : Nat) :
    plotWrites t die p = plotWrites s die p := by
  simp only [Machine.plotWrites, h.plot]

/-! The fields of an operand (R265, R268). -/

theorem fieldBits_iff (u mask : Word) : fieldBits u mask = true ↔ u &&& ~~~mask = 0#64 := beq_iff_eq

/-- An operand that uses its three lowest bits alone. -/
theorem fieldBits_seven (u : Word) : fieldBits u 7#64 = true ↔ u.toNat < 8 := by
  have hmask : (~~~7#64 : Word) = BitVec.allOnes 64 <<< 3 := by decide
  rw [fieldBits_iff, hmask, ← BitVec.shiftLeft_ushiftRight, ← BitVec.toNat_inj]
  have := u.isLt
  simp only [BitVec.toNat_shiftLeft, BitVec.toNat_ushiftRight, Nat.shiftLeft_eq, Nat.shiftRight_eq_div_pow, BitVec.toNat_ofNat]
  omega

theorem operands_coef (u v : Word) : meadowOperands .coef u v = true ↔ u &&& ~~~0x11FF0307#64 = 0#64 ∧
    v.toNat / 2 ^ (16 * (u.toNat / 2 ^ 8 % 4 + 1)) = 0 ∧
    ∀ j ≤ u.toNat / 2 ^ 8 % 4, v.toNat / 2 ^ (16 * j) % 2 ^ 16 < 2 ^ 12 := by
  simp only [meadowOperands, Bool.and_eq_true, fieldBits_iff, upperZero, beq_iff_eq, List.all_eq_true, mem_upTo,
    decide_eq_true_eq, and_assoc, meadowCount, meadowField, bitsAt, Nat.lt_succ_iff, show (4096 : Nat) = 2 ^ 12 from rfl,
    show (4 : Nat) = 2 ^ 2 from rfl]

theorem operands_scale (u v : Word) : meadowOperands .scale u v = true ↔
    u.toNat < 8 ∧ v.toNat < 64 ∧ v.toNat / 8 % 2 = 0 ∧ v.toNat % 8 ≠ 7 := by
  have hbit : v.getLsbD 3 = false ↔ v.toNat / 8 % 2 = 0 := by
    rw [BitVec.getLsbD, Nat.testBit_eq_decide_div_mod_eq, decide_eq_false_iff_not]
    omega
  have htop : v.toNat / 64 = 0 ↔ v.toNat < 64 := by omega
  simp only [meadowOperands, Bool.and_eq_true, fieldBits_seven, beq_iff_eq, htop, Bool.not_eq_true', hbit, bne_iff_ne, bitsAt_zero,
    and_assoc]
  rfl

/-- The settle word of asettle (R271): no bit above its fields, and no field 0. -/
theorem operands_settle (u v : Word) (w : Nat) : meadowOperands (.settle w) u v = true ↔
    u.toNat < 8 ∧ v.toNat / 2 ^ 52 = 0 ∧ v.toNat % 2 ^ 16 ≠ 0 ∧ v.toNat / 2 ^ 16 % 2 ^ 16 ≠ 0 ∧
      v.toNat / 2 ^ 32 % 2 ^ 20 ≠ 0 := by
  simp only [meadowOperands, Bool.and_eq_true, fieldBits_seven, beq_iff_eq, bne_iff_ne, bitsAt_zero, and_assoc,
    bitsAt_top v (show 52 + 12 = 64 from rfl)]
  rfl

theorem operands_sample (u v : Word) (w : Nat) : meadowOperands (.sample w) u v = true ↔ u.toNat < 8 ∧ v.toNat < 128 := by
  have htop : v.toNat / 2 ^ 7 = 0 ↔ v.toNat < 128 := by omega
  simp only [meadowOperands, Bool.and_eq_true, fieldBits_seven, beq_iff_eq, bitsAt_top v (show 7 + 57 = 64 from rfl), htop]

end Sys2Proof.Laws
end

section
/-! PROOFS. The instructions of the Meadow at issue, and as its controller takes them (R260, R264 to R266, R270, R273, R277,
R278). -/

namespace Sys2Proof.Laws

open Sys2Proof Sys2Proof.Machine

/-! The controller (R266, R278, R492). -/

section
variable {s : State} {r : MeadowReq}

theorem meadowReaches_blocked (h : (s.die r.die).blocked = true) :
    meadowReaches s r = s.setDie r.die { s.die r.die with blockHeld := (s.die r.die).blockHeld ++ [r] } := if_pos h

theorem meadowReaches_open (h : (s.die r.die).blocked = false) : meadowReaches s r = meadowTaken s r :=
  if_neg (Bool.eq_false_iff.mp h)

theorem meadowTaken_retired (h : s.dieRetired r.die = true) : meadowTaken s r = s := if_pos h

/-- The second look at the ownership, and at the MPLOT writes. -/
theorem stillOwned_iff : (!ownsPlot s r.asid r.die r.plot || plotWrites s r.die r.plot != r.writes) = true ↔
    ¬ (contextOwns s r.asid r.die r.plot ∧ plotWrites s r.die r.plot = r.writes) := by
  simp only [Bool.or_eq_true, Bool.not_eq_true', ← Bool.not_eq_true, ownsPlot_iff, bne_iff_ne, not_and_or, Ne]

theorem meadowTaken_void (hr : s.dieRetired r.die = false)
    (h : ¬ (contextOwns s r.asid r.die r.plot ∧ plotWrites s r.die r.plot = r.writes)) : meadowTaken s r = meadowVoid s r := by
  rw [meadowTaken, if_neg (Bool.eq_false_iff.mp hr), if_pos (stillOwned_iff.mpr h)]

theorem meadowReaches_applies (h : applies s r) : meadowReaches s r = meadowApplied s r := by
  obtain ⟨hb, hr, howns⟩ := h
  rw [meadowReaches_open hb, meadowTaken, if_neg (Bool.eq_false_iff.mp hr), if_neg (stillOwned_iff.not_left.mpr howns)]

/-- What an asettle gives that reaches its plot, by the state of the plot (R270, R271). -/
theorem startSettle_byState {x : Plot} (hx : s.plot r.die r.plot = x) (w : Nat) :
    (x.state = .idle → startSettle s r w = arrive s r.key w (.one 3#64)) ∧
    (x.state = .saturated → startSettle s r w = arrive s r.key w (.one 2#64)) ∧
    (x.state = .held → startSettle s r w = arrive s r.key w (.one (if x.settle = 0 then 0#64 else 3#64))) ∧
    (x.state = .running → startSettle s r w =
      s.setPlot r.die r.plot { x with waiters := x.waiters ++ [⟨r.key, w, r.b, 0, 0⟩] }) := by
  refine ⟨fun h => ?_, fun h => ?_, fun h => ?_, fun h => ?_⟩
  all_goals simp only [startSettle, hx, h]
  · rfl
  · rfl
  · exact congrArg (fun v => arrive s r.key w (.one v)) (apply_ite (BitVec.ofNat 64) _ _ _)

/-- A sample's pair depends on its plot and on TIME (R273). -/
theorem meadowApplied_sample {s u : State} {w : Nat} {x : Plot} (hop : r.op = .sample w) (hx : u.plot r.die r.plot = x)
    (ht : u.time = s.time) : meadowApplied u r =
      let v := samplePair s x r.die r.plot (r.b.toNat % 128)
      arrive u r.key w (.two v.1 v.2) := by
  have hpair : samplePair u x r.die r.plot (r.b.toNat % 128) = samplePair s x r.die r.plot (r.b.toNat % 128) := by
    simp only [samplePair, sampleBound, ht]
  simp only [meadowApplied, hop, hx, bitsAt_zero, ← hpair]
  rfl

end

/-! The checks at issue (R260, R265, R268, R277). -/

section
variable {s : State} {i : Instr} {op : MeadowOp} {x y : Word} {f : MeadowReq → Out} {ok fits go : Prop}

/-- The checks that do not depend on the routes: the owner, the operands, and the integrator that an asample names. -/
def meadowPasses (s : State) (op : MeadowOp) (x y : Word) : Prop :=
  owner s s.cur (x.toNat % 8) ∧ meadowOperands op x y = true ∧
    ∀ w, op = .sample w → bitsAt y 0 7 < plotIntegrators (s.plot (dieOf (coreOf s.cur)) (x.toNat % 8))

theorem meadowIssue_operand (h : ¬ meadowPasses s op x y) : meadowIssue s s.cur op x y false = .operand := by
  refine if_pos ?_
  simp only [meadowPasses, owner, ← ownsPlot_iff] at h
  simp only [Bool.or_eq_true, isSystem_iff, Bool.not_eq_true', bitsAt_zero]
  by_contra hno
  simp only [not_or, Bool.not_eq_false, Nat.not_le] at hno
  obtain ⟨⟨⟨hcore, howns⟩, hops⟩, hin⟩ := hno
  refine h ⟨⟨howns, hcore⟩, hops, ?_⟩
  rintro w rfl
  rw [bitsAt_zero]
  simpa using hin

theorem meadowIssue_passes (h : meadowPasses s op x y) :
    meadowIssue s s.cur op x y false =
      if (s.plot (dieOf (coreOf s.cur)) (x.toNat % 8)).satpend then
        (if fieldsFit (s.plot (dieOf (coreOf s.cur)) (x.toNat % 8)) op x y then .saturated (x.toNat % 8) else .operand)
      else .send (meadowAsked s op x y) := by
  obtain ⟨⟨howns, hcore⟩, hops, hin⟩ := h
  rw [← ownsPlot_iff] at howns
  refine (if_neg ?_).trans ?_
  · have hcompute : isSystem (coreOf s.cur) = false := by rw [← Bool.not_eq_true, isSystem_iff]; omega
    rw [show (8 : Nat) = 2 ^ 3 from rfl] at howns hin
    simp only [bitsAt_zero, hcompute, howns, hops, Bool.not_true, Bool.false_or]
    cases op with
    | sample w => simpa [bitsAt_zero] using hin w rfl
    | _ => exact Bool.false_ne_true
  · simp only [bitsAt_zero]
    rfl

/-- An instruction that goes on to f behind the checks issues as R260, R265 and R277 say. -/
theorem meadowIssues_of_go (he : exec i s = meadowGo s op x y f)
    (hok : ok ↔ meadowOperands op x y = true ∧
      ∀ w, op = .sample w → bitsAt y 0 7 < plotIntegrators (s.plot (dieOf (coreOf s.cur)) (x.toNat % 8)))
    (hfits : fits ↔ fieldsFit (s.plot (dieOf (coreOf s.cur)) (x.toNat % 8)) op x y = true)
    (hgo : owner s s.cur (x.toNat % 8) → exec i s = f (meadowAsked s op x y) → go) : meadowIssues s i x ok fits go := by
  simp only [meadowIssues, hok, hfits]
  refine ⟨fun h => ?_, fun ho hp hs => ⟨fun hf => ?_, fun hf => ?_⟩, fun ho hp hs => hgo ho ?_⟩
  · rw [he, meadowGo, meadowIssue_operand h]
    rfl
  · rw [he, meadowGo, meadowIssue_passes ⟨ho, hp⟩, if_pos hs, if_neg hf]
    rfl
  · rw [he, meadowGo, meadowIssue_passes ⟨ho, hp⟩, if_pos hs, if_pos hf]
    rfl
  · rw [he, meadowGo, meadowIssue_passes ⟨ho, hp⟩, if_neg (Bool.eq_false_iff.mp hs)]

/-- A command, or astat: its word, and what its issue comes to. -/
theorem meadowRow {d a b : Reg} (hop : ∀ w, op ≠ .sample w) (hr : RoundTrip.Statement i) (hw : isWord i = true)
    (hx : exec i s = meadowCommand i op d a b s) :
    let u := readReg s s.cur a
    let v := readReg s s.cur b
    decode (encode i) = some i ∧ (ready i s = true → meadowIssues s i u (meadowOperands op u v = true)
      (fieldsFit (s.plot (dieOf (coreOf s.cur)) (u.toNat % 8)) op u v = true)
      (exec i s = .next { s.setThr s.cur { s.thr s.cur with hold := .answer d } with
        work := s.work ++ [.meadowApply (meadowAsked s op u v)] })) := by
  refine ⟨hr hw, fun h => meadowIssues_of_go (exec_of_issue hx rfl h) ?_ Iff.rfl fun _ he => he⟩
  exact ⟨fun hops => ⟨hops, fun w e => absurd e (hop w)⟩, And.left⟩

end

/-! asettle and asample, which are applied as they issue (R266, R278). -/

section
variable {s s' : State} {i : Instr} {r : MeadowReq} {w : Window} {now : State → Prop}

/-- The state in which the window of an asettle or asample is open, and its plot has met it in this ck. -/
def meadowOpened (s' : State) (r : MeadowReq) (w : Window) : State :=
  plotMet (retireTo s'.tick r.key ((s'.thr r.key).pc + 4#64) [w]) r

theorem meadowOpened_stays (s' : State) (r : MeadowReq) (w : Window) : MeadowStays s' (meadowOpened s' r w) :=
  retireTo_meadowStays s'.tick r.key _ [w]

theorem meadowOpened_dieRetired (d : Nat) : (meadowOpened s' r w).dieRetired d = s'.dieRetired d := by
  obtain ⟨th, co, di, wk, h⟩ := retireTo_touches s'.tick r.key ((s'.thr r.key).pc + 4#64) [w]
  rw [meadowOpened, h]
  rfl

theorem meadowOpened_time : (meadowOpened s' r w).time = s'.time := by
  obtain ⟨th, co, di, wk, h⟩ := retireTo_touches s'.tick r.key ((s'.thr r.key).pc + 4#64) [w]
  rw [meadowOpened, h]
  rfl

/-- The thread sleeps until the end of the calibration block. -/
def sleeps (u : State) (k : Nat) : State := u.setThr k { u.thr k with hold := .block }

theorem meadowAtIssue_open (h : ((meadowArrives s r.key).die r.die).blocked = false) :
    meadowAtIssue s r w = meadowReaches (meadowOpened (meadowArrives s r.key) r w) r := by
  have hb := ((meadowOpened_stays _ r w).blocked r.die).trans h
  exact congrArg (meadowReaches · r) (if_neg (Bool.eq_false_iff.mp hb))

theorem meadowAtIssue_blocked (h : ((meadowArrives s r.key).die r.die).blocked = true) :
    meadowAtIssue s r w = meadowReaches (sleeps (meadowOpened (meadowArrives s r.key) r w) r.key) r := by
  have hb := ((meadowOpened_stays _ r w).blocked r.die).trans h
  exact congrArg (meadowReaches · r) (if_pos hb)

/-- A thread with no reissued command on its way has none that reaches the controller. -/
theorem meadowArrives_none {k : Nat} (h : ∀ q, .meadowApply q ∈ s.work → q.key ≠ k) : meadowArrives s k = s := by
  have hnone : ∀ e ∈ s.work, meadowOf k e = none := by
    intro e he
    cases e with
    | meadowApply q => exact if_neg (h q he)
    | _ => rfl
  have hwork : s.work.filterMap (meadowOf k) = [] := List.filterMap_eq_nil_iff.mpr hnone
  have hkept : s.work.filter (fun e => (meadowOf k e).isNone) = s.work :=
    List.filter_eq_self.mpr fun e he => Option.isNone_iff_eq_none.mpr (hnone e he)
  rw [meadowArrives, hwork, hkept]
  rfl

/-- What R266 and R278 make of an asettle or asample that asks r and opens w. -/
def meadowWaits (s : State) (i : Instr) (r : MeadowReq) (w : Window) (now : State → Prop) : Prop :=
  let s1 := meadowArrives s s.cur
  let u1 := meadowOpened s1 r w
  let u := meadowOpened s r w
  ((s1.die r.die).blocked = false → exec i s = exec (.meadowApply r) u1) ∧
  ((s1.die r.die).blocked = true → exec i s = exec (.meadowApply r) (sleeps u1 s.cur)) ∧
  ((∀ q, .meadowApply q ∈ s.work → q.key ≠ s.cur) →
    ((s.die r.die).blocked = true → exec i s = .next ((sleeps u s.cur).setDie r.die { (sleeps u s.cur).die r.die with
      blockHeld := (s.die r.die).blockHeld ++ [r] })) ∧
    ((s.die r.die).blocked = false → s.dieRetired r.die = true → exec i s = .next u) ∧
    ((s.die r.die).blocked = false → s.dieRetired r.die = false → now u))

theorem meadowWaits_of_atIssue (hk : r.key = s.cur) (he : exec i s = .next (meadowAtIssue s r w))
    (howns : contextOwns s r.asid r.die r.plot) (hwrites : r.writes = plotWrites s r.die r.plot)
    (hnow : exec i s = .next (meadowApplied (meadowOpened s r w) r) → now (meadowOpened s r w)) : meadowWaits s i r w now := by
  have hstays := meadowOpened_stays s r w
  refine ⟨fun h => ?_, fun h => ?_, fun hq => ⟨fun h => ?_, fun h hd => ?_, fun h hd => hnow ?_⟩⟩
  · rw [← hk] at h ⊢
    rw [he, meadowAtIssue_open h]
    rfl
  · rw [← hk] at h ⊢
    rw [he, meadowAtIssue_blocked h]
    rfl
  all_goals
    rw [← hk] at hq
    have harrived : meadowArrives s r.key = s := meadowArrives_none hq
  · rw [he, meadowAtIssue_blocked (harrived.symm ▸ h), harrived, hk,
      meadowReaches_blocked (s := sleeps (meadowOpened s r w) s.cur) ((hstays.blocked _).trans h), ← hstays.blockHeld]
    rfl
  · rw [he, meadowAtIssue_open (harrived.symm ▸ h), harrived, meadowReaches_open ((hstays.blocked _).trans h),
      meadowTaken_retired (by rw [meadowOpened_dieRetired, hd])]
  · have happlies : applies (meadowOpened s r w) r := by
      refine ⟨(hstays.blocked _).trans h, ?_, hstays.contextOwns.mpr howns, ?_⟩
      · rw [meadowOpened_dieRetired, hd]
      · rw [hstays.plotWrites, hwrites]
    rw [he, meadowAtIssue_open (harrived.symm ▸ h), harrived, meadowReaches_applies happlies]

end

/-- Settles O18: row by row of R264 for the commands and astat; asettle and asample open their window and reach the controller in
one step, behind the thread's reissued commands, and what closes with that leaves the plots as they are. -/
theorem meadowIssue : Obligations.MeadowIssue := by
  intro s d a b lk x y t settle sample limit die plot opens waits gives
  refine ⟨?rows, codedL_of_encode rfl (RoundTrip.asettle d a b lk) rfl, codedL_of_encode rfl (RoundTrip.asample d a b lk) rfl,
    fun h => ?settles, fun h => ?samples, fun u v => ?operands⟩
  case rows =>
    simp only [meadowRows, List.forall_mem_cons, List.not_mem_nil, false_imp_iff, implies_true, and_true]
    exact ⟨meadowRow nofun (RoundTrip.acfg a b) rfl rfl, meadowRow nofun (RoundTrip.acoef a b) rfl rfl,
      meadowRow nofun (RoundTrip.ascale a b) rfl rfl, meadowRow nofun (RoundTrip.arun a) rfl rfl,
      meadowRow nofun (RoundTrip.ahold a) rfl rfl, meadowRow nofun (RoundTrip.areset a) rfl rfl,
      meadowRow nofun (RoundTrip.astat d a) rfl rfl⟩
  case settles =>
    refine meadowIssues_of_go (exec_of_issue rfl rfl h) ?_ (iff_of_true trivial rfl) fun ho hgo => ?_
    · rw [operands_settle]
      exact ⟨fun hops => ⟨hops, nofun⟩, And.left⟩
    · change meadowWaits s settle (meadowAsked s (.settle s.nonce) x y) (newWindow s d lk true false settle x y .pending)
        fun u => _
      refine meadowWaits_of_atIssue rfl hgo ho.1 rfl fun hexec => ?_
      obtain ⟨hidle, hsat, hheld, hrun⟩ := startSettle_byState ((meadowOpened_stays s _ _).plot _ _) s.nonce
      exact ⟨fun hst => hexec.trans (congrArg _ (hidle hst)), fun hst => hexec.trans (congrArg _ (hsat hst)),
        fun hst => hexec.trans (congrArg _ (hheld hst)), fun hst => hexec.trans (congrArg _ (hrun hst))⟩
  case samples =>
    have hlimit : y.toNat < 128 ∧ bitsAt y 0 7 < limit ↔ y.toNat < limit := by
      have hle : limit ≤ 128 := by simp only [limit]; split <;> omega
      rw [bitsAt_zero]
      omega
    refine meadowIssues_of_go (exec_of_issue rfl rfl h) ?_ (iff_of_true trivial rfl) fun ho hgo => ?_
    · rw [operands_sample, and_assoc, and_congr_right_iff]
      intro _
      rw [← hlimit, and_congr_right_iff]
      exact fun _ => ⟨fun hin _ _ => hin, fun hin => hin _ rfl⟩
    · change meadowWaits s sample (meadowAsked s (.sample s.nonce) x y) (newWindow s d lk false false sample x y .pending)
        fun u => _
      refine meadowWaits_of_atIssue rfl hgo ho.1 rfl fun hexec => hexec.trans (congrArg _ ?_)
      exact meadowApplied_sample rfl ((meadowOpened_stays s _ _).plot _ _) meadowOpened_time
  case operands =>
    exact ⟨fieldBits_seven u, fieldBits_iff u _, fieldBits_iff u _, fieldBits_iff u _, operands_scale u v, operands_coef u v⟩

end Sys2Proof.Laws
end

section
/-! PROOFS. What the controller of the Meadow does with an instruction (R266, R268 to R271, R276). -/

namespace Sys2Proof.Laws

open Sys2Proof Sys2Proof.Machine

/-! Waiters, and a thread that goes on (R266, R271, R272). -/

theorem wakePlot_eq_foldl (status : Nat) (l : List PlotWaiter) : ∀ s, wakePlot s status l =
    l.foldl (fun s w => arrive s w.key w.wid (.one (BitVec.ofNat 64 status))) s := by
  induction l with
  | nil => exact fun _ => rfl
  | cons w l ih => exact fun s => ih _

theorem wakeAll_eq_waitersEnd (s : State) (die p : Nat) (x : Plot) (status : Nat) :
    wakeAll s die p x status = waitersEnd s die p x x.waiters status := wakePlot_eq_foldl ..

theorem waitersEnd_hold (s : State) (die p : Nat) (x : Plot) (ws : List PlotWaiter) (status k : Nat) :
    ((waitersEnd s die p x ws status).thr k).hold = (s.thr k).hold := by
  rw [waitersEnd]
  generalize hu : s.setPlot die p _ = u
  have hs : (u.thr k).hold = (s.thr k).hold := by rw [← hu, thr_setPlot]
  clear hu
  induction ws generalizing u with
  | nil => exact hs
  | cons w ws ih => exact ih _ (((arrive_meadowStays u w.key w.wid _).2 k).trans hs)

section
variable {s : State} {r : MeadowReq} {d : Reg} {v : Word}

/-- A command that is over, where its thread waits for it with register d. -/
theorem meadowDone_goesOn (hw : r.alone = false → (s.thr r.key).hold = .answer d) :
    .next (meadowDone s r v) = goesOn s r d v := by
  cases ha : r.alone with
  | true => simp only [meadowDone, goesOn, ha, if_true]
  | false => simp only [meadowDone, goesOn, ha, hw ha, Bool.false_eq_true, if_false]

theorem meadowRefused_eq : .next (meadowRefused s r) = doesNotFit s r := rfl

end

/-! The words of astat (R276). -/

theorem astatWord_eq (s : State) (die p : Nat) (a : Word) :
    astatWord s die p (bitsAt a 4 2) = plotReport s die p (a.toNat / 2 ^ 4 % 4) := by
  change astatWord s die p (a.toNat / 2 ^ 4 % 4) = _
  have hsel : a.toNat / 2 ^ 4 % 4 < 4 := Nat.mod_lt _ (by decide)
  generalize a.toNat / 2 ^ 4 % 4 = sel at hsel
  match sel with
  | 0 =>
    simp only [astatWord, plotReport, if_true, fieldsWord, flag_eq, fieldsSum_cons, List.map_nil, List.sum_nil]
    refine congrArg (BitVec.ofNat 64) ?_
    cases (s.plot die p).state <;> simp only [stateCode] <;> omega
  | 1 =>
    simp only [astatWord, plotReport, one_ne_zero, if_true, if_false, fieldsWord, flag_eq, fieldsSum_cons, List.map_nil,
      List.sum_nil]
    refine congrArg (BitVec.ofNat 64) ?_
    omega
  | 2 => rfl
  | 3 => rfl

/-! Plots (R261, R268 to R270). -/

section
variable {x : Plot}

theorem discharged_eq (x : Plot) (clr : Bool) : x.discharged clr = discharged x clr := by
  cases clr <;> rfl

theorem written_eq (x : Plot) : x.written = reconfigured x := by
  cases h : x.state with
  | idle => simp only [Plot.written, reconfigured, h, reduceCtorEq, if_false]
  | running => simp only [Plot.written, reconfigured, h, if_true]; rfl
  | held => simp only [Plot.written, reconfigured, h, reduceCtorEq, if_true, if_false]; rfl
  | saturated => simp only [Plot.written, reconfigured, h, reduceCtorEq, if_false]

/-- A coefficient code as the integer that its 12 bits give. -/
theorem codeInt_eq (v : Nat) : codeInt v = signedOf 12 (v % 2 ^ 12) := by
  simp only [codeInt, signedBits, signedOf]
  split <;> push_cast <;> rfl

theorem loaded_eq (x : Plot) : x.loaded = { x with states := initialStates x } := by
  simp only [Plot.loaded, initialStates, codeInt_eq]

/-- arun, by the state of the plot (R270). -/
theorem released_eq (x : Plot) (reload : Bool) : x.released reload =
    if x.state = .idle ∨ x.state = .held then { x.recomputed with
      settle := 15, state := .running
      states := if x.state = .idle ∨ reload = true then initialStates x else x.states } else x := by
  cases h : x.state with
  | idle => simp only [Plot.released, h, loaded_eq, true_or, if_true]; rfl
  | held =>
    cases reload with
    | true => simp only [Plot.released, h, loaded_eq, or_true, if_true]; rfl
    | false => simp only [Plot.released, h, Bool.false_eq_true, reduceCtorEq, or_true, or_false, if_true, if_false]; rfl
  | running => simp only [Plot.released, h, reduceCtorEq, or_false, if_false]
  | saturated => simp only [Plot.released, h, reduceCtorEq, or_false, if_false]

theorem setValues_eq_foldl (b : Word) (first : Nat) (l : List Nat) : ∀ t, setValues t b first l =
    l.foldl (fun t j => tabSet t (first + j) (b.toNat / 2 ^ (16 * j) % 2 ^ 16)) t := by
  induction l with
  | nil => exact fun _ => rfl
  | cons j l ih => exact fun t => ih _

/-- The numbers that an acoef may name (R268). -/
theorem coefLimit_eq (x : Plot) (init : Bool) :
    (if init = true then plotIntegrators x else plotMultipliers x) =
      if init = false ∧ x.join = true then 512 else if init = false then 256 else if x.join then 128 else 64 := by
  cases init <;> cases hj : x.join <;> simp [plotIntegrators, plotMultipliers, hj]

end

/-! The routes after an acfg (R268). -/

/-- Multiplier m gets the route of a field, or none. -/
def routeSet (routes : Tab (Nat × Nat)) (m f : Nat) : Tab (Nat × Nat) :=
  let rest := routes.filter fun r => r.1 != m
  if f = 0xFFFF then rest else rest ++ [(m, (f % 256, f / 256))]

theorem setRoutes_eq_foldl (b : Word) (first : Nat) (l : List Nat) : ∀ routes, setRoutes routes b first l =
    l.foldl (fun t j => routeSet t (first + j) (meadowField b j)) routes := by
  induction l with
  | nil => exact fun _ => rfl
  | cons j l ih => exact fun t => ih _

theorem routeSet_same (routes : Tab (Nat × Nat)) (m f : Nat) : ((routeSet routes m f).filter fun e => e.1 == m) =
    if f = 0xFFFF then [] else [(m, (f % 256, f / 256))] := by
  have hrest : ((routes.filter fun r => r.1 != m).filter fun e => e.1 == m) = [] := by
    rw [List.filter_filter, List.filter_eq_nil_iff]
    intro e _
    simp
  rw [routeSet]
  split
  · exact hrest
  · rw [List.filter_append, hrest]
    simp

theorem routeSet_other (routes : Tab (Nat × Nat)) {m n : Nat} (f : Nat) (h : n ≠ m) :
    ((routeSet routes m f).filter fun e => e.1 == n) = routes.filter fun e => e.1 == n := by
  have hrest : ((routes.filter fun r => r.1 != m).filter fun e => e.1 == n) = routes.filter fun e => e.1 == n := by
    rw [List.filter_filter]
    refine List.filter_congr fun e _ => ?_
    by_cases he : e.1 = n
    · simp [he, h]
    · simp [he]
  rw [routeSet]
  split
  · exact hrest
  · rw [List.filter_append, hrest]
    simp [h.symm]

/-- A multiplier that no field names keeps its routes. -/
theorem foldl_routeSet_other (b : Word) (first n : Nat) (l : List Nat) (h : ∀ j ∈ l, n ≠ first + j) : ∀ routes,
    ((l.foldl (fun t j => routeSet t (first + j) (meadowField b j)) routes).filter fun e => e.1 == n) =
      routes.filter fun e => e.1 == n := by
  induction l with
  | nil => exact fun _ => rfl
  | cons j l ih =>
    intro routes
    rw [List.foldl_cons, ih fun i hi => h i (List.mem_cons_of_mem j hi), routeSet_other _ _ (h j List.mem_cons_self)]

/-- A multiplier that one field names has what that field says. -/
theorem foldl_routeSet_same (b : Word) (first : Nat) {j : Nat} (l : List Nat) (hn : l.Nodup) (h : j ∈ l) : ∀ routes,
    ((l.foldl (fun t j => routeSet t (first + j) (meadowField b j)) routes).filter fun e => e.1 == first + j) =
      if meadowField b j = 0xFFFF then [] else [(first + j, (meadowField b j % 256, meadowField b j / 256))] := by
  induction l with
  | nil => exact absurd h List.not_mem_nil
  | cons i l ih =>
    intro routes
    obtain ⟨hi, hl⟩ := List.nodup_cons.mp hn
    rw [List.foldl_cons]
    by_cases hj : j = i
    · subst hj
      rw [foldl_routeSet_other, routeSet_same]
      rintro k hk he
      obtain rfl : j = k := by omega
      exact hi hk
    · exact ih hl ((List.mem_cons.mp h).resolve_left hj) _

/-- What an acfg that fits its plot leaves of the routes: at most 8 for each destination, and each field's own. -/
theorem setRoutes_routes (x : Plot) (a b : Word) (hfit : fieldsFit x .cfg a b = true) :
    let routes := setRoutes x.routes b (meadowFirst a) (upTo (meadowCount a))
    let first := a.toNat / 2 ^ 16 % 2 ^ 9
    (∀ i < 128, (routes.filter fun m => m.2.2 == i).length ≤ 8 ∨ plotIntegrators x ≤ i) ∧
    ∀ m < 512,
      let f := b.toNat / 2 ^ (16 * (m - first)) % 2 ^ 16
      (m < first ∨ first + a.toNat / 2 ^ 8 % 4 < m →
        (routes.filter fun e => e.1 == m) = x.routes.filter fun e => e.1 == m) ∧
      (first ≤ m → m ≤ first + a.toNat / 2 ^ 8 % 4 → (routes.filter fun e => e.1 == m) =
        if f = 0xFFFF then [] else [(m, (f % 256, f / 256))]) := by
  intro routes first
  have hroutes : routes = (List.range (a.toNat / 2 ^ 8 % 4 + 1)).foldl
      (fun t j => routeSet t (first + j) (meadowField b j)) x.routes := by
    rw [← upTo_eq_range]
    exact setRoutes_eq_foldl b (meadowFirst a) _ x.routes
  refine ⟨fun i _ => ?_, fun m _ => ⟨fun hm => ?_, fun hlo hhi => ?_⟩⟩
  · simp only [fieldsFit, Bool.and_eq_true, List.all_eq_true, mem_upTo, decide_eq_true_eq] at hfit
    obtain ⟨-, height⟩ := hfit
    by_cases hi : i < plotIntegrators x
    · exact .inl (height i hi)
    · exact .inr (by omega)
  · rw [hroutes]
    refine foldl_routeSet_other b first m _ ?_ x.routes
    intro j hj
    rw [List.mem_range] at hj
    omega
  · obtain ⟨j, rfl⟩ := Nat.exists_eq_add_of_le hlo
    rw [hroutes, Nat.add_sub_cancel_left]
    exact foldl_routeSet_same b first _ List.nodup_range (List.mem_range.mpr (by omega)) x.routes

/-! Configuration (R268, R269). -/

section
variable {x : Plot} (a b : Word)

theorem configured_cfg : x.configured .cfg a b =
    reconfigured { x with routes := setRoutes x.routes b (meadowFirst a) (upTo (meadowCount a)) } := written_eq _

theorem configured_scale : x.configured .scale a b =
    reconfigured { x with tau := b.toNat % 8, gain := b.toNat / 2 ^ 4 % 4 } := by
  rw [← written_eq, Plot.configured, bitsAt_zero]
  rfl

/-- The values of an acoef's fields, entered one by one. -/
def coefValues (a b : Word) (t : Tab Nat) : Tab Nat :=
  (List.range (a.toNat / 2 ^ 8 % 4 + 1)).foldl
    (fun t j => tabSet t (a.toNat / 2 ^ 16 % 2 ^ 9 + j) (b.toNat / 2 ^ (16 * j) % 2 ^ 16)) t

theorem setValues_eq (t : Tab Nat) : setValues t b (meadowFirst a) (upTo (meadowCount a)) = coefValues a b t := by
  rw [setValues_eq_foldl, upTo_eq_range]
  rfl

theorem configured_coef : x.configured .coef a b = reconfigured (if a.getLsbD 28 then { x with inits := coefValues a b x.inits }
    else { x with codes := coefValues a b x.codes }) := by
  simp only [Plot.configured, setValues_eq, written_eq]
  split <;> rfl

theorem fieldsFit_coef : fieldsFit x .coef a b = true ↔ a.toNat / 2 ^ 16 % 2 ^ 9 + (a.toNat / 2 ^ 8 % 4 + 1) ≤
    if a.getLsbD 28 = false ∧ x.join = true then 512 else if a.getLsbD 28 = false then 256 else if x.join then 128 else 64 := by
  rw [← coefLimit_eq]
  exact decide_eq_true_iff

end

/-! Each instruction as it is applied. -/

section
variable {s : State} {r : MeadowReq} {d : Reg} {x : Plot}

/-- A configuration that fits its plot. -/
theorem meadowApplied_fits (hx : s.plot r.die r.plot = x) (hop : r.op = .cfg ∨ r.op = .coef ∨ r.op = .scale)
    (hw : r.alone = false → (s.thr r.key).hold = .answer d) (hfit : fieldsFit x r.op r.a r.b = true) :
    .next (meadowApplied s r) = goesOn (s.setPlot r.die r.plot (x.configured r.op r.a r.b)) r d 0#64 := by
  rw [← meadowDone_goesOn (s := s.setPlot _ _ _) hw]
  rcases hop with h | h | h <;> simp only [meadowApplied, h, hx] at hfit ⊢ <;> rw [if_pos hfit]

/-- One that does not is refused. -/
theorem meadowApplied_doesNotFit (hx : s.plot r.die r.plot = x) (hop : r.op = .cfg ∨ r.op = .coef)
    (hfit : fieldsFit x r.op r.a r.b = false) : .next (meadowApplied s r) = doesNotFit s r := by
  rw [← Bool.not_eq_true] at hfit
  rw [← meadowRefused_eq]
  rcases hop with h | h <;> simp only [meadowApplied, h, hx] at hfit ⊢ <;> rw [if_neg hfit]

/-- A command that is not applied ends with 0 (R266). -/
theorem meadowVoid_command (hs : ∀ w, r.op ≠ .settle w) (hm : ∀ w, r.op ≠ .sample w)
    (hw : r.alone = false → (s.thr r.key).hold = .answer d) : .next (meadowVoid s r) = goesOn s r d 0#64 := by
  rw [← meadowDone_goesOn hw, meadowVoid]
  split
  · next w h => exact absurd h (hs w)
  · next w h => exact absurd h (hm w)
  · rfl

theorem meadowApplied_stat {e : Reg} (hop : r.op = .stat e) (hw : r.alone = false → (s.thr r.key).hold = .answer d) :
    .next (meadowApplied s r) = goesOn s r d (plotReport s r.die r.plot (r.a.toNat / 2 ^ 4 % 4)) := by
  rw [← meadowDone_goesOn hw, ← astatWord_eq]
  simp only [meadowApplied, hop]

theorem meadowApplied_run (hx : s.plot r.die r.plot = x) (hop : r.op = .run)
    (hw : r.alone = false → (s.thr r.key).hold = .answer d) :
    .next (meadowApplied s r) = goesOn (s.setPlot r.die r.plot (x.released (r.a.getLsbD 12))) r d 0#64 := by
  rw [← meadowDone_goesOn (s := s.setPlot _ _ _) hw]
  simp only [meadowApplied, hop, hx]

theorem meadowApplied_hold_other (hx : s.plot r.die r.plot = x) (hop : r.op = .hold) (hst : x.state ≠ .running)
    (hw : r.alone = false → (s.thr r.key).hold = .answer d) : .next (meadowApplied s r) = goesOn s r d 0#64 := by
  rw [← meadowDone_goesOn hw]
  simp only [meadowApplied, hop, hx]

theorem meadowApplied_hold_running (hx : s.plot r.die r.plot = x) (hop : r.op = .hold) (hst : x.state = .running)
    (hw : r.alone = false → (s.thr r.key).hold = .answer d) : .next (meadowApplied s r) =
      goesOn (waitersEnd s r.die r.plot { x with
        state := .held, settle := 15, freeze := s.time, tset := s.time } x.waiters 4) r d 0#64 := by
  rw [← meadowDone_goesOn fun ha => (waitersEnd_hold ..).trans (hw ha)]
  simp only [meadowApplied, hop, hx, hst, wakeAll_eq_waitersEnd]
  rfl

theorem meadowApplied_reset (hx : s.plot r.die r.plot = x) (hop : r.op = .reset)
    (hw : r.alone = false → (s.thr r.key).hold = .answer d) : .next (meadowApplied s r) =
      goesOn (waitersEnd s r.die r.plot (discharged x (r.a.getLsbD 12)) x.waiters 4) r d 0#64 := by
  rw [← meadowDone_goesOn fun ha => (waitersEnd_hold ..).trans (hw ha), ← discharged_eq]
  simp only [meadowApplied, hop, hx, wakeAll_eq_waitersEnd]
  have hwaiters : (x.discharged (r.a.getLsbD 12)).waiters = x.waiters := by rw [discharged_eq, discharged]; split <;> rfl
  rw [hwaiters]
  rfl

end

theorem meadowApplies : Stated.MeadowApplies := by
  intro s r d x with' go ends waits
  have hgo : go = .next (meadowReaches s r) := rfl
  refine ⟨fun hb => ?_, fun hb hr => ?_, fun hb hr hno => ⟨fun w hop => ?_, fun w hop => ?_, fun hs hm hw => ?_⟩,
    fun happlies => ?_⟩
  · rw [hgo, meadowReaches_blocked hb]
  · rw [hgo, meadowReaches_open hb, meadowTaken_retired hr]
  · simp only [ends, hgo, meadowReaches_open hb, meadowTaken_void hr hno, meadowVoid, hop]
    rfl
  · simp only [hgo, meadowReaches_open hb, meadowTaken_void hr hno, meadowVoid, hop]
  · rw [hgo, meadowReaches_open hb, meadowTaken_void hr hno, meadowVoid_command hs hm hw]
  · have hreach : go = .next (meadowApplied s r) := by rw [hgo, meadowReaches_applies happlies]
    clear hgo
    refine ⟨fun w hop => ?_, fun hw => ⟨fun e hop => ?_, fun hop => ?_, fun hop => ⟨fun hst => ?_, fun hst => ?_⟩,
      fun hop => ?_, fun hop => ?_, fun hop => ⟨fun hfit => ?_, fun hfit => ?_⟩,
      fun hop => ⟨fun hfit => ?_, fun hfit => ⟨_, ?_, setRoutes_routes x r.a r.b hfit⟩⟩⟩⟩
    · obtain ⟨hidle, hsat, hheld, hrun⟩ := startSettle_byState (s := s) (r := r) rfl w
      have hstart : go = .next (startSettle s r w) := by rw [hreach]; simp only [meadowApplied, hop]
      refine ⟨fun h => hstart.trans (congrArg _ (hidle h)), fun h => hstart.trans (congrArg _ (hsat h)), fun h => ?_,
        fun h => hstart.trans (congrArg _ (hrun h))⟩
      exact hstart.trans (congrArg _ ((hheld h).trans (congrArg (fun v => arrive s r.key w (.one v))
        (apply_ite (BitVec.ofNat 64) _ _ _).symm)))
    · exact hreach.trans (meadowApplied_stat hop hw)
    · rw [hreach, meadowApplied_run rfl hop hw, released_eq]
    · exact hreach.trans (meadowApplied_hold_other rfl hop hst hw)
    · exact hreach.trans (meadowApplied_hold_running rfl hop hst hw)
    · exact hreach.trans (meadowApplied_reset rfl hop hw)
    · rw [hreach, meadowApplied_fits rfl (.inr (.inr hop)) hw (by rw [hop]; rfl), hop, configured_scale]
    · rw [← fieldsFit_coef r.a r.b, ← hop] at hfit
      rw [hreach, meadowApplied_fits rfl (.inr (.inl hop)) hw hfit, hop, configured_coef]
      rfl
    · rw [← Nat.not_le, ← fieldsFit_coef r.a r.b, ← hop, Bool.not_eq_true] at hfit
      exact hreach.trans (meadowApplied_doesNotFit rfl (.inr hop) hfit)
    · rw [← hop] at hfit
      exact hreach.trans (meadowApplied_doesNotFit rfl (.inl hop) hfit)
    · rw [← hop] at hfit
      rw [hreach, meadowApplied_fits rfl (.inl hop) hw hfit, hop, configured_cfg]

end Sys2Proof.Laws
end

section
/-! PROOFS. The events of the Meadow: MPLOT writes, the freeze of a settled plot, a timeout, a saturation, and the calibration
block (R259, R271, R272, R277, R278). -/

namespace Sys2Proof.Laws

open Sys2Proof Sys2Proof.Machine

/-! MPLOT (R259). -/

theorem exec_mplotWrite {s : State} {die p : Nat} {v : Word} {x : Plot} (hx : s.plot die p = x)
    (h : x.join = v.getLsbD 30) : exec (.mplotWrite die p v) s = .next
      (let u := waitersEnd s die p { discharged x true with writes := x.writes + 1 } x.waiters 4
       u.setPlot die p { u.plot die p with valid := v.getLsbD 31, join := v.getLsbD 30, asid := v.extractLsb' 0 16 }) := by
  have hreset : mplotReset s die p =
      waitersEnd s die p { discharged x true with writes := x.writes + 1 } x.waiters 4 := by
    rw [mplotReset, hx, wakeAll_eq_waitersEnd, discharged_eq]
    rfl
  have hsame : (x.join != v.getLsbD 30) = false := by rw [h, bne_self_eq_false]
  change Host.Outcome.next (writeMplot s die p v) = _
  simp only [writeMplot, hx, hsame, hreset, Bool.false_eq_true, if_false]

/-! The settle tests (R271, R272). -/

/-- The waiter that freezes the plot: one with the smallest THR. -/
theorem leastThr_eq_some {l : List PlotWaiter} (h : l ≠ []) : ∃ w, leastThr l = some w ∧ w ∈ l ∧
    ∀ v ∈ l, w.word.toNat % 2 ^ 16 ≤ v.word.toNat % 2 ^ 16 := by
  induction l with
  | nil => exact absurd rfl h
  | cons w ws ih =>
    by_cases hws : ws = []
    · subst hws
      exact ⟨w, rfl, List.mem_singleton_self w, fun v hv => by rw [List.mem_singleton.mp hv]⟩
    · obtain ⟨u, hu, hmem, hle⟩ := ih hws
      simp only [leastThr, hu, bitsAt_zero]
      by_cases hwu : w.word.toNat % 2 ^ 16 ≤ u.word.toNat % 2 ^ 16
      · refine ⟨w, if_pos hwu, List.mem_cons_self, List.forall_mem_cons.mpr ⟨le_rfl, fun v hv => hwu.trans (hle v hv)⟩⟩
      · exact ⟨u, if_neg hwu, List.mem_cons_of_mem w hmem, List.forall_mem_cons.mpr ⟨by omega, hle⟩⟩

section
variable {s : State} {die p : Nat} {x : Plot}

theorem execSettleFreeze_eq {key wid : Nat} {w : PlotWaiter} (hx : s.plot die p = x) (hst : x.state = .running)
    (hw : leastThr (x.waiters.filter holdDone) = some w) : exec (.settleFreeze die p key wid) s = .next
      ((x.waiters.filter fun w => !holdDone w).foldl (fun s w => arrive s w.key w.wid (.one 4#64))
        ((x.waiters.filter holdDone).foldl (fun s w => arrive s w.key w.wid (.one 0#64))
          (s.setPlot die p { x with
            state := .held, settle := 0, tset := s.time, theld := w.word, freeze := s.time, eaThen := x.ea
            etaThen := x.eta, waiters := [] }))) := by
  change execSettleFreeze die p key wid s = _
  simp only [execSettleFreeze, hx, hst, hw, wakePlot_eq_foldl]
  rfl

theorem execSettleTimeout_eq {w : PlotWaiter} {rest : List PlotWaiter} (hx : s.plot die p = x) (hws : x.waiters = w :: rest)
    (hn : w ∉ rest) (ht : timedOut w = true) : exec (.settleTimeout die p w.key w.wid) s = .next
      (arrive (s.setPlot die p { x with settle := 1, tset := s.time, waiters := rest }) w.key w.wid (.one 1#64)) := by
  have hrest : (w :: rest).filter (· != w) = rest := by
    rw [List.filter_cons_of_neg (by simp), List.filter_eq_self]
    exact fun v hv => bne_iff_ne.mpr (ne_of_mem_of_not_mem hv hn)
  change execSettleTimeout die p w.key w.wid s = _
  simp only [execSettleTimeout, hx, hws, findFirst, beq_self_eq_true, ht, Bool.and_self, if_true, hrest]
  rfl

/-! Saturation (R277). -/

theorem execPlotSaturation_eq {sum : Bool} {ix : Nat} (hx : s.plot die p = x) (hst : x.state = .running) :
    exec (.plotSaturation die p sum ix) s = .next (waitersEnd s die p { x with
      state := .saturated, satpend := true, settle := 2, satsum := sum, satix := ix, tset := s.time
      freeze := s.time } x.waiters 2) := by
  change execPlotSaturation die p sum ix s = _
  simp only [execPlotSaturation, hx, hst, wakeAll_eq_waitersEnd]
  rfl

end

/-! The calibration block (R278). -/

section
variable (die : Nat)

/-- A table whose values all change in one way. -/
theorem tabGet_map_values {α : Type} {dflt : α} {g : α → α} (hg : g dflt = dflt) (t : Tab α) (k : Nat) :
    tabGet dflt (t.map fun x => (x.1, g x.2)) k = g (tabGet dflt t k) := by
  induction t with
  | nil => exact hg.symm
  | cons x t ih =>
    simp only [List.map_cons, tabGet]
    split
    · rfl
    · exact ih

theorem execCalibrationStart_eq (s : State) : ∃ u, exec (.calibrationStart die) s = .next u ∧ (u.die die).blocked = true ∧
    ∀ p, u.plot die p = { s.plot die p with waiters := (s.plot die p).waiters.map fun w => { w with run := 0 } } := by
  refine ⟨_, rfl, ?_, fun p => ?_⟩
  · rw [die_setDie_same]
  · rw [State.plot, die_setDie_same]
    exact tabGet_map_values (g := Plot.restarted) rfl _ p

/-- Plots that change one after another. -/
theorem plot_foldl_setPlot (g : Plot → Plot) {l : List Nat} (hl : l.Nodup) : ∀ (s : State) (q : Nat),
    (l.foldl (fun s p => s.setPlot die p (g (s.plot die p))) s).plot die q =
      if q ∈ l then g (s.plot die q) else s.plot die q := by
  induction l with
  | nil => exact fun _ _ => (if_neg List.not_mem_nil).symm
  | cons p l ih =>
    intro s q
    obtain ⟨hp, hl⟩ := List.nodup_cons.mp hl
    rw [List.foldl_cons, ih hl]
    by_cases hq : q = p
    · subst hq
      rw [if_neg hp, if_pos List.mem_cons_self, plot_setPlot_same]
    · rw [plot_setPlot_other _ _ _ hq]
      simp only [List.mem_cons, hq, false_or]

theorem upTo_nodup (n : Nat) : (upTo n).Nodup := List.nodup_range'

theorem execCalibrationStale_eq (s : State) : ∃ u, exec (.calibrationStale die) s = .next u ∧
    ∀ p < 8, u.plot die p = { s.plot die p with stale := true } :=
  ⟨_, rfl, fun p hp => (plot_foldl_setPlot die (fun x => { x with stale := true }) (upTo_nodup 8) s p).trans
    (if_pos (mem_upTo.mpr hp))⟩

/-- Plot q has its new figures, and its fault is logged. -/
def Calibrated (s u : State) (q : Nat) : Prop :=
  let x := s.plot die q
  let y := u.plot die q
  y = { x with ea := y.ea, eta := y.eta, calValid := true, stale := false, calFault := y.calFault } ∧
    (y.calFault = false ↔ y.ea.toNat ≤ 64 ∧ y.eta.toNat ≤ 256) ∧
    (u.die die).mfault.getLsbD q = ((s.die die).mfault.getLsbD q || y.calFault)

/-- Plot q is as it was, and its fault too. -/
def Uncalibrated (s u : State) (q : Nat) : Prop :=
  u.plot die q = s.plot die q ∧ (u.die die).mfault.getLsbD q = (s.die die).mfault.getLsbD q

variable {die} {s t u : State} {p q : Nat}

theorem Uncalibrated.trans (h : Uncalibrated die s t q) (h' : Uncalibrated die t u q) : Uncalibrated die s u q :=
  ⟨h'.1.trans h.1, h'.2.trans h.2⟩

theorem Calibrated.after (h : Uncalibrated die s t q) (h' : Calibrated die t u q) : Calibrated die s u q := by
  simpa only [Calibrated, h.1, h.2] using h'

theorem Calibrated.before (h : Calibrated die s t q) (h' : Uncalibrated die t u q) : Calibrated die s u q := by
  simpa only [Calibrated, h'.1, h'.2] using h

/-- The fault bit of one plot, and no other, is set. -/
theorem mfault_bit (m : BitVec 8) (hp : p < 8) :
    (m ||| (1#8 <<< p)).getLsbD q = (m.getLsbD q || decide (q = p)) := by
  rw [BitVec.getLsbD_or, ← BitVec.twoPow_eq, BitVec.getLsbD_twoPow, decide_eq_true hp, Bool.true_and]
  simp only [eq_comm]

/-- The die with new figures for one plot. -/
theorem die_calibratePlot (die : Nat) (s : State) (p : Nat) : ∃ y,
    y = { s.plot die p with ea := y.ea, eta := y.eta, calValid := true, stale := false, calFault := y.calFault } ∧
    (y.calFault = false ↔ y.ea.toNat ≤ 64 ∧ y.eta.toNat ≤ 256) ∧
    (calibratePlot die s p).die die = { s.die die with
      plots := tabSet (s.die die).plots p y
      mfault := if y.calFault then (s.die die).mfault ||| (1#8 <<< p) else (s.die die).mfault } := by
  let y := { s.plot die p with
    ea := Config.calEA s.nonce, eta := Config.calETA s.nonce, calValid := true, stale := false
    calFault := decide (64 < (Config.calEA s.nonce).toNat) || decide (256 < (Config.calETA s.nonce).toNat) }
  have hdie : (s.tick.setPlot die p y).die die = { s.die die with plots := tabSet (s.die die).plots p y } :=
    die_setPlot_same ..
  refine ⟨y, rfl, ?_, ?_⟩
  · simp only [y, Bool.or_eq_false_iff, decide_eq_false_iff_not, Nat.not_lt]
  · change (if y.calFault then ((s.tick.setPlot die p y).setDie die _).raised (.mfault die p)
      else s.tick.setPlot die p y).die die = _
    by_cases hbad : y.calFault = true
    · rw [if_pos hbad, if_pos hbad, State.die, raised_dies, ← State.die, die_setDie_same, hdie]
    · rw [if_neg hbad, if_neg hbad, hdie]

theorem calibratePlot_same (s : State) (hp : p < 8) : Calibrated die s (calibratePlot die s p) p := by
  obtain ⟨y, hy, hfault, hdie⟩ := die_calibratePlot die s p
  have hplot : (calibratePlot die s p).plot die p = y := by rw [State.plot, hdie, tabGet_tabSet_same]
  simp only [Calibrated, hplot, hdie]
  refine ⟨hy, hfault, ?_⟩
  cases y.calFault with
  | true => rw [if_pos rfl, mfault_bit _ hp, decide_eq_true rfl]
  | false => rw [if_neg Bool.false_ne_true, Bool.or_false]

theorem calibratePlot_other (s : State) (hp : p < 8) (h : q ≠ p) :
    Uncalibrated die s (calibratePlot die s p) q := by
  obtain ⟨y, -, -, hdie⟩ := die_calibratePlot die s p
  refine ⟨by rw [State.plot, hdie, tabGet_tabSet_other _ _ _ _ _ h, State.plot], ?_⟩
  rw [hdie]
  cases y.calFault with
  | true => simp only [if_true, mfault_bit _ hp, decide_eq_false h, Bool.or_false]
  | false => rfl

theorem calibratePlot_blockHeld (die : Nat) (s : State) (p : Nat) :
    ((calibratePlot die s p).die die).blockHeld = (s.die die).blockHeld := by
  obtain ⟨y, -, -, hdie⟩ := die_calibratePlot die s p
  rw [hdie]

theorem foldl_calibratePlot_other {l : List Nat} (hl : ∀ p ∈ l, p < 8) (h : q ∉ l) : ∀ s,
    Uncalibrated die s (l.foldl (calibratePlot die) s) q := by
  induction l with
  | nil => exact fun s => ⟨rfl, rfl⟩
  | cons p l ih =>
    intro s
    obtain ⟨hp, hl⟩ := List.forall_mem_cons.mp hl
    obtain ⟨hqp, hql⟩ := List.ne_and_not_mem_of_not_mem_cons h
    exact (calibratePlot_other s hp hqp).trans (ih hl hql _)

theorem foldl_calibratePlot_mem {l : List Nat} (hl : ∀ p ∈ l, p < 8) (hn : l.Nodup) (h : q ∈ l) : ∀ s,
    Calibrated die s (l.foldl (calibratePlot die) s) q := by
  induction l with
  | nil => exact absurd h List.not_mem_nil
  | cons p l ih =>
    intro s
    obtain ⟨hp, hbounds⟩ := List.forall_mem_cons.mp hl
    obtain ⟨hpl, hnodup⟩ := List.nodup_cons.mp hn
    by_cases hqp : q = p
    · rw [hqp]
      exact (calibratePlot_same s hp).before (foldl_calibratePlot_other hbounds hpl _)
    · have hql := (List.mem_cons.mp h).resolve_left hqp
      exact Calibrated.after (calibratePlot_other s hp hqp) (ih hbounds hnodup hql _)

theorem foldl_calibratePlot_blockHeld (die : Nat) (l : List Nat) : ∀ s,
    ((l.foldl (calibratePlot die) s).die die).blockHeld = (s.die die).blockHeld := by
  induction l with
  | nil => exact fun _ => rfl
  | cons p l ih => exact fun s => (ih _).trans (calibratePlot_blockHeld die s p)

theorem execCalibrationEnd_unblocked (h : (s.die die).blocked = false) : exec (.calibrationEnd die) s = .next s := by
  change execCalibrationEnd die s = _
  rw [execCalibrationEnd, h]
  rfl

/-- The block's end: the new figures, and then the instructions that waited. -/
theorem execCalibrationEnd_blocked (h : (s.die die).blocked = true) : ∃ u, exec (.calibrationEnd die) s =
      .next ((s.die die).blockHeld.foldl (fun s r => meadowTaken (unblockThread s r.key) r) u) ∧
    (u.die die).blocked = false ∧ (u.die die).blockHeld = [] ∧ ∀ p < 8, Calibrated die s u p := by
  let t := (upTo 8).foldl (calibratePlot die) s
  refine ⟨(t.setDie die { t.die die with calibrated := t.time }).setDie die
    { (t.setDie die { t.die die with calibrated := t.time }).die die with blocked := false, blockHeld := [] }, ?_, ?_, ?_, ?_⟩
  · change execCalibrationEnd die s = _
    have hheld : (t.die die).blockHeld = (s.die die).blockHeld := foldl_calibratePlot_blockHeld die _ s
    rw [execCalibrationEnd, h, ← hheld]
    change Host.Outcome.next (endBlock (t.setDie die { t.die die with calibrated := t.time }) die) = _
    simp only [endBlock, die_setDie_same]
  · rw [die_setDie_same]
  · rw [die_setDie_same]
  · intro p hp
    have hcal : Calibrated die s t p := foldl_calibratePlot_mem (fun _ => mem_upTo.mp) (upTo_nodup 8) (mem_upTo.mpr hp) s
    refine hcal.before ⟨?_, ?_⟩
    · simp only [State.plot, die_setDie_same]
    · simp only [die_setDie_same]

end

theorem plotEvents : Stated.PlotEvents := by
  refine ⟨fun s die p v h => exec_mplotWrite rfl h, fun s die p key wid => ⟨fun hst hover => ?freeze, ?timeout,
    fun sum ix hst => execPlotSaturation_eq rfl hst⟩, fun s die => ⟨execCalibrationStart_eq die s, execCalibrationEnd_unblocked,
    execCalibrationEnd_blocked, execCalibrationStale_eq die s⟩⟩
  case freeze =>
    obtain ⟨v, hv, hvo⟩ := hover
    have hdone : ∀ w : PlotWaiter, holdDone w = true ↔ w.word.toNat / 2 ^ 16 % 2 ^ 16 ≤ w.run := fun w => decide_eq_true_iff
    obtain ⟨w, hw, hmem, hle⟩ := leastThr_eq_some (List.ne_nil_of_mem (List.mem_filter.mpr ⟨hv, (hdone v).mpr hvo⟩))
    obtain ⟨hwx, hwo⟩ := List.mem_filter.mp hmem
    refine ⟨_, w, execSettleFreeze_eq rfl hst hw, hwx, (hdone w).mp hwo,
      fun u hu huo => hle u (List.mem_filter.mpr ⟨hu, (hdone u).mpr huo⟩), ?_⟩
    simp only [decide_not]
    rfl
  case timeout =>
    rintro w rest hws hn rfl rfl ht
    refine execSettleTimeout_eq rfl hws hn (decide_eq_true ?_)
    rw [Nat.mul_comm]
    exact ht

/-- Settles O46: each instruction by the state of its plot, once the block, the die's retirement and the second look at the
ownership are out of the way; and each event by what it leaves of the plot and its waiters. -/
theorem meadowRun : Obligations.MeadowRun := ⟨meadowApplies, plotEvents⟩

end Sys2Proof.Laws
end

section
/-! PROOFS. The dominance margin of a plot, and its exact settled state (R262, R263, R274). -/

namespace Sys2Proof.Laws

open Sys2Proof Sys2Proof.Machine

/-! The margin (R262). -/

theorem kSum_eq (x : Plot) (i j : Nat) : kSum x i j = coupling x i j := by
  simp only [kSum, coupling, codeInt_eq, List.sum_eq_foldl]

theorem rowMargin_eq (x : Plot) (used : List Nat) (i : Nat) : rowMargin x used i = marginOf x used i := by
  simp only [rowMargin, marginOf, kSum_eq, List.sum_eq_foldl, bne, beq_eq_decide, ne_eq, decide_not]

theorem usedSet_eq (x : Plot) : usedSet x =
    (List.range (if x.join then 128 else 64)).filter fun i => x.routes.any fun r => r.2.1 == i || r.2.2 == i :=
  congrArg (List.filter _) (upTo_eq_range _)

theorem leastOf_le : ∀ {l : List Int} {v : Int}, v ∈ l → leastOf l ≤ v
  | [_], _, h => by rw [List.mem_singleton.mp h]; exact le_rfl
  | u :: w :: l, v, h => by
    rcases List.mem_cons.mp h with rfl | h
    · exact min_le_left _ _
    · exact (min_le_right _ _).trans (leastOf_le h)

theorem leastOf_mem : ∀ {l : List Int}, l ≠ [] → leastOf l ∈ l
  | [_], _ => List.mem_singleton_self _
  | u :: w :: l, _ => by
    rcases min_choice u (leastOf (w :: l)) with h | h
    · exact List.mem_cons.mpr (.inl h)
    · exact List.mem_cons_of_mem u (h.symm ▸ leastOf_mem (List.cons_ne_nil w l) : min u (leastOf (w :: l)) ∈ w :: l)

theorem dominanceMargin : Stated.DominanceMargin := by
  intro x y used
  have hused : y.inUse = used := usedSet_eq x
  have hmargin : y.dmarg = leastOf (used.map (marginOf x used)) := by
    rw [← hused]
    exact congrArg leastOf (List.map_congr_left fun i _ => rowMargin_eq x _ i)
  refine ⟨rfl, hused, fun hn => ?_, fun i hi => ?_, fun hn => ?_⟩
  · rw [hmargin, hn]
    rfl
  · rw [hmargin]
    exact leastOf_le (List.mem_map_of_mem hi)
  · obtain ⟨i, hi, he⟩ := List.mem_map.mp (leastOf_mem (l := used.map (marginOf x used)) (by simpa using hn))
    exact ⟨i, hi, hmargin.trans he.symm⟩

/-! Elimination: the unknowns are the numbers of a list, and so are the equations (R263). -/

/-- The equations of the unknowns l with coefficients K and right sides b, as solve takes them. -/
def system (l : List Nat) (K : Nat → Nat → Rat) (b : Nat → Rat) (eqs : List Nat) : List (List Rat) :=
  eqs.map fun i => l.map (K i) ++ [b i]

/-- The left side of equation i. -/
def leftSide (l : List Nat) (K : Nat → Nat → Rat) (v : Nat → Rat) (i : Nat) : Rat := (l.map fun j => K i j * v j).sum

/-- The diagonal is strictly dominant in each row. -/
def Dominant (l : List Nat) (K : Nat → Nat → Rat) : Prop :=
  ∀ i ∈ l, ((l.erase i).map fun j => |K i j|).sum < |K i i|

section
variable (K : Nat → Nat → Rat) (b : Nat → Rat) (a : Nat)

/-- The coefficients and the right sides once equation a has eliminated unknown a. -/
def eliminatedCoef (i j : Nat) : Rat := K i j - K i a / K a a * K a j
def eliminatedSide (i : Nat) : Rat := b i - K i a / K a a * b a

theorem eliminate_system (l eqs : List Nat) : (system (a :: l) K b eqs).map (eliminate (K a a) (l.map (K a) ++ [b a])) =
    system l (eliminatedCoef K a) (eliminatedSide K b a) eqs := by
  simp only [system, List.map_map]
  refine List.map_congr_left fun i _ => ?_
  simp only [Function.comp_apply, List.map_cons, List.cons_append, eliminate]
  rw [List.zip_append (by simp), List.zip_map', List.map_append, List.map_map]
  rfl

variable {K b a} {l : List Nat}

theorem leftSide_cons (v : Nat → Rat) (i : Nat) : leftSide (a :: l) K v i = K i a * v a + leftSide l K v i := by
  rw [leftSide, List.map_cons, List.sum_cons, leftSide]

theorem leftSide_congr {v w : Nat → Rat} (h : ∀ i ∈ l, v i = w i) (i : Nat) : leftSide l K v i = leftSide l K w i :=
  congrArg List.sum (List.map_congr_left fun j hj => by rw [h j hj])

theorem leftSide_eliminated (v : Nat → Rat) (i : Nat) :
    leftSide l (eliminatedCoef K a) v i = leftSide l K v i - K i a / K a a * leftSide l K v a := by
  rw [eq_sub_iff_add_eq, leftSide, leftSide, leftSide, ← List.sum_map_mul_left, ← List.sum_map_add]
  refine congrArg List.sum (List.map_congr_left fun j _ => ?_)
  rw [eliminatedCoef]
  ring

/-- The pivot of a dominant system is not 0. -/
theorem Dominant.pivot_ne_zero (h : Dominant (a :: l) K) : K a a ≠ 0 := by
  have hrow := h a List.mem_cons_self
  have hsum : 0 ≤ (((a :: l).erase a).map fun j => |K a j|).sum :=
    List.sum_nonneg fun v hv => by
      obtain ⟨j, -, rfl⟩ := List.mem_map.mp hv
      exact abs_nonneg _
  exact abs_pos.mp (hsum.trans_lt hrow)

/-- Elimination keeps the dominance. -/
theorem Dominant.eliminated (h : Dominant (a :: l) K) (ha : a ∉ l) : Dominant l (eliminatedCoef K a) := by
  intro i hi
  have hia : i ≠ a := ne_of_mem_of_not_mem hi ha
  have hp : 0 < |K a a| := abs_pos.mpr h.pivot_ne_zero
  set c := K i a / K a a with hc
  have hpivotRow : |K a i| + ((l.erase i).map fun j => |K a j|).sum < |K a a| := by
    rw [List.sum_map_erase (fun j => |K a j|) hi]
    have hrow := h a List.mem_cons_self
    rwa [List.erase_cons_head] at hrow
  have hrow : |K i a| + ((l.erase i).map fun j => |K i j|).sum < |K i i| := by
    have hrow := h i (List.mem_cons_of_mem a hi)
    rwa [List.erase_cons_tail (by simpa using hia.symm), List.map_cons, List.sum_cons] at hrow
  have hscale : |c| * |K a a| = |K i a| := by rw [hc, abs_div, div_mul_cancel₀ _ hp.ne']
  have hoff : ((l.erase i).map fun j => |eliminatedCoef K a i j|).sum ≤
      ((l.erase i).map fun j => |K i j|).sum + |c| * ((l.erase i).map fun j => |K a j|).sum := by
    rw [← List.sum_map_mul_left, ← List.sum_map_add]
    refine List.sum_le_sum fun j _ => ?_
    rw [eliminatedCoef, ← abs_mul]
    exact abs_sub _ _
  have hdiag : |K i i| - |c| * |K a i| ≤ |eliminatedCoef K a i i| := by
    rw [eliminatedCoef, ← abs_mul]
    exact abs_sub_abs_le_abs_sub _ _
  have hscaled : |c| * (|K a i| + ((l.erase i).map fun j => |K a j|).sum) ≤ |K i a| := by
    rw [← hscale]
    exact mul_le_mul_of_nonneg_left hpivotRow.le (abs_nonneg c)
  rw [mul_add] at hscaled
  linarith

/-- The equations of a system with its first one solved for its first unknown. -/
theorem solves_cons_iff (hp : K a a ≠ 0) (v : Nat → Rat) : (∀ i ∈ a :: l, leftSide (a :: l) K v i = b i) ↔
    v a = (b a - leftSide l K v a) / K a a ∧
      ∀ i ∈ l, leftSide l (eliminatedCoef K a) v i = eliminatedSide K b a i := by
  have hfirst : K a a * v a + leftSide l K v a = b a ↔ v a = (b a - leftSide l K v a) / K a a := by
    rw [eq_div_iff hp, eq_sub_iff_add_eq, mul_comm]
  simp only [List.forall_mem_cons, leftSide_cons, hfirst, leftSide_eliminated, eliminatedSide]
  refine and_congr_right fun hv => forall₂_congr fun i _ => ?_
  rw [hv]
  constructor
  · intro h
    rw [← h]
    field_simp
    ring
  · intro h
    rw [← sub_eq_zero] at h ⊢
    rw [← h]
    field_simp
    ring

/-- solve gives the one solution of a dominant system. -/
theorem solve_system : ∀ {l : List Nat} {K : Nat → Nat → Rat} {b : Nat → Rat}, l.Nodup → Dominant l K →
    ∃ w, solve l.length (system l K b l) = l.map w ∧
      ∀ v, (∀ i ∈ l, leftSide l K v i = b i) ↔ ∀ i ∈ l, v i = w i
  | [], K, b, _, _ => ⟨fun _ => 0, rfl, fun v => by simp⟩
  | a :: l, K, b, hn, hd => by
    obtain ⟨ha, hl⟩ := List.nodup_cons.mp hn
    obtain ⟨w, hsolve, hw⟩ := solve_system (b := eliminatedSide K b a) hl (hd.eliminated ha)
    set top := (b a - leftSide l K w a) / K a a with htop
    have hother : ∀ i ∈ l, Function.update w a top i = w i :=
      fun i hi => Function.update_of_ne (ne_of_mem_of_not_mem hi ha) _ _
    refine ⟨Function.update w a top, ?_, fun v => ?_⟩
    · have hrest : solve l.length ((system (a :: l) K b l).map (eliminate (K a a) (l.map (K a) ++ [b a]))) = l.map w := by
        rw [eliminate_system, hsolve]
      have hdot : (((l.map (K a) ++ [b a]).zip (l.map w)).map fun x => x.1 * x.2).sum = leftSide l K w a := by
        have hzip := List.zip_append (l₁ := l.map (K a)) (r₁ := [b a]) (l₂ := l.map w) (r₂ := []) (by simp)
        rw [List.append_nil] at hzip
        rw [hzip, List.zip_nil_right, List.append_nil, List.zip_map', List.map_map]
        rfl
      have hside : (l.map (K a) ++ [b a]).getLastD 0 = b a := by rw [List.getLastD_concat]
      rw [List.map_cons, Function.update_self, List.map_congr_left hother, htop, ← hside, ← hdot, ← hrest]
      rfl
    · rw [solves_cons_iff hd.pivot_ne_zero, hw, List.forall_mem_cons, Function.update_self]
      refine ⟨fun ⟨hv, hvl⟩ => ⟨?_, fun i hi => ?_⟩, fun ⟨hv, hvl⟩ => ?_⟩
      · rw [hv, leftSide_congr hvl]
      · rw [hvl i hi, hother i hi]
      · have hvl' : ∀ i ∈ l, v i = w i := fun i hi => (hvl i hi).trans (hother i hi)
        exact ⟨by rw [hv, leftSide_congr hvl'], hvl'⟩

end

/-! The settled state (R263). -/

section
variable {x : Plot}

/-- A positive margin makes the diagonal of the programmed network dominant. -/
theorem dominant_of_margin (hx : x.recomputed = x) (hd : 0 < x.dmarg) :
    Dominant x.inUse fun i j => (coupling x i j : Rat) := by
  obtain ⟨-, hused, -, hle, -⟩ := dominanceMargin x
  rw [hx] at hused hle
  rw [← hused] at hle
  intro i hi
  have hnodup : x.inUse.Nodup := hused ▸ List.nodup_range.filter _
  have hoff : ((x.inUse.erase i).map fun j => |(coupling x i j : Rat)|).sum =
      (((x.inUse.filter fun j => j ≠ i).map fun j => ((coupling x i j).natAbs : Int)).sum : Int) := by
    rw [Int.cast_list_sum, List.map_map, hnodup.erase_eq_filter]
    simp only [bne, beq_eq_decide, ne_eq, decide_not]
    refine congrArg List.sum (List.map_congr_left fun j _ => ?_)
    rw [Function.comp_apply, Int.natCast_natAbs, Int.cast_abs]
  have hmargin := hle i hi
  rw [marginOf] at hmargin
  rw [hoff, ← Int.cast_abs, Int.cast_lt]
  have hneg := neg_le_abs (coupling x i i)
  omega

theorem settled_eq (x : Plot) (i : Nat) : settled x i = (solve x.inUse.length (system x.inUse
    (fun i j => (coupling x i j : Rat)) (fun i => -(coupling x i 0xFE : Rat)) x.inUse)).getD (x.inUse.idxOf i) 0 := by
  simp only [settled, kSum_eq]
  rfl

theorem settledState : Stated.SettledState := by
  intro x hx hd solves
  obtain ⟨-, hused, -, -, -⟩ := dominanceMargin x
  rw [hx] at hused
  have hnodup : x.inUse.Nodup := hused ▸ List.nodup_range.filter _
  obtain ⟨w, hsolve, hw⟩ := solve_system (b := fun i => -(coupling x i 0xFE : Rat)) hnodup (dominant_of_margin hx hd)
  have hsettled : ∀ i ∈ x.inUse, settled x i = w i := by
    intro i hi
    rw [settled_eq, hsolve, List.getD_eq_getElem?_getD, List.getElem?_map, List.getElem?_idxOf hi]
    rfl
  exact ⟨(hw (settled x)).mpr hsettled, fun v hv i hi => ((hw v).mp hv i hi).trans (hsettled i hi).symm⟩

end

end Sys2Proof.Laws
end

section
/-! PROOFS. A sample's pair and its certified bound (R273, R274). -/

namespace Sys2Proof.Laws

open Sys2Proof Sys2Proof.Machine

/-! The bound (R273). -/

/-- The cases of R273 in which a sample has no bound. -/
def uncertified (s : State) (x : Plot) (i : Nat) : Prop :=
  tabGet 0 x.states i < -(2 ^ 32) ∨ 2 ^ 32 - 2 ^ 19 < tabGet 0 x.states i ∨ x.state ≠ .held ∨ x.settle ≠ 0 ∨ x.dmarg ≤ 0 ∨
    i ∉ x.inUse ∨ x.calFault = true ∨ x.stale = true ∨ 10000000 < (s.time - x.freeze).toNat

section
variable {s : State} {x : Plot} {i : Nat}

theorem clipped_iff (v : Int) : clipped v = true ↔ v < -(2 ^ 32) ∨ 2 ^ 32 - 2 ^ 19 < v := by
  rw [clipped, Bool.or_eq_true, decide_eq_true_eq, decide_eq_true_eq]
  rfl

theorem uncertified_iff : (x.state != .held || x.settle != stSETTLED || decide (x.dmarg ≤ 0) || clipped (tabGet 0 x.states i) ||
    !x.inUse.contains i || x.calFault || x.stale || decide (10000000 < (s.time - x.freeze).toNat)) = true ↔
      uncertified s x i := by
  simp only [Bool.or_eq_true, bne_iff_ne, decide_eq_true_eq, Bool.not_eq_true', List.contains_eq_mem,
    decide_eq_false_iff_not, clipped_iff, stSETTLED, uncertified]
  tauto

theorem sampleBound_uncertified (h : uncertified s x i) : sampleBound s x i = none := if_pos (uncertified_iff.mpr h)

/-- The bound of R273 as a fraction, with every factor multiplied out. -/
theorem sampleBound_certified (h : ¬ uncertified s x i) : ∃ N D : Nat, sampleBound s x i = some (N, D) ∧ 0 < D ∧
    N * (2 ^ 22 * 2 ^ x.gain * x.dmarg.toNat) =
      D * (2 ^ 8 * 2 ^ x.gain * x.dmarg.toNat + 4 * max x.eaThen.toNat x.ea.toNat * 2 ^ x.gain * x.dmarg.toNat +
        2048 * (2 ^ x.tau * (x.theld.toNat % 2 ^ 16) + 4 * max x.etaThen.toNat x.eta.toNat * 2 ^ x.gain)) := by
  have hmargin : 0 < x.dmarg.toNat := by
    by_contra hno
    exact h (.inr (.inr (.inr (.inr (.inl (by omega))))))
  refine ⟨_, _, if_neg (uncertified_iff.not.mpr h), by positivity, ?_⟩
  simp only [bitsAt_zero]
  ring

end

/-! The code (R273, R274; log 38). -/

/-- The exact settled state lies within N / D of code c. -/
def nearCode (x : Plot) (i N D : Nat) (c : Int) : Prop :=
  (c : Rat) / 2 ^ 13 - (N : Rat) / D ≤ settled x i ∧ settled x i ≤ (c : Rat) / 2 ^ 13 + (N : Rat) / D

section
variable {x : Plot} {i : Nat}

theorem adcCode_range (x : Plot) (die p i : Nat) : -8192 ≤ adcCode x die p i ∧ adcCode x die p i ≤ 8191 := by
  rw [adcCode]
  split
  · omega
  · exact ⟨le_max_left _ _, max_le (by omega) (min_le_left _ _)⟩

theorem certifiedCode_range {n : Int} (h : -8192 ≤ n ∧ n ≤ 8191) (e : Option (Nat × Nat)) :
    -8192 ≤ certifiedCode x i n e ∧ certifiedCode x i n e ≤ 8191 := by
  cases e with
  | none => exact h
  | some e => exact ⟨le_max_left _ _, max_le (by omega) (min_le_left _ _)⟩

/-- The codes that lie so near are those between two of them. -/
theorem nearCode_iff (N D : Nat) (c : Int) : nearCode x i N D c ↔
    ((settled x i - (N : Rat) / D) * 2 ^ 13).ceil ≤ c ∧ c ≤ ((settled x i + (N : Rat) / D) * 2 ^ 13).floor := by
  rw [Rat.ceil_le_iff, Rat.le_floor_iff, ← le_div_iff₀ (by norm_num), ← div_le_iff₀ (by norm_num), nearCode]
  constructor <;> rintro ⟨h, h'⟩ <;> constructor <;> linarith

/-- Where one of the converter's codes lies so near, the code of the sample does. -/
theorem certifiedCode_near {N D : Nat} (n : Int) (h : ∃ c, -8192 ≤ c ∧ c ≤ 8191 ∧ nearCode x i N D c) :
    nearCode x i N D (certifiedCode x i n (some (N, D))) := by
  obtain ⟨c, hlo, hhi, hc⟩ := h
  rw [nearCode_iff] at hc ⊢
  simp only [certifiedCode]
  omega

end

theorem boundCode_some (N D : Nat) :
    boundCode (some (N, D)) = (roundTo .fp32 ⟨3#3, 0#32⟩ (.fin false (.rat N D))).1 := rfl

theorem sampleBounds : Stated.SampleBound := by
  intro s r w hop happlies x i at' open' EA ETA THR G
  let e := Machine.sampleBound s x i
  have hrange := adcCode_range x r.die r.plot i
  obtain ⟨hlo, hhi⟩ := certifiedCode_range (x := x) (i := i) hrange e
  refine ⟨_, boundCode e, certifiedCode x i (adcCode x r.die r.plot i) e, ?_, rfl, hlo, hhi, fun ho => ?_, fun ho => ?_⟩
  · change Host.Outcome.next (meadowReaches s r) = _
    rw [meadowReaches_applies happlies, meadowApplied_sample hop rfl rfl]
    rfl
  · have hnone : e = none := sampleBound_uncertified ho
    rw [hnone]
    rfl
  · obtain ⟨N, D, he, hD, hformula⟩ := sampleBound_certified (s := s) (x := x) (i := i) ho
    have he' : e = some (N, D) := he
    rw [he']
    exact ⟨N, D, hD, certifiedCode_near _, hformula, rfl⟩

/-- Settles O47: the margin is the least of the rows'; under strict dominance, which elimination keeps, solve finds the only
solution; and the bound of a sample is the fraction of the formula, within which the code is moved where it can be. -/
theorem certifiedSamples : Obligations.CertifiedSamples := ⟨dominanceMargin, settledState, sampleBounds⟩

end Sys2Proof.Laws
end
